-- ==== Sys2Proof/Word.lean ====
section
/-! DEFINITION. The word types of the model and their plainest arithmetic. Whatever a test could show wrong
(byte orders, field packing, saturating counters) stands in Machine/Bits.lean, not here. -/
namespace Sys2Proof

/-- One byte. -/
abbrev Byte := BitVec 8

/-- One 32-bit word of the diagnostic window (R15). -/
abbrev Word32 := BitVec 32

/-- One 4 KiB sub-unit of user data: 4,096 bytes, byte 0 in the least significant bits (00_scope.md glossary,
R225). -/
abbrev Blk := BitVec 32768

/-- One codeword as it stands on the media: 4,608 bytes, byte 0 in the least significant bits (R225). -/
abbrev CwBits := BitVec 36864

/-- A table with one default: pairs of key and value, keys strictly rising, no value equal to the default. -/
abbrev Tbl (α : Type) := List (Nat × α)

end Sys2Proof
end

