-- ==== Sys2Proof/Syntax.lean ====
section
/-! DEFINITION. The commands of the block: one constructor of `Instr` for each row of spec/opcode_table.json, in the
table's order, with the operands the row's rule speaks of. An operand that the spec leaves to the world outside the
controller (a temperature, a decoder's estimate, a self-test result, host data) is carried by the command. -/
namespace Sys2Proof

/-- The two host ports (R53). In single x4 mode only port A is used. -/
inductive PortId where
  | A
  | B
  deriving DecidableEq, Repr

/-- The other port. -/
def PortId.other : PortId → PortId
  | .A => .B
  | .B => .A

/-- The number of a port in register fields: 0 for A, 1 for B (R129). -/
def PortId.toNat : PortId → Nat
  | .A => 0
  | .B => 1

/-- Data pointer descriptor types of a command (R72): the supported ones and any other. -/
inductive DataPtr where
  | prp
  | sglDataBlock
  | sglSegment
  | sglLastSegment
  | sglOther
  deriving DecidableEq, Repr

/-- What an I/O submission entry asks for (R78, I/O rows; R615 for Seal). LBA counts are numbers of LBAs. -/
inductive IoOp where
  | read (slba nlb : Nat)
  /-- `dspec` is the placement identifier where the directive type is Data Placement (R86). -/
  | write (slba nlb : Nat) (fua : Bool) (dspec : Option Nat)
  | writeZeroes (slba nlb : Nat) (deac : Bool) (fua : Bool)
  | deallocate (ranges : List (Nat × Nat))
  /-- Dataset Management whose attribute is not Deallocate: attributes are ignored (R78). -/
  | dsmOther
  | flush
  | verify (slba nlb : Nat)
  /-- Seal (81h): Pad flag, request token, and whether a reserved field is not 0 (R614, R615). -/
  | seal (pad : Bool) (token : Nat) (reservedBad : Bool)
  /-- An opcode the controller does not support (R78). -/
  | unsupported (opcode : Nat)
  deriving DecidableEq, Repr

/-- One submission queue entry of an I/O queue. -/
structure IoEntry where
  cid  : Nat
  nsid : Nat
  ptr  : DataPtr
  op   : IoOp
  deriving DecidableEq, Repr

/-- A command addressed to OWN by the other port in the same fabric cycle (R116). -/
inductive OwnCmd where
  | claim (cid token : Nat) (force : Bool) (key : BitVec 256) (reservedBad : Bool)
  | release (cid token : Nat) (reservedBad : Bool)
  deriving DecidableEq, Repr

/-- What NAND discovery and the tests of start-up find outside the controller (R221, R446, R559). Every list names
the exceptions only. -/
structure StartEnv where
  /-- A 64-bit word of OTP bytes 0 to 159 is uncorrectable (R621). -/
  otpUncorrectable : Bool
  /-- The source number of a checker that failed its self-test (R446, R447). -/
  checkerFail : Option Nat
  /-- SRAM words that fail the write and read-back test: macro and word (R444, R446). -/
  sramBad : List (Nat × Nat)
  /-- The SPI NOR answers for copy A and copy B (R590 check 1). -/
  spiAnswersA : Bool
  spiAnswersB : Bool
  /-- Density code read from the DDR5 mode registers, as DCn_STATUS.density (R559 step 6). -/
  dramDensity : Nat
  /-- 6,400 MT/s trains (R432), and 3,200 MT/s trains. -/
  train6400 : Bool
  train3200 : Bool
  /-- Targets (channel, target) that do not answer or do not match (R221). -/
  badTargets : List (Nat × Nat)
  /-- LUNs (die index) that do not report ready within twice t_rst (R221). -/
  badLuns : List Nat
  /-- Targets (channel, target) that fail DQ training (R221), and the delays of the latest trained target. -/
  untrained : List (Nat × Nat)
  /-- By channel. -/
  readDqsDelay : List Nat
  writeDqDelay : List Nat
  /-- Anchor copies A and B are readable with a good CRC-32C (R396, R572). -/
  anchorAGood : Bool
  anchorBGood : Bool
  /-- A key store copy passes its CRC and unwraps (R631). -/
  keyStoreGood : Bool
  /-- A C4 source fires during start-up (R527). -/
  startC4 : Option Nat
  /-- STRAP_PORT, STRAP_SB, STRAP_SPI, STRAP_TEST as the pins stand, high = true (R550). -/
  strapPort : Bool
  strapSb : Bool
  strapSpi : Bool
  strapTest : Bool
  /-- PWR_FAIL_N counts as asserted when start-up reaches NAND discovery (R549). -/
  pwrFailLow : Bool
  /-- Milliseconds from ts to the start of recovery (R575). -/
  preMs : Nat
  deriving DecidableEq, Repr

/-- The damage recovery meets on the media and in the journal (R405 to R411). -/
structure RecoveryEnv where
  /-- Checkpoint segments of which no completed copy can be read (R408). -/
  lostSegments : List Nat
  /-- Ring records (chunk serial, record) unreadable after MRAM correction (R407). -/
  badRingRecords : List (Nat × Nat)
  /-- Indexed versions (flush serial, index) whose refuge data pages cannot be read (R411). -/
  badRefugeVersions : List (Nat × Nat)
  /-- Indexed versions whose open-block location also fails (R411). -/
  badOpenVersions : List (Nat × Nat)
  /-- Parity elements (super-block, stripe, member) that do not decode in the reads of R324. -/
  badParity : List (Nat × Nat × Nat)
  /-- Milliseconds recovery took (R416). -/
  tookMs : Nat
  deriving DecidableEq, Repr

/-- One temperature conversion (R470, R472 to R474). Voltages are in tenths of a millivolt, readings signed, in 1/16 °C. -/
inductive TempReading where
  /-- A remote diode, inputs 0 to 7: its forward voltage, and what the pair reads. -/
  | diode (forward : Nat) (t16 : Int)
  /-- A thermistor pin, inputs 8 to 15: the voltage on it, of a reference of 1.2 V. -/
  | thermistor (tenthMv : Nat)
  /-- An on-die sensor, inputs 16 to 19. -/
  | onDie (t16 : Int)
  deriving DecidableEq, Repr

/-- What a housekeeping round measures (R476). -/
structure RoundData where
  /-- Inputs 0 to 19, in order. -/
  temps : List TempReading
  /-- VCORE, VDDQ_DDR, VCCQ_NAND and HOLDUP_SENSE in tenths of a millivolt. -/
  vcore : Nat
  vddq : Nat
  vccq : Nat
  holdupSense : Nat
  /-- A PCIe REFCLK is present and its count differs from HK_OSC by more than 1 % (R481). -/
  refclkMismatch : Bool
  deriving DecidableEq, Repr

/-- The buffer an uncorrectable SRAM word lies in (R441): write or read data of a command in the transfer buffer, a read-ahead
buffer, a column of a stripe's parity accumulators, or the reconstruction buffer of a codeword job. -/
inductive BufWord where
  | writeData (p : PortId) (sq cid : Nat)
  | readData (p : PortId) (sq cid : Nat)
  | readAhead (buf : Nat)
  | accumulator (sb k col : Nat)
  | recon (job : Nat)
  deriving DecidableEq, Repr

/-- One firing that reaches the hub in a fabric cycle (R498, R506). -/
structure Firing where
  source : Nat
  /-- Detail bytes 28 to 31 of the history record (R509). -/
  detail : Nat
  /-- The firing comes from an invert-check injection (R518, R521). -/
  injected : Bool
  /-- For BUF_UE: the word met (R441); for POISONED_TLP: the write whose data the packet bears (R503). -/
  word : Option BufWord := none
  deriving DecidableEq, Repr

/-- What makes the hub fault itself (R523). -/
inductive SelfCause where
  | configEcc
  | regParity
  | logic
  | heartbeat
  deriving DecidableEq, Repr

/-- The outcome a decoder reports (R261, R262): its estimate of the vector of the expanded matrix, the number of
iterations run, and whether it was a soft decoder. -/
structure DecodeResult where
  /-- Estimated codeword, descrambled (R268). -/
  estimate : CwBits
  iters : Nat
  deriving DecidableEq, Repr

/-- What the devices of a DRAM channel do to a burst that is read (R434, R435): the bits that arrive inverted, as device (4 is the check
device), DQ and beat, and whether another address answered. -/
structure EccSeen where
  flips  : List (Nat × Nat × Nat) := []
  astray : Bool := false
  deriving DecidableEq, Repr

/-- A request that reaches a DRAM controller's queue (R420, R438). `bytes` are (offset, value) pairs of a write. -/
inductive DramReq where
  | read (addr : Nat)
  | write (addr : Nat) (bytes : List (Nat × BitVec 8))
  deriving DecidableEq, Repr

/-- A burst a mover channel has ready, as the block sees it at an arbitration point (R461, R463). -/
structure MoverReady where
  chan : Nat
  /-- For a sequencer port: its request is asserted in this cycle (R463). -/
  portRequest : Bool
  /-- The beats read are marked poisoned (R459). -/
  poisoned : Bool
  deriving DecidableEq, Repr

/-- What a fetch of a descriptor returns (R455, R465 code 0x3). -/
inductive DescFetch where
  | desc (src dst length control next : Nat)
  | failed
  deriving DecidableEq, Repr

/-- Uses of blocks, by the order numbers of R215. -/
inductive SbUse where
  | refuge
  | rebuildDest
  | journal
  | collection
  | hostRu
  | slc
  deriving DecidableEq, Repr

/-- Purposes of a copy (R332). -/
inductive CopyKind where
  | collect
  | wear
  | scrub
  | fold
  | slcFold
  | rebuild
  deriving DecidableEq, Repr

/-- Features of the PCI Express base specification, by the rows of R63's table; a row that names several has one for each
that a host can tell apart. -/
inductive PcieFeature where
  | flitModeFecCrc
  | equalization
  | laneMargining
  | dataLinkFeature
  | tags10
  | tags14
  | maxPayload
  | maxReadRequest
  | relaxedOrdering
  | idOrdering
  | ecrc
  | aer
  | functionReset
  | msix
  | msi
  | intx
  | aspmL1
  | aspmL0s
  | l0p
  | l1Substates
  | d0D3
  | pme
  /-- SR-IOV, ATS, PRI, PASID, TPH, PTM, IDE, DOE and Resizable BAR. -/
  | other
  deriving DecidableEq, Repr

/-- What a block reset finds: dies that did not become ready in its step 3, and targets whose stored training failed its check in step 4
(R255, R257). -/
structure ResetFound where
  notReady : List Nat := []
  untrained : List Nat := []
  deriving DecidableEq, Repr

/-- A PCIe configuration request (R548, R63), or an event that its settings bring about at the link. -/
inductive CfgReq where
  | readId
  /-- Read how far the function supports a feature (R63, R64). -/
  | readSupport (f : PcieFeature)
  /-- Read size and kind of a base address register, 0 to 5 (R66). -/
  | readBar (n : Nat)
  /-- Switch a supported feature on or off: ordering, tags, ECRC, AER, MSI, MSI-X, ASPM L1, L0p (R63). -/
  | setControl (f : PcieFeature) (on : Bool)
  /-- The link enters L1 or leaves it, and L0p (R63). -/
  | setL1 (on : Bool)
  | setL0p (on : Bool)
  | setMaxPayload (bytes : Nat)
  | setMaxReadRequest (bytes : Nat)
  | setPmeEn (on : Bool)
  | setPowerD3hot (on : Bool)
  /-- Link power state: L2 entered or left, as the partner and configuration have it (R65). -/
  | setL2 (on : Bool)
  | initiateFlr
  deriving DecidableEq, Repr

/-- An access through JTAG (R625). -/
inductive JtagOp where
  /-- Program further bits of the lifecycle byte, in all three copies. -/
  | programLifecycle (bits : BitVec 8)
  /-- Program further bits of one byte of the OTP row below byte 160 or at 168 to 335, which is programmed once. -/
  | programOtp (addr : Nat) (bits : BitVec 8)
  deriving DecidableEq, Repr

/-- The host-side identity of an admin command: the port and the command identifier. -/
structure AdminId where
  port : PortId
  cid  : Nat
  /-- Kind of its data pointer; the controller takes PRPs only (R72). -/
  ptr  : DataPtr := .prp
  deriving DecidableEq, Repr

/-- Page selection of a Get Log Page (R604). -/
structure LogReq where
  offset : Nat
  len    : Nat
  /-- Retain Asynchronous Event. -/
  rae    : Bool
  deriving DecidableEq, Repr

/-- A step of a commit ends (R600, R601). -/
inductive SpiStepEnd where
  | done
  /-- The step exceeded its bound. -/
  | exceeded
  /-- The read-back of step 4 differs. -/
  | mismatch
  deriving DecidableEq, Repr

/-- The commands and events of the block, one constructor for each row of spec/opcode_table.json, in its order. -/
inductive Instr where
  | suppliesValid (env : StartEnv) (board : List (Nat × BitVec 8))
  | supplyFall
  /-- `vio`: the supply is VIO, else VAUX. `above`: it leaves its window upwards. -/
  | vauxVio (vio above : Bool)
  | porNAssert
  | porNRelease (env : StartEnv) (board : List (Nat × BitVec 8))
  | pwrFailNAssert
  | pwrFailNRelease (env : StartEnv)
  /-- `lowNs`: length of the low pulse in nanoseconds (R548). -/
  | perstAssert (p : PortId) (lowNs : Nat)
  | perstDeassert (p : PortId)
  | linkDown (p : PortId)
  | linkUp (p : PortId) (speed width : Nat) (flit laneReversed : Bool)
  | refclkLoss (p : PortId)
  | hotReset (p : PortId)
  | linkDisable (p : PortId)
  | functionLevelReset (p : PortId)
  | ccEnSet (p : PortId) (ams : Nat)
  | ccEnClear (p : PortId)
  | shutdownNotification (p : PortId)
  | shutdownComplete
  | nvmSubsystemReset (p : PortId)
  | nssrStagingWritten (env : StartEnv)
  | cstsNssroClear (p : PortId)
  | submissionDoorbell (p : PortId) (qid tail : Nat) (entries : List IoEntry)
  | completionDoorbell (p : PortId) (qid head : Nat)
  | commandFetch (p : PortId)
  | mapAccept
  | createIoSq (a : AdminId) (qid size cqid prio : Nat)
  | createIoCq (a : AdminId) (qid size vector : Nat)
  | deleteIoSq (a : AdminId) (qid : Nat)
  | deleteIoCq (a : AdminId) (qid : Nat)
  | identify (a : AdminId) (cns nsid : Nat)
  | getFeatures (a : AdminId) (fid : Nat)
  | setFeatures (a : AdminId) (fid value : Nat)
  | setFeaturesFdp (a : AdminId) (enable : Bool)
  | setFeaturesPowerManagement (a : AdminId) (ps : Nat)
  | setFeaturesVwc (a : AdminId) (enable : Bool)
  | setFeaturesHctm (a : AdminId) (tmt1 tmt2 : Nat)
  | setFeaturesAsyncEvent (a : AdminId) (value : BitVec 32)
  | setFeaturesTimestamp (a : AdminId) (ms : Nat)
  | getLogPage (a : AdminId) (lid : Nat) (r : LogReq)
  | getLogPageExtendedHealth (a : AdminId) (r : LogReq)
  | getLogPageLostIu (a : AdminId) (r : LogReq)
  | getLogPageSealHorizon (a : AdminId) (r : LogReq)
  | getLogPageFaultHistory (a : AdminId) (r : LogReq)
  | getLogPageThermalHistory (a : AdminId) (r : LogReq)
  | getLogPageDrydownCursor (a : AdminId) (r : LogReq)
  | getLogPageAccordStatus (a : AdminId) (r : LogReq)
  | abort (a : AdminId) (sqid tcid : Nat)
  | asynchronousEventRequest (a : AdminId)
  | keepAlive (a : AdminId)
  | firmwareImageDownload (a : AdminId) (offset : Nat) (data : List (BitVec 8))
  | firmwareCommit0 (a : AdminId) (fs : Nat)
  | firmwareCommit1 (a : AdminId) (fs : Nat)
  | firmwareCommit2 (a : AdminId) (fs : Nat)
  | firmwareCommit3 (a : AdminId) (fs : Nat)
  | commitSpiStepEnd (r : SpiStepEnd)
  | activationDrainEnd
  | activationTimeout
  | namespaceCreate (a : AdminId) (nsze flbas : Nat) (handles : List Nat)
  | namespaceDelete (a : AdminId) (nsid : Nat)
  | namespaceAttach (a : AdminId) (nsid : Nat) (ctrls : List Nat)
  | namespaceDetach (a : AdminId) (nsid : Nat) (ctrls : List Nat)
  | formatNvm (a : AdminId) (nsid ses lbaf : Nat)
  | sanitizeCryptoErase (a : AdminId)
  | sanitizeBlockErase (a : AdminId)
  | sanitizeEraseEnd
  | deviceSelfTest (a : AdminId) (stc : Nat)
  | directiveSend (a : AdminId) (dtype : Nat)
  | directiveReceive (a : AdminId) (dtype : Nat)
  | ownershipClaim (a : AdminId) (token : Nat) (force : Bool) (key : BitVec 256) (reservedBad : Bool) (tie : Option OwnCmd)
  | ownershipRelease (a : AdminId) (token : Nat) (reservedBad : Bool) (tie : Option OwnCmd)
  | handoverDrainEnd
  | drydownControlStart (a : AdminId) (token : Nat) (reservedBad : Bool)
  | drydownControlStop (a : AdminId) (token : Nat) (reservedBad : Bool)
  | cursorReady
  | diagnosticUnlockEnd (a : AdminId) (token : Nat) (reservedBad : Bool)
  | diagnosticUnlockChallenge (a : AdminId) (token scope : Nat) (reservedBad : Bool)
  | diagnosticUnlockResponse (a : AdminId) (token : Nat) (response : List (BitVec 8)) (reservedBad : Bool)
  | read (p : PortId) (sq cid : Nat)
  | write (p : PortId) (sq cid : Nat)
  | writeZeroes (p : PortId) (sq cid : Nat)
  | datasetManagementDeallocate (p : PortId) (sq cid : Nat)
  | flush (p : PortId) (sq cid : Nat)
  | verify (p : PortId) (sq cid : Nat)
  | seal (p : PortId) (sq cid : Nat)
  | writeAdmission (p : PortId)
  | readWaitEnd (p : PortId) (sq cid : Nat)
  | flaconCommit (flacon : Nat)
  | pack (flacon : Nat)
  | sealPadDelayExpiry
  | arrayOperationStart (die : Nat)
  | dieActivityGrant
  /-- `errs`: bits of each transferred codeword that the array returns inverted. -/
  | senseComplete (die : Nat) (errs : List CwBits)
  | decodeComplete (job : Nat) (r : DecodeResult)
  | readRecoverBudgetExpiry (job : Nat)
  | reconstruction (job : Nat)
  | prefetch (p : PortId) (stream : Nat)
  | programPassComplete (die : Nat)
  /-- The staged version to apply: the IU or sub-units of a flacon, or a trim (`trim`: entry of the trim list). -/
  | versionApply (trim : Bool) (id : Nat)
  | flaconRelease (flacon : Nat)
  | programFailure (die : Nat)
  /-- `marginFails`: a codeword of the erase-margin check is not reported erased (R404). -/
  | eraseComplete (die : Nat) (marginFails : Bool)
  | eraseFailure (die : Nat)
  | eraseSuspend (die : Nat)
  | eraseResume (die : Nat)
  | superBlockFormation (use : SbUse) (handle : Nat)
  | superBlockRelease (sb : Nat)
  | ruActiveLimitExpiry (sb : Nat)
  | idleEntry
  | collectionStart
  | copy (sb : Nat)
  | wearMove
  /-- `page`: which page of the pass, counted from 0. -/
  | scrubRead (page : Nat)
  | scrubSbRefresh (sb : Nat)
  | scrubPeriodOverrun
  | fold (nsid iu : Nat)
  | slcFold (sb : Nat)
  | rebuild
  | refugeFlushEnd
  | refugeSetRelease (set : Nat)
  | journalFlushExpiry
  | checkpointSegmentStart
  | seqReserve
  | pfWaitEnd (env : StartEnv)
  | recovery (env : RecoveryEnv)
  | recoveryTimeout (p : PortId)
  | takeoverHoldExpiry
  | forceLockExpiry (p : PortId)
  | unlockRefusalExpiry (p : PortId)
  | unlockExpiry
  | apst (p : PortId) (ps : Nat)
  | powerStateEntryEnd
  | hkRoundStart
  | hkRoundEnd (d : RoundData)
  | inputHoldExpiry (input : Nat)
  | throttleStep
  | haltEntryEnd
  | aliveEdge (pinLevel : Bool)
  | faultSourceFiring (fs : List Firing)
  | busyTimeout (die : Nat)
  | decTimeout (cluster : Nat)
  | dTimeout (block chan : Nat)
  | coreWdog (core : Nat)
  | fabricTimeout
  | cplTimeout (p : PortId) (sq cid : Nat)
  | hubSelfFault (c : SelfCause)
  | channelBlockResetEnd (ch : Nat) (found : ResetFound)
  | blockResetBoundExpiry (ch : Nat)
  | unitResetEnd
  | reactionWindowClose (source : Nat)
  | fhLogIntervalExpiry (source : Nat)
  | chainStart (block chan head : Nat)
  | descriptorFetch (block chan : Nat) (d : DescFetch)
  | paceTimer (block chan : Nat)
  | peripheralRequest (ch : Nat)
  | burstGrant (block : Nat) (ready : List MoverReady)
  | writeResponse (block chan : Nat)
  | descriptorComplete (block chan : Nat)
  /-- `arrivals`: requests accepted into the queue since; `seen`: what the head's burst reads as; `actRow`: the request
  activates its row (R424). -/
  | dramRequest (ch : Nat) (arrivals : List DramReq) (seen : EccSeen) (activates : Bool)
  | dramRefresh (ch : Nat) (hot : Bool)
  | refreshWindowStart (ch : Nat)
  | dramPatrolScrub (ch : Nat) (seen : EccSeen)
  | eccCeRate (ch : Nat)
  | alertNAssert (ch : Nat)
  | alertNDeassert (ch : Nat)
  /-- The change of frequency point runs; `failing`: channels whose first-entry training, if it is needed, fails. -/
  | frequencyChange (failing : List Nat)
  | trainingStep (ch : Nat) (passes : Bool)
  | miReadDataStructure (dtype portId ctrlId : Nat)
  | miSubsystemHealthPoll
  | miControllerHealthPoll (p : PortId)
  | miConfigurationGet (which : Nat)
  | miConfigurationSet (which value : Nat)
  | miVpdRead (offset len : Nat)
  | miReset
  /-- `field`: CNS of Identify, page of Get Log Page, feature of Get Features. -/
  | miTunnelledAdmin (p : PortId) (opcode field nsid : Nat) (r : LogReq)
  | basicManagementCommand
  | windowWrite (p : PortId) (addr width : Nat) (v : BitVec 32)
  | windowReadLowWord (p : PortId) (addr width : Nat)
  | windowWriteLowWord (p : PortId) (addr width : Nat) (v : BitVec 32)
  | windowWriteHighWord (p : PortId) (addr width : Nat) (v : BitVec 32)
  | fhFirstValidClear (p : PortId)
  | fhInjectArm (p : PortId) (v : BitVec 32)
  | fhLegArmWrite (p : PortId) (v : BitVec 32)
  | fhLegArmExpiry
  | fhLegForceWrite (p : PortId) (k : Nat) (v : BitVec 32)
  | refclkReturn (p : PortId)
  | vauxVioWindowReturn (vio : Bool)
  | configurationRequest (p : PortId) (r : CfgReq)
  | powerStateExitEnd
  | clusterBlockResetEnd (g : Nat)
  | sanitizeTrimEnd
  | jtagAccess (op : JtagOp)
  /-- A read completion carrying the plaintext of sub-units of the write, for one flacon (R140). `sram`: the data cannot
  be used: the word met in the transfer buffer is uncorrectable (R441), or the TLP was poisoned (R503). -/
  | hostDataCompletion (p : PortId) (sq cid flacon : Nat) (data : List Blk) (sram : Bool)
  deriving DecidableEq, Repr

end Sys2Proof
end

