-- ==== Sys2Proof/Config.lean ====
section
/-! DEFINITION. What an implementation fixes: the typed form of the configuration image (17_configuration_image.md)
and the free values, constants without a body that the spec leaves open. -/
namespace Sys2Proof

/-- Temperature input entry of the board section (R583). -/
structure BoardInput where
  role     : Nat := 0
  ideality : Nat := 0
  channels : Nat := 0
  r25      : Nat := 0
  beta     : Nat := 0
  deriving DecidableEq, Repr

/-- Board section (R583). -/
structure Board where
  chanMask     : Nat := 0
  dramChannels : Nat := 0
  inputs       : List BoardInput := []
  dqMap        : List Nat := []
  ddrDrive     : Nat := 0
  ddrOdt       : Nat := 0
  nandDrive    : Nat := 0
  nandOdt      : Nat := 0
  deriving DecidableEq, Repr

/-- A read reference of the NAND geometry section (R584): page, polarity and temperature coefficient. -/
structure RefEntry where
  page : Nat := 0
  pol  : Int := 1
  tc   : Int := 0
  deriving DecidableEq, Repr

/-- NAND geometry section (R584). -/
structure Geometry where
  /-- 1 TLC, 2 QLC. -/
  cellType      : Nat := 0
  density       : Nat := 0
  targets       : Nat := 0
  diesPerTarget : Nat := 0
  planes        : Nat := 0
  rowCycles     : Nat := 0
  lunShift      : Nat := 0
  pageBits      : Nat := 0
  wordlines     : Nat := 0
  blocksPerDie  : Nat := 0
  pageBytes     : Nat := 0
  peRated       : Nat := 0
  onfiMfr       : Nat := 0
  onfiModel     : List Nat := []
  vrefMin       : Int := 0
  vrefMax       : Int := 0
  eraseCheckOffset : Int := 0
  refs          : List RefEntry := []
  defQlc        : List Int := []
  defTlc        : List Int := []
  defSlc        : Int := 0
  rltZone       : List Int := []
  retryCount    : Nat := 0
  retryTable    : List (List Int) := []
  deriving DecidableEq, Repr

/-- NAND timing section (R585), times in µs, powers in mW, onfi_timing in ns. -/
structure Timing where
  iface      : Nat := 0
  rate       : Nat := 0
  tReadSlc   : Nat := 0
  tReadTlc   : Nat := 0
  tReadQlc   : Nat := 0
  tProgSlc   : Nat := 0
  tProgTlc   : Nat := 0
  tProgCoarse : Nat := 0
  tProgFine  : Nat := 0
  tErase     : Nat := 0
  tEsusp     : Nat := 0
  tRst       : Nat := 0
  pDieRead   : Nat := 0
  pDieProg   : Nat := 0
  pDieErase  : Nat := 0
  pSlcProg   : Nat := 0
  onfi       : List Nat := []
  deriving DecidableEq, Repr

/-- LDPC code section (R265, R266): entries are pairs of upper and lower shift, row by row. -/
structure LdpcCode where
  codeId      : Nat := 0
  cols        : Nat := 0
  rows        : Nat := 0
  halfRows    : Nat := 0
  circ        : Nat := 0
  hardIterMax : Nat := 0
  softIterMax : Nat := 0
  softDelta   : Nat := 0
  msScale     : Nat := 0
  llr1        : List Nat := []
  llr2        : List Nat := []
  entryCount  : Nat := 0
  entries     : List (Nat × Nat) := []
  deriving DecidableEq, Repr

/-- DRAM section (R586). A timing set is its 16 fields; the empty list is an absent set. -/
structure DramSection where
  density   : Nat := 0
  tRefw     : Nat := 0
  tParAlert : Nat := 0
  set6400   : List Nat := []
  set3200   : List Nat := []
  deriving DecidableEq, Repr

/-- Host identity section (R587). Strings are kept as their bytes. -/
structure Identity where
  vid : Nat := 0
  did : Nat := 0
  ssvid : Nat := 0
  ssid : Nat := 0
  classCode : Nat := 0
  revisionId : Nat := 0
  serial : List Byte := []
  model  : List Byte := []
  fr     : List Byte := []
  ieee   : Nat := 0
  userCapacity : Nat := 0
  subnqn : List Byte := []
  vpdLength : Nat := 0
  vpd    : List Byte := []
  deriving DecidableEq, Repr

/-- Policy section (R588), in the units of its table. The defaults are its Default column, in force until an image is validated
(DEDUCED, log entry 66); nand_power_budget has none. -/
structure Policy where
  takeoverKeyHash : BitVec 256 := 0
  takeoverHold  : Nat := 500
  handoverDrain : Nat := 20
  ownTie        : Nat := 0
  anaObserverState : Nat := 0
  fdpRuhCount   : Nat := 8
  iuSize        : Nat := 0
  rebuildPriority : Nat := 1
  admitFloat    : Nat := 16384
  sealPadDelay  : Nat := 2000
  overlayFillLimit : Nat := 75
  overlayFoldStart : Nat := 50
  overlayFoldCount : Nat := 8
  drydownAuto   : Nat := 0
  ruActiveLimit : Nat := 0
  cacheMax      : Nat := 256
  cacheFraction : Nat := 16
  eraseSuspendMax : Nat := 6
  placeFloor    : Nat := 32
  eraseResumeMin : Nat := 400
  eraseSuspendReads : Nat := 8
  csResetLimit  : Nat := 3
  rltBatch      : Nat := 32
  rltThresh     : Nat := 4
  raFail        : Nat := 26
  raIters       : Nat := 12
  raDeltaT      : Nat := 40
  raQueueMax    : Nat := 4
  retrySteps    : Nat := 8
  readRecoverBudget : Nat := 2000
  readaheadDepth : Nat := 32
  readaheadBuf  : Nat := 8
  scrubPeriod   : Nat := 7
  scrubRefreshIters : Nat := 16
  gcUrgent      : Nat := 96
  gcBgTarget    : Nat := 480
  gcIdleMs      : Nat := 100
  wearSpread    : Nat := 200
  peRetire      : Nat := 300
  preserveWear  : Nat := 0
  spareMin      : Nat := 100
  scrubSbRefresh : Nat := 64
  holdupReadyMv : Nat := 0
  journalFlushMs : Nat := 1000
  pfDeglitch    : Nat := 2
  holdupRatio   : Nat := 32
  refugeDies    : Nat := 4
  dramTrainBoth : Nat := 0
  rhThreshold   : Nat := 2048
  dramCeThresh  : Nat := 64
  dramScrubHours : Nat := 24
  fhC3Limit     : Nat := 3
  dmHopLimit    : Nat := 4096
  dmBusTimeout  : Nat := 100
  fhLogInterval : Nat := 1000
  hkRoundMs     : Nat := 8
  throttleStepMs : Nat := 1000
  nandPowerBudget : Nat := 0
  deriving DecidableEq, Repr

/-- The sections of one validated copy of the configuration image (R578 to R589). -/
structure Image where
  secVersion : Nat := 0
  integratorKey : List Byte := []
  board    : Board := {}
  geo      : Geometry := {}
  timing   : Timing := {}
  ldpc     : LdpcCode := {}
  dram     : DramSection := {}
  ident    : Identity := {}
  policy   : Policy := {}
  /-- Fault class bytes in source order (R504). -/
  classes  : List Nat := []
  ucodeVersion : Nat := 0
  deriving DecidableEq, Repr

namespace Config

/-- Free value: a register or count that the spec calls undefined (R464, R469), as a function of the state's counter
of free values drawn. DESIGN CHOICE, log entry 2. -/
opaque freeReg : Nat → BitVec 32

/-- Free value: whether a PERST# pulse between 100 ns and 1 µs resets the port (R548). Log entry 2. -/
opaque freePulse : Nat → Bool

/-- Free value: the byte off[k] of a read-level tracker entry, where a step or a subtraction leaves the signed byte (R272, R276, R277): the
spec states no result there. Log entry 80. -/
opaque freeOff : Int → BitVec 8

/-- Free value: a namespace key drawn from SEC's CTR_DRBG (R628). Log entry 2. -/
opaque freeKey : Nat → BitVec 512

/-- Free value: the nonce of an unlock challenge, drawn from the DRBG (R637). Log entry 2. -/
opaque freeNonce : Nat → BitVec 256

/-- Free value: bytes of a standard data structure whose content the spec leaves to the named standard (Identify fields
beyond R67, standard log pages), by structure, controller and byte offset. Log entry 2. -/
opaque stdByte : Nat → Nat → Nat → BitVec 8

/-- Free value: what the rest of a mover's range holds after a disable (R464), by drawn count and byte. -/
opaque freeByte : Nat → Nat → BitVec 8

/-- Free value: data that a sub-unit reads as where the spec states no content (a codeword decrypted with a key that
did not encrypt it is the cipher's own result and needs none; this is for R184). -/
opaque freeBlk : Nat → Blk

/-- Free value: what a burst of the controller tables holds, by its address: 1 an RLT entry, 2 a copy buffer, otherwise
another table (R439 names them; the spec does not lay the tables out). Log entry 14. -/
opaque tableUse : Nat → Nat

/-- Free value: index of that RLT entry, or position of that copy buffer. Log entry 14. -/
opaque tableIndex : Nat → Nat

end Config

end Sys2Proof
end

