-- ==== Sys2Proof/Machine/State.lean ====
section
/-! DEFINITION. The state of the YM-4600 as plain data: every register, buffer, queue, counter, mode and pin the spec
names, and the queue of commands that wait. The value behind `:=` is the field's value at reset; where the spec states
none, the value is the model's (DESIGN CHOICE, log entry 1). Names of files in the docstrings are files of spec/. -/
namespace Sys2Proof.Machine

/-! ### Statuses and completions -/

/-- Completion statuses the spec names (R618, R643 and the rules that use them). -/
inductive Status where
  | success
  | invalidOpcode
  | invalidField
  | dataTransferError
  | internalError
  | abortRequested
  | abortedSqDeletion
  | invalidNamespace
  | commandSequenceError
  | sanitizeInProgress
  | sglTypeInvalid
  | nsWriteProtected
  | lbaOutOfRange
  | namespaceNotReady
  | invalidQueueId
  | invalidQueueSize
  | cqInvalid
  | invalidQueueDeletion
  | invalidLogPage
  | nsInsufficientCapacity
  | nsIdUnavailable
  | controllerListInvalid
  | abortLimitExceeded
  | aerLimitExceeded
  | writeFault
  | unrecoveredReadError
  | accessDenied
  | asymmetricAccessTransition
  | invalidFirmwareSlot
  | invalidFirmwareImage
  | fwNeedsSubsystemReset
  | fwMaxTimeViolation
  | deviceSelfTestInProgress
  | invalidFormat
  | ownershipNotHeld
  | takeoverRefused
  | tokenConflict
  | drydownNotPermitted
  | invalidVector
  | nsAlreadyAttached
  | nsNotAttached
  deriving DecidableEq, Repr

/-- One completion queue entry, or one asynchronous event answer, as posted to a port's host (R74, R619, R643). -/
structure Cqe where
  sq     : Nat
  cid    : Nat
  status : Status
  dnr    : Bool
  dw0    : BitVec 32
  dw1    : BitVec 32
  deriving DecidableEq, Repr

/-- A stored request token (R123). The fingerprint is 32 bits. -/
structure Token where
  token  : Nat
  opcode : Nat
  print  : BitVec 32
  status : Status
  dw0    : BitVec 32
  dw1    : BitVec 32
  deriving DecidableEq, Repr

/-! ### Commands on their way through the write and read paths -/

/-- Treatment of an IU of a write (R193, R198). -/
inductive IuKind where
  | whole
  | overlay
  | merge
  /-- Trimmed entries or a trimmed map entry: no data is staged (R149, R198). -/
  | trim
  deriving DecidableEq, Repr

/-- Decision for one IU a write covers: IU number, mask of its sub-units, treatment (R193). -/
structure IuPlan where
  iu   : Nat
  subs : List Nat
  kind : IuKind
  deriving DecidableEq, Repr

/-- Where one sub-unit of a read stands (R134, R135, R183). -/
inductive SubState where
  /-- Selected version is pending: its sequence number (R135). -/
  | waiting (seq : Nat)
  /-- Selected version is in a flacon, which the read pins (R137). -/
  | staged (flacon seq : Nat)
  /-- Read by a codeword job (R283). -/
  | job (id : Nat)
  | done (b : Blk)
  /-- No content: poisoned or unrecoverable (R183, R283 step 6). -/
  | lost
  deriving DecidableEq, Repr

/-- One sub-unit of a read. -/
structure SubRead where
  iu  : Nat
  sub : Nat
  st  : SubState
  deriving DecidableEq, Repr

/-- Stages of an outstanding I/O command. -/
inductive CmdStage where
  /-- Fetched; its place in port order is fixed (R130). -/
  | fetched
  /-- A write held by a handover (R117 step 1). -/
  | held
  /-- Decided and waiting for admission credits (R133, R144). -/
  | waiting
  /-- Admitted, not yet accepted by MAP (R133). -/
  | admitted
  /-- Accepted by MAP (R131). -/
  | accepted
  /-- In execution: data on its way, media reads under way, or waiting for the horizon. -/
  | running
  deriving DecidableEq, Repr

/-- An outstanding I/O command of a port (R68, R130). -/
structure OutCmd where
  port  : PortId
  sq    : Nat
  entry : IoEntry
  stage : CmdStage
  /-- 64-bit write sequence number once assigned (R75). -/
  seq   : Option Nat := none
  /-- Snapshot of a read, Flush or Seal (R132). -/
  snapshot : Option Nat := none
  plans : List IuPlan := []
  /-- Admission units taken (R144). -/
  need  : Nat := 0
  flacons : List Nat := []
  /-- The write's data transfer has begun (R117 step 3). -/
  dataBegun : Bool := false
  /-- Every flacon is COMMITTED (R147). -/
  prot  : Bool := false
  /-- FUA in effect for it (R79, R151, R373). -/
  fua   : Bool := false
  /-- Seal horizon as MAP accepted it, which a Seal reports (R152). -/
  sealAt : Nat := 0
  subs  : List SubRead := []
  deriving DecidableEq, Repr

/-- Flacon states (R140). -/
inductive FlaconState where
  | free
  | allotted
  | filling
  | committed
  | ready
  | packed
  | programmed
  | safe
  deriving DecidableEq, Repr

/-- One sub-unit held in a flacon, as ciphertext (R24, R141). -/
structure FSub where
  nsid : Nat
  iu   : Nat
  sub  : Nat
  seq  : Nat
  /-- Sillage entry kind: 0 whole-IU version, 1 overlay sub-unit (R232). -/
  kind : Nat
  data : Blk
  /-- Its data has been placed. -/
  filled : Bool
  /-- 512-byte pieces (bit i for bytes 512 i to 512 i + 511) that come from the write itself; the others come from the
  content before it (R139, R195). -/
  mask : Nat := 255
  /-- Plaintext of the content before the write, and of the write, while the merge waits for the other. -/
  old  : Option Blk := none
  host : Option Blk := none
  /-- Number of the pending version the merge waits for (R135, R195). -/
  waits : Option Nat := none
  /-- Superseded or stale: never applied, not carried by a flush (R179, R380, R410). -/
  stale : Bool := false
  /-- Applied to the map (R138). -/
  applied : Bool := false
  /-- Port, SQ and CID of its write, until the write is Protected. -/
  writer : Option (PortId × Nat × Nat) := none
  /-- All of its write's data in this flacon is placed; its write is Protected (R140, R147). -/
  comm  : Bool := false
  prot  : Bool := false
  deriving DecidableEq, Repr

/-- A placement in an Accord super-block: IU slots and the elements they occupy (R175). -/
structure Place where
  sb    : Nat
  slots : List Nat
  deriving DecidableEq, Repr

/-- A 64 KiB staging slot (R140). -/
structure Flacon where
  st    : FlaconState := .free
  /-- Credit units of 4 KiB it holds (R144). -/
  units : Nat := 0
  handle : Nat := 254
  subs  : List FSub := []
  place : Option Place := none
  /-- Reads that pin it (R137). -/
  pins  : Nat := 0
  /-- Serial of the refuge flush it was staged again from (R410). -/
  refuge : Option Nat := none
  /-- It holds a poisoned burst (R440). -/
  poisoned : Bool := false
  deriving DecidableEq, Repr

/-- A version without data: Write Zeroes or Deallocate of one IU (R149, R198). -/
structure TrimVer where
  id   : Nat
  seq  : Nat
  nsid : Nat
  iu   : Nat
  subs : List Nat
  whole : Bool
  stale : Bool := false
  deriving DecidableEq, Repr

/-- What is known of one assigned and not yet Sealed number (R148, R149). -/
structure SeqRec where
  seq  : Nat
  port : PortId
  /-- µs at which it became Protected (R150). -/
  protAt : Option Nat := none
  /-- Nothing is left to place, or its number is retired (R76, R148). -/
  sealedSelf : Bool := false
  deriving DecidableEq, Repr

/-! ### Map, overlay, namespaces -/

/-- A map entry (R180, 40 bits): overlay bit, base state and physical IU address. -/
structure MapEntry where
  overlay  : Bool := false
  poisoned : Bool := false
  trimmed  : Bool := true
  valid    : Bool := false
  pa       : Nat := 0
  deriving DecidableEq, Repr

/-- An overlay entry (R188, 128 bits) with the bucket and place it occupies (R189). -/
structure OvlEntry where
  bucket : Nat
  place  : Nat
  seqLow : Nat
  psub   : Nat
  pa     : Nat
  trimmed : Bool
  sub    : Nat
  mapIndex : Nat
  /-- Held as the reservation of an overlay version that is admitted or staged (R191, R193). -/
  held   : Bool := false
  deriving DecidableEq, Repr

/-- A namespace (R176, R177, R78). -/
structure Namespace where
  nsid  : Nat
  nsze  : Nat
  /-- LBA format: 0 is 4,096 bytes, 1 is 512 bytes (R67). -/
  flbas : Nat
  /-- Map segments in namespace order (R178). -/
  segs  : List Nat
  /-- Placement handle list (R86, R177). -/
  handles : List Nat
  attached : Bool
  /-- Namespace key, 512 bits (R628). -/
  key   : BitVec 512
  deriving DecidableEq, Repr

/-! ### Media -/

/-- Block pools (R212, BLOCK_POOL codes of R390). -/
inductive Pool where
  | erased
  | dirty
  | refuge
  | inUse
  | retired
  deriving DecidableEq, Repr

/-- A block of a die (R165). -/
structure Block where
  pool  : Pool := .dirty
  /-- Erase count (R345, R646). -/
  erases : Nat := 0
  unclean : Bool := false
  /-- Marked for retirement after a failure (R341). -/
  marked : Bool := false
  deriving DecidableEq, Repr

/-- A page on the media: its four codewords as stored, and the bytes beyond them (R224, R225). -/
structure Page where
  cws : List CwBits
  rest : List Byte := []
  deriving DecidableEq, Repr

/-- States of a super-block. -/
inductive SbState where
  | isOpen
  /-- Takes no more stripes of new data; filler is being added (R150, R341). -/
  | closing
  | closed
  deriving DecidableEq, Repr

/-- A formed Accord super-block and its descriptor (R166, R296). -/
structure SuperBlock where
  num    : Nat
  serial : Nat
  use    : SbUse
  /-- Cell mode: 0 SLC, 1 TLC, 2 QLC (R230). -/
  mode   : Nat
  handle : Nat
  /-- 18 channels, ascending (R296). -/
  chans  : List Nat
  /-- Block of member slot m and die slot d, at index m × D + d (R166). -/
  blocks : List Nat
  st     : SbState := .isOpen
  /-- Next IU slot to pack (R174). -/
  nextSlot : Nat := 0
  openedAt : Nat := 0
  /-- Valid 4 KiB units (R187). -/
  valid  : Nat := 0
  /-- Passes completed on each member slot and die slot: coarse (or only) and fine (R238), keyed m × D + d. -/
  passes : Tbl (Nat × Nat) := []
  /-- Program temperature (−128 for none), power-on minutes and map epoch at the first pass of the wordline under way, by
  m × D + d (R236, R395). -/
  marks  : Tbl (Option (Int × Nat × Nat)) := []
  /-- Filler stripes added ahead of nextSlot, and those that wait for an accumulator slot (R150, R305). -/
  ahead  : List Nat := []
  fillWait : List Nat := []
  /-- Blocks (m × D + d) not yet erased and past the erase-margin check (R214). -/
  toErase : List Nat := []
  /-- Elements on the failed block packed as filler and not programmed: stripe and member (R341). -/
  fillersOn : List (Nat × Nat) := []
  /-- Failed blocks, at m × D + d, each with its first failed position q_f (R341). -/
  failed : List (Nat × Nat) := []
  /-- Bits of the loss map that are set: m × D + d (R313). -/
  lost   : List Nat := []
  sDeg   : Option Nat := none
  /-- It is a collection victim; units its collection copied (R331, R339). -/
  victim : Bool := false
  copied : Nat := 0
  /-- Units of host data programmed into it as an SLC super-block, which stay claimed (R217). -/
  claimUnits : Nat := 0
  /-- Reads that pin it (R137). -/
  pins   : Nat := 0
  /-- IUs relocated from it in the present scrub pass (R350). -/
  relocated : Nat := 0
  /-- Checkpoint segments or delta-log chunks it holds (R401). -/
  segments : List Nat := []
  chunks : List Nat := []
  deriving DecidableEq, Repr

/-- A data or parity element of a stripe in flight: four sillage entries (16 bytes each) and four sub-units. -/
structure Element where
  kind    : Nat
  entries : List (BitVec 128)
  data    : List Blk
  /-- Codewords delivered as poisoned (R440). -/
  poison  : Bool := false
  deriving DecidableEq, Repr

/-- A stripe whose accumulator slot is held (R305). -/
structure Stripe where
  sb : Nat
  k  : Nat
  /-- Data elements packed so far, by member (R297). -/
  elems : Tbl (Option Element) := []
  /-- P and Q: four sub-units each and four identity words each (R301, R303). -/
  p : List Blk := []
  q : List Blk := []
  pId : List (BitVec 32) := []
  qId : List (BitVec 32) := []
  /-- Columns of P and Q that an uncorrectable accumulator word spoilt (R441). -/
  badCols : List Nat := []
  closing : Bool := false
  deriving DecidableEq, Repr

/-- Array operations of a die (R243). -/
inductive OpKind where
  /-- Sense of a page: block, position and read offset of the retry table entry, if any. -/
  | sense (block pos : Nat) (soft : Nat) (retry : Option Nat)
  | coarse (sb slot : Nat)
  | fine (sb slot : Nat)
  /-- One-pass program in SLC or TLC mode. -/
  | program (sb slot : Nat)
  /-- An erase of a block taken for a use; `again` for the second erase after a failed margin check (R404). -/
  | erase (block : Nat) (use : SbUse) (again : Bool)
  /-- The erase-margin check of a block taken from the erased pool, or just erased for its use; `again` after the second erase (R214,
  R404). -/
  | marginCheck (block : Nat) (use : SbUse) (again : Bool)
  deriving DecidableEq, Repr

/-- A queued or running array operation (R243, R244). -/
structure DieOp where
  kind : OpKind
  cls  : Nat
  queuedAt : Nat
  /-- It holds a die-activity grant (R246). -/
  granted : Bool := false
  /-- A read that has waited for an erase that could not be suspended, counted once (R259). -/
  waited : Bool := false
  /-- A soft sense of a run-ahead read: the die is not released before it (R280). -/
  ahead : Bool := false
  deriving DecidableEq, Repr

/-- A die and its sequencer's view of it (R243, R249, R250). -/
structure Die where
  busy   : Option DieOp := none
  queue  : List DieOp := []
  isFailed : Bool := false
  /-- A suspended erase, times suspended, reads served in this suspension, µs of the last start or resume. -/
  susp   : Option DieOp := none
  suspends : Nat := 0
  served : Nat := 0
  runFrom : Nat := 0
  /-- An aged operation was served since the last class 3 operation (R244). -/
  agedServed : Bool := false
  deriving DecidableEq, Repr

/-- Channel sequencer states (R259). -/
inductive CsState where
  | disabled
  | init
  | active
  | reset
  | failed
  deriving DecidableEq, Repr

/-- A channel sequencer and its registers (R259). -/
structure Channel where
  st     : CsState := .disabled
  rate   : Nat := 0
  iface  : Nat := 0
  pauseUs : Nat := 0
  /-- µs of the latest array operation start (R252). -/
  lastStart : Option Nat := none
  /-- CSn_FAULT bits 3:0. -/
  fault  : BitVec 4 := 0
  resetCount : Nat := 0
  lastResetUs : Nat := 0
  /-- Erases and margin checks that the reset under way interrupted: die, block, use, and whether the erase had begun
  (R256). -/
  cut : List (Nat × Nat × SbUse × Bool) := []
  /-- Start of the block reset under way, and starts of resets counted by R258. -/
  resetAt : Option Nat := none
  resetStarts : List Nat := []
  /-- Secondary firings during the reset under way (R258). -/
  pendingSecond : Nat := 0
  /-- The reset under way reached cs_reset_limit (R258). -/
  failAtEnd : Bool := false
  suspends : Nat := 0
  suspendRefused : Nat := 0
  trained : BitVec 4 := 0
  readDqs : Nat := 0
  writeDq : Nat := 0
  lastTarget : Nat := 0
  deriving DecidableEq, Repr

/-- LDPC cluster states (R293). -/
inductive LcState where
  | disabled
  | active
  | reset
  deriving DecidableEq, Repr

/-- A codeword in a decoder: its job, and µs since when (R260, R264). -/
structure Decoding where
  job : Nat
  since : Nat
  deriving DecidableEq, Repr

/-- An LDPC cluster and its registers (R293). Queues hold codeword job numbers (R263). -/
structure Cluster where
  st : LcState := .disabled
  /-- Jobs that wait for hard and for soft decoding, in arrival order (R263). -/
  hardQ : List Nat := []
  softQ : List Nat := []
  /-- Codewords in the six hard and the two soft decoders (R260). -/
  hardDec : List Decoding := []
  softDec : List Decoding := []
  hardFail : Nat := 0
  softOk : Nat := 0
  toAccord : Nat := 0
  retryOk : Nat := 0
  raReads : Nat := 0
  raDropped : Nat := 0
  raDieUs : Nat := 0
  fault : BitVec 6 := 0
  resetAt : Option Nat := none
  /-- µs at which its latest block reset ended (R512). -/
  resetEnd : Nat := 0
  /-- Times of the cluster's C2 reactions (R500). -/
  c2Times : List Nat := []
  /-- Clock divider: 1, 2 or 4 (R485). -/
  divider : Nat := 1
  deriving DecidableEq, Repr

/-- A read-level tracker entry (R272). -/
structure RltEntry where
  off  : List Int := []
  /-- none is 0x80, unknown. -/
  progTemp : Option Int := none
  acc  : List Int := []
  samples : Nat := 0
  iterAvg : Nat := 0
  failAvg : Nat := 0
  learned : Bool := false
  fromRetry : Bool := false
  updated : Nat := 0
  hardFail : Nat := 0
  deriving DecidableEq, Repr

/-- Whom a codeword read serves (R243, R286). -/
inductive Purpose where
  | host (p : PortId) (sq cid iu sub : Nat)
  | merge (p : PortId) (sq cid iu sub : Nat)
  | copy (id : Nat) (sub : Nat)
  | prefetch (buf sub : Nat)
  /-- A member read of a degraded read (R308). -/
  | member (parent j : Nat)
  /-- A codeword of a page that patrol scrub reads (R347). -/
  | scrub (page cw : Nat)
  deriving DecidableEq, Repr

/-- What the map or the overlay expects of a codeword's sillage entry (R234). -/
structure Expect where
  nsid : Nat
  iu   : Nat
  sub  : Nat
  kind : Nat
  deriving DecidableEq, Repr

/-- A codeword read on its way through the retry order (R283). -/
structure CwJob where
  id  : Nat
  purpose : Purpose
  sb  : Nat
  k   : Nat
  /-- Member of the stripe, and codeword of the page. -/
  member : Nat
  cw  : Nat
  die : Nat
  block : Nat
  pos : Nat
  expect : Option Expect
  cls : Nat
  /-- Step of R283, 1 to 5. -/
  step : Nat := 1
  /-- Entry of the retry table in use (step 4). -/
  retryIdx : Nat := 0
  /-- The hard sense's descrambled bits, and offsets of the sense. -/
  sensed : Option CwBits := none
  softSenses : Nat := 0
  /-- Read-reference offsets applied to its latest sense, and t_read at its issue in °C (R275, R278). -/
  offsets : List Int := []
  tRead : Option Int := none
  /-- Run-ahead read: its soft senses were issued with the hard sense (R280). -/
  runAhead : Bool := false
  /-- µs of the first step 1 failure (R284). -/
  failedAt : Option Nat := none
  /-- In a cluster queue, or in a decoder. -/
  queued : Bool := false
  /-- Its decode of the present step has failed; the failed codewords of a page escalate together (R283). -/
  failed : Bool := false
  /-- Iterations of the decode that succeeded (R262). -/
  iters : Nat := 0
  /-- Die time of its run-ahead soft senses, µs (R282). -/
  softUs : Nat := 0
  /-- Decoded codeword, while the other three of its page are still being decoded (R234). -/
  decoded : Option CwBits := none
  /-- For step 5: its place in the order of arrival, and whether it holds a reconstruction buffer (R310). -/
  arrived : Nat := 0
  hasBuf : Bool := false
  /-- For step 5: members whose codeword failed steps 1 to 4, and member data read: member, entry and sub-unit (R307, R308). -/
  unavailable : List Nat := []
  got : List (Nat × BitVec 128 × Blk) := []
  /-- Its column was recomputed after an uncorrectable word of the reconstruction buffer (R441). -/
  recomputed : Bool := false
  deriving DecidableEq, Repr

/-- A copy of upkeep or rebuild (R332). One copy carries one whole IU or one overlay sub-unit. -/
structure Copy where
  id   : Nat
  kind : CopyKind
  /-- Source super-block, physical IU address and, for an overlay sub-unit, its place in the slot. -/
  sb   : Nat
  pa   : Nat
  nsid : Nat
  iu   : Nat
  /-- none for a whole IU, else the overlay sub-unit (R332). -/
  sub  : Option Nat
  psub : Nat := 0
  seq  : Nat
  ruh  : Nat
  /-- Highest applied number of the IU when a fold read it (R200). -/
  foldAt : Nat := 0
  /-- Sub-units read so far: sub, entry and ciphertext. -/
  got  : List (Nat × Blk) := []
  need : List Nat := []
  place : Option Place := none
  /-- The copy is stale or its IU unrecoverable (R334, R336). -/
  dead : Bool := false
  /-- Units that were read through P and Q or with errors, for R320's sequence rule. -/
  rebuilt : Bool := false
  deriving DecidableEq, Repr

/-- A tracked read stream (R287). -/
structure Stream where
  nsid : Nat
  lastLba : Nat
  extensions : Nat
  /-- µs of its latest extension. -/
  usedAt : Nat
  nextIu : Nat
  deriving DecidableEq, Repr

/-- A read-ahead buffer (R288 to R291). -/
structure RaBuf where
  id   : Nat
  nsid : Nat
  iu   : Nat
  /-- Map-version counter recorded when MAP looked the IU up (R290). -/
  ver  : Nat
  /-- Its stream's slot; 64 once another stream has taken the slot. -/
  stream : Nat
  port : PortId
  /-- µs of its stream's latest extension (R289). -/
  usedAt : Nat
  got  : List (Nat × Blk) := []
  deriving DecidableEq, Repr

/-! ### Journal and power loss -/

/-- Journal records (R390). -/
inductive Rec where
  | mapSet (mapIndex : Nat) (e : MapEntry) (seq : Nat)
  | ovlSet (mapIndex sub : Nat) (trimmed remove : Bool) (pa psub seq : Nat)
  | horizon (h : Nat)
  | seqReserve (ceiling : Nat)
  | eraseBegin (die block : Nat)
  | eraseEnd (die block count : Nat)
  | blockPool (die block : Nat) (pool : Pool)
  | sbForm (sb serial use mode ruh : Nat)
  | sbClose (sb lastPos qf : Nat)
  | scrubPos (sb start : Nat)
  | lostIu (part : Nat) (bytes : Nat)
  | ckptDone (seg chunk startRec sb pos : Nat)
  | pad
  | chunk (serial minutes : Nat)
  deriving DecidableEq, Repr

/-- A ring chunk or its copy in the delta log (R388, R397): the records after its header. -/
structure Chunk where
  serial : Nat
  openedMin : Nat
  recs : List Rec := []
  closed : Bool := false
  /-- µs of the first record after the header (R388). -/
  firstAt : Option Nat := none
  /-- Its delta-log pages have completed programming (R397). -/
  inDelta : Bool := false
  /-- Super-block and first stripe of its delta-log pages. -/
  place : Option (Nat × Nat) := none
  deriving DecidableEq, Repr

/-- Content of a checkpoint segment (R398). -/
inductive SegBody where
  | map (entries : Tbl MapEntry)
  | overlay (entries : List OvlEntry)
  | blocks (t : Tbl Block)
  | lost (entries : List (List Nat)) (sbSerial : Nat)
  deriving DecidableEq, Repr

/-- A completed or running checkpoint segment (R398, R399). -/
structure Segment where
  index : Nat
  /-- Start position: chunk serial and record (R398). -/
  startChunk : Nat
  startRec : Nat
  iuSize : Nat
  codeId : Nat
  body : SegBody
  sb : Nat
  /-- Its first stripe in the super-block. -/
  first : Nat := 0
  done : Bool := false
  deriving DecidableEq, Repr

/-- States of a refuge set (R377, PLS_STATUS). -/
inductive SetState where
  | erased
  | inUse
  | releasing
  deriving DecidableEq, Repr

/-- A version in the index of a refuge flush, with its data (R381). -/
structure RefugeVer where
  mapIndex : Nat
  nsid : Nat
  iu   : Nat
  seq  : Nat
  /-- Sub-units that are live (R380). -/
  live : List Nat
  kind : Nat
  handle : Nat
  data : List (Nat × Blk)
  /-- Its flacon held a poisoned burst: its refuge pages do not decode (R440). -/
  poisoned : Bool := false
  deriving DecidableEq, Repr

/-- Content of a refuge flush (R381). -/
structure Flush where
  serial : Nat
  lastSeq : Nat
  horizon : Nat
  cause : Nat
  powerOn : Nat
  firstChunk : Nat
  index : List RefugeVer
  tail : List Chunk
  /-- Records of the tail copy written under the poison of an uncorrectable ring word: chunk serial and record (R442). -/
  badTail : List (Nat × Nat) := []
  deriving DecidableEq, Repr

/-- A refuge set (R377): state, blocks and the flush it holds. -/
structure RefugeSet where
  st : SetState := .releasing
  /-- Blocks, as die index and block. -/
  blocks : List (Nat × Nat) := []
  /-- Blocks not yet erased and past the erase-margin check. -/
  toErase : List (Nat × Nat) := []
  flush : Option Flush := none
  /-- Formed at the first start-up, and not yet erased and checked since (R377, R646). -/
  isNew : Bool := false
  deriving DecidableEq, Repr

/-- The anchor (R396): what survives every reset and changes rarely. -/
structure Anchor where
  /-- An anchor has been written (R646). -/
  written : Bool := false
  mediaMode : Nat := 0
  owner : PortId := .A
  generation : Nat := 0
  fdp : Bool := false
  iuSize : Nat := 0
  codeId : Nat := 0
  clean : Bool := false
  flushSerial : Nat := 0
  lastFlushUs : Nat := 0
  flushes : Nat := 0
  sbs : List Nat := []
  serial : Nat := 0
  deriving DecidableEq, Repr

/-- A Lost-IU entry (R352, R606). -/
structure LostIu where
  num  : Nat
  nsid : Nat
  /-- IU-aligned range in LBAs. -/
  first : Nat
  count : Nat
  cause : Nat
  minutes : Nat
  stamp : Nat
  seq  : Nat
  approx : Bool := false
  deriving DecidableEq, Repr

/-! ### Movers, DRAM -/

/-- Mover channel states (R469). -/
inductive MvState where
  | disabled
  | idle
  | fetch
  | wait
  | move
  | resp
  | halted
  deriving DecidableEq, Repr

/-- A descriptor as fetched (R452): five fields of 8, 8, 4, 4 and 8 bytes. -/
structure Desc where
  src : Nat
  dst : Nat
  length : Nat
  control : Nat
  next : Nat
  deriving DecidableEq, Repr

/-- A mover channel (R469). -/
structure Mover where
  st : MvState := .disabled
  code : Nat := 0
  hops : Nat := 0
  descAddr : Nat := 0
  desc : Option Desc := none
  remain : Nat := 0
  /-- Pace source, a global channel number (DMb_CHm_PACE). -/
  paceSrc : Option Nat := none
  credits : Nat := 0
  done : Nat := 0
  /-- The pacing condition of the current descriptor is met (R460). -/
  paced : Bool := false
  /-- µs of the first burst of the previous descriptor and of the current one (R460 timer). -/
  prevBurst : Option Nat := none
  firstBurst : Option Nat := none
  /-- Write responses not yet returned (R458). -/
  owed : Nat := 0
  /-- µs of the issue of the latest beat or descriptor fetch (R467). -/
  issuedAt : Nat := 0
  /-- Poisoned beats were moved (R459). -/
  poisoned : Bool := false
  /-- Head of the chain and first descriptor not completed, for the reaction of class C2 (R498). -/
  resumeAt : Option Nat := none
  /-- Completions signalled to the issuer: descriptor address and code (R457). -/
  signals : List (Nat × Nat) := []
  /-- Times of the channel's C2 reactions (R500). -/
  c2Times : List Nat := []
  deriving DecidableEq, Repr

/-- A mover block (R469). -/
structure MoverBlock where
  pointer : Nat := 0
  gap : Nat := 0
  grants : Nat := 0
  fault : BitVec 8 := 0
  deriving DecidableEq, Repr

/-- A DRAM burst: 64 data bytes, whether its check symbols carry the poison syndrome (R433, R436), and what an injection
left in them: 0 nothing, 1 a correctable error, 2 an uncorrectable one (R518). -/
structure Burst where
  data : BitVec 512 := 0
  poison : Bool := false
  flaw : Nat := 0
  deriving DecidableEq, Repr

/-- DRAM controller states (R449). -/
inductive DcState where
  | disabled
  | training
  | active
  | selfRefresh
  | freqChange
  | replay
  deriving DecidableEq, Repr

/-- An entry of a bank's row-hammer table (R424). -/
structure RhEntry where
  row : Nat
  cnt : Nat
  deriving DecidableEq, Repr

/-- A DRAM controller (R449). -/
structure Dc where
  st : DcState := .disabled
  point3200 : Bool := false
  trained6400 : Bool := false
  trained3200 : Bool := false
  unusable3200 : Bool := false
  density : Nat := 0
  queue : List DramReq := []
  /-- Bursts by burst number in the channel; unlisted bursts are zero with fresh check bits (R563). -/
  mem : Tbl Burst := []
  corrected : Nat := 0
  uncorrectable : Nat := 0
  poisoned : Nat := 0
  /-- DCn_ERR_ADDR. -/
  errValid : Bool := false
  errUnc : Bool := false
  errSymbols : Nat := 0
  errBurst : Nat := 0
  targeted : Nat := 0
  alerts : Nat := 0
  failedReplays : Nat := 0
  run : Nat := 0
  /-- DRAM remap entries: burst numbers served from SRAM, up to 8 (R444). -/
  remap : List Nat := []
  /-- Bursts the scrubber corrected on its previous visit; bursts reported uncorrectable and since overwritten (R444). -/
  correctedLast : List Nat := []
  overwritten : List Nat := []
  /-- Bursts reported uncorrectable (R444). -/
  reported : List Nat := []
  scrubPos : Nat := 0
  passes : Nat := 0
  rewrites : Nat := 0
  fault : BitVec 8 := 0
  /-- Row-hammer tables, by bank 0 to 31 (R424). -/
  rh : Tbl (List RhEntry) := []
  /-- Targeted refreshes waiting: bank and rows (R424). -/
  pendingRefresh : List (Nat × List Nat) := []
  refreshes : Nat := 0
  /-- µs of the latest refresh, and of the start of the refresh window (R423, R424). -/
  refreshAt : Option Nat := none
  windowAt : Nat := 0
  /-- µs of the latest corrected bursts, newest first, up to dram_ce_thresh of them (R448). -/
  ceTimes : List Nat := []
  /-- MR4 reports more than 85 °C: tREFI and tREFW are halved (R423). -/
  hot : Bool := false
  alerting : Bool := false
  retryBuf : List DramReq := []
  /-- 1 command slot in 4 is skipped (R485). -/
  skip : Bool := false
  /-- Data returned by the latest read. -/
  lastRead : BitVec 512 := 0
  deriving DecidableEq, Repr

/-! ### Housekeeping -/

/-- A temperature input (R474, R496). Readings are signed, in 1/16 °C. -/
structure TempIn where
  valid : Bool := false
  held  : Bool := false
  temp  : Int := 0
  /-- µs at which it became invalid. -/
  heldAt : Option Nat := none
  /-- Peak, signed °C; −128 is the reset value 0x80. -/
  peak : Int := -128
  /-- Highest reading over the life of the drive (R610). -/
  lifePeak : Int := -2048
  /-- µs spent at or above Warning and Throttle, over the life of the drive (R610). -/
  usWarn : Nat := 0
  usThrottle : Nat := 0
  /-- Crossed and not yet cleared: Warning, Throttle, Shutdown (R482). -/
  warn : Bool := false
  thr  : Bool := false
  shut : Bool := false
  deriving DecidableEq, Repr

/-- A round supply (HK_SUPPLYk): window 0 in, 1 under, 2 over, and the reading in tenths of a millivolt. -/
structure Supply where
  window : Nat := 0
  tenthMv : Nat := 0
  deriving DecidableEq, Repr

/-- A Thermal History record (R610). -/
structure ThermRec where
  num : Nat
  minutes : Nat
  input : Nat
  event : Nat
  level : Nat
  reading : Int
  deriving DecidableEq, Repr

/-- Housekeeping unit (13_thermal_housekeeping.md). -/
structure Hk where
  inputs : List TempIn := List.replicate 20 {}
  supplies : List Supply := List.replicate 4 {}
  rounds : Nat := 0
  /-- µs of the start of the latest round, and whether it runs (R476). -/
  roundAt : Option Nat := none
  /-- µs at which the latest round ended. -/
  endedAt : Option Nat := none
  inRound : Bool := false
  /-- A round is owed because the previous one was late (R477). -/
  late : Bool := false
  /-- Rounds completed since start-up (R470, R479). -/
  anyRound : Bool := false
  roundsDone : Nat := 0
  halt : Bool := false
  /-- Step of halt entry still to end (R489). -/
  haltEntry : Bool := false
  level : Nat := 0
  lastStep : Nat := 0
  tmt1 : Nat := 0
  tmt2 : Nat := 0
  tmt1Latch : Bool := false
  tmt2Latch : Bool := false
  /-- Trim codes of HK_OSC and of the bandgap, 10 bits each (R479). -/
  oscTrim : Nat := 0
  bgTrim : Nat := 0
  curvesOk : Bool := false
  /-- VAUX and VIO outside their window: 0 in, 1 under, 2 over (R478). -/
  vauxOut : Nat := 0
  vioOut : Nat := 0
  /-- Weight of grants held, mW, and dies holding one (R493). -/
  inUse : Nat := 0
  activeDies : List Nat := []
  waits : Nat := 0
  /-- Dies waiting for a grant, in arrival order (R494). -/
  waiting : List Nat := []
  grantPtr : Nat := 0
  fault : BitVec 24 := 0
  history : List ThermRec := []
  historyNext : Nat := 0
  /-- µs with the thermal throttle condition and with the halt condition in effect (R610). -/
  usThrottled : Nat := 0
  usHalted : Nat := 0
  halts : Nat := 0
  /-- Halt has set bit 1 of the SMART critical warning, and some input has been at or above Warning since (R489, R491). -/
  haltWarn : Bool := false
  /-- Hold-up: latest voltage and lowest since written, mV; ready (R372, R373). -/
  holdupMv : Nat := 0
  holdupMin : Nat := 0xFFFF
  holdupReady : Bool := false
  /-- DRAM point requested last (R486). -/
  want3200 : Bool := false
  /-- PLS divider (R485). -/
  plsDivider : Nat := 1
  deriving DecidableEq, Repr

/-! ### Fault hub -/

/-- A captured firing (FH_FIRST, FH_LAST, FH_SAFE, R531). -/
structure Capture where
  valid : Bool := false
  injected : Bool := false
  escalated : Bool := false
  cls : Nat := 0
  source : Nat := 0
  isSelf : Bool := false
  timeUs : Nat := 0
  deriving DecidableEq, Repr

/-- A fault history record (R509). -/
structure FaultRec where
  num : Nat := 0
  timeUs : Nat := 0
  source : Nat := 0
  cls : Nat := 0
  flags : BitVec 8 := 0
  primary : Nat := 0
  count : Nat := 0
  detail : Nat := 0
  deriving DecidableEq, Repr

/-- Reactions that have a consequence mask (R512). -/
inductive Reaction where
  | csReset (ch : Nat)
  | lcReset (g : Nat)
  | mover (chan : Nat)
  | c3 (ports : List PortId)
  | safe
  deriving DecidableEq, Repr

/-- An open consequence-mask window (R511). -/
structure Window where
  primary : Nat
  reaction : Reaction
  openedAt : Nat
  /-- Which of the cycles that fired opened it (R513). -/
  cycle : Nat
  deriving DecidableEq, Repr

/-- Unit resets of C3 reactions that run: their sources, and the ports they affect (R499). -/
structure UnitReset where
  sources : List Nat
  ports : List PortId
  deriving DecidableEq, Repr

/-- Fault hub (14_fault_hub.md). -/
structure Fh where
  latch : Bool := false
  selfSet : Bool := false
  first : Capture := {}
  last : Capture := {}
  safe : Capture := {}
  /-- Sources that have fired as primary, and as secondary (FH_STATUSk, FH_SECk). -/
  status : List Nat := []
  sec : List Nat := []
  tagPrimary : Nat := 0
  tagSource : Nat := 0
  /-- FH_SELF bits 3:0. -/
  selfBits : BitVec 4 := 0
  /-- FH_INJECT fields and FH_INJECT_ADDR. -/
  injArmed : Bool := false
  injRefused : Bool := false
  injAddrEn : Bool := false
  injMode : Nat := 0
  injSource : Nat := 0
  injAddr : BitVec 40 := 0
  legArm : BitVec 32 := 0
  legArmAt : Option Nat := none
  /-- FH_ALIVE. -/
  aliveDriving : Bool := false
  aliveLevel : Bool := false
  aliveReadback : Bool := false
  mismatches : Nat := 0
  windows : List Window := []
  /-- Cycles in which firings have reached the hub; it tells windows opened in one cycle from those of two (R513). -/
  cycle : Nat := 0
  /-- Times of C3 reactions (R500). -/
  c3Times : List Nat := []
  /-- The unit resets of C3 reactions, until they have ended (R499). -/
  unitReset : Option UnitReset := none
  history : List FaultRec := []
  historyNext : Nat := 0
  /-- Firings counted since the previous record, by source, and µs of that record (R509). -/
  counted : Tbl Nat := []
  recordedAt : Tbl Nat := []
  /-- The latest counted firing of a source, whose class, flags and detail its record will bear (R509). -/
  waiting : Tbl FaultRec := []
  /-- Classes from the image by source (FH_CLASSk); set during start-up. -/
  classes : List Nat := []
  deriving DecidableEq, Repr

/-! ### Ports -/

/-- A submission queue (R67, R71, R78). -/
structure Sq where
  id : Nat
  size : Nat
  cqid : Nat
  prio : Nat
  tail : Nat := 0
  entries : List IoEntry := []
  deriving DecidableEq, Repr

/-- A completion queue: entries posted and not yet freed (R59, R78). -/
structure Cq where
  id : Nat
  size : Nat
  vector : Nat
  head : Nat := 0
  tail : Nat := 0
  deriving DecidableEq, Repr

/-- LTSSM states by their code in HFEx_LINK (R97). -/
inductive Ltssm where
  | detect
  | polling
  | configuration
  | l0
  | l0p
  | recovery
  | l1
  | l2
  | disabled
  | loopback
  | hotReset
  deriving DecidableEq, Repr

/-- A host port: HFE, NVMe controller and what OWN and SEC keep for it. -/
structure Port where
  ltssm : Ltssm := .detect
  speed : Nat := 0
  width : Nat := 0
  flit : Bool := false
  laneReversed : Bool := false
  /-- PERST# is asserted; REFCLK is present (R30, R103). -/
  perst : Bool := true
  refclk : Bool := true
  replayCount : Nat := 0
  fecCorrected : Nat := 0
  peak : Nat := 0
  maxPayload : Nat := 128
  maxReadReq : Nat := 512
  pmeEn : Bool := false
  d3hot : Bool := false
  /-- PCI Express features that the host has switched on (R63). -/
  pcieOn : List PcieFeature := []
  inL2 : Bool := false
  /-- PM_PME messages sent; WAKE# asserted (R65). -/
  pmeSent : Nat := 0
  wake : Bool := false
  ccEn : Bool := false
  ccAms : Nat := 0
  ccShn : Nat := 0
  rdy : Bool := false
  cfs : Bool := false
  nssro : Bool := false
  /-- CSTS.SHST: 0 normal, 1 occurring, 2 complete (R567). -/
  shst : Nat := 0
  /-- µs at which CC.EN became 1 (R566). -/
  ccEnAt : Nat := 0
  /-- The HFE fetches (R117, R163, R499, R524). -/
  fetching : Bool := true
  sqs : List Sq := []
  cqs : List Cq := []
  /-- Round robin pointer, queue under its arbitration burst, fetches left in the burst, and the weighted credits left of the
  high, medium and low classes (R71). -/
  rrPtr : Nat := 0
  curSq : Nat := 0
  burstLeft : Nat := 0
  wrrLeft : List Nat := []
  /-- Completions that wait for room in their queue. -/
  waitingCqes : List Cqe := []
  /-- Completions posted, oldest first. -/
  cqes : List Cqe := []
  /-- Outstanding I/O commands in port order (R130). -/
  cmds : List OutCmd := []
  /-- Drive-changing admin commands held by a handover, in fetch order (R117). -/
  heldAdmin : List Instr := []
  /-- CIDs of outstanding Asynchronous Event Requests (R67). -/
  aers : List Nat := []
  /-- Notices kept for the next request, by page; 0x0C is the ANA notice (R355, R81). -/
  kept : List Nat := []
  /-- Pages whose notice awaits a read (R355). -/
  blocked : List Nat := []
  /-- Asynchronous Event Configuration (R619, R81). -/
  asyncCfg : BitVec 32 := 0x007F0800
  /-- Features of the controller's own, by identifier (R78, R99). -/
  features : Tbl Nat := []
  anaCount : Nat := 0
  /-- Power state selected, and last operational state selected (R94, R95). -/
  selPs : Nat := 0
  lastOpPs : Nat := 0
  /-- Latched high word: address of the register's low word and value (R16). -/
  latch : Option (Nat × BitVec 32) := none
  /-- Buffered low word: address and value (R17). -/
  wbuf : Option (Nat × BitVec 32) := none
  /-- Answer of the latest window read, and bytes of the latest data answer (Identify, log pages, reads, challenges). -/
  windowData : BitVec 32 := 0
  hostData : List Byte := []
  readData : List (Nat × Nat × Blk) := []
  /-- Stored tokens, oldest first, at most 32 (R123). -/
  tokens : List Token := []
  tokenHits : Nat := 0
  tokenConflicts : Nat := 0
  /-- Repeats held while the first command executes: token and cid (R127). -/
  heldRepeats : List (Nat × Nat) := []
  forceFails : Nat := 0
  /-- µs at which the refusal of Force ends (R111). -/
  forceLock : Option Nat := none
  /-- Outstanding challenge (R616, R638), failed responses and end of the refusal of challenges (R639). -/
  challenge : Option (List Byte) := none
  chFails : Nat := 0
  chLock : Option Nat := none
  /-- Resume offset into C5h and generation of the previous C5h read (R612). -/
  c5Resume : Nat := 0
  c5Gen : Nat := 0
  streams : List Stream := []
  /-- A controller reset of the port waits for the end of a C3 unit reset (R499). -/
  resetHeld : Bool := false
  deriving DecidableEq, Repr

/-! ### Ownership, security, image, boot -/

/-- Ownership phases (R105). -/
inductive Phase where
  | held
  | released
  | linkDown
  | lapsed
  | handover
  deriving DecidableEq, Repr

/-- The claim that started the handover under way (R113, R117). -/
structure ClaimRec where
  port : PortId
  /-- none once a reset of the port has taken its completion away (R160). -/
  cid : Option Nat
  token : Nat
  print : BitVec 32
  t0 : Nat
  deriving DecidableEq, Repr

/-- Ownership arbiter (R129). -/
structure Own where
  owner : PortId := .A
  phase : Phase := .held
  generation : BitVec 32 := 0
  claimant : PortId := .A
  claim : Option ClaimRec := none
  /-- µs at which the owner's link went down (R104). -/
  downSince : Option Nat := none
  tieCount : Nat := 0
  lastWinner : PortId := .A
  lastHandoverUs : Nat := 0
  deriving DecidableEq, Repr

/-- A Diagnostic Unlock in effect (R637, R640). -/
structure Unlock where
  port : PortId
  /-- Bit 0 window, bit 1 JTAG, bit 2 UART. -/
  scope : BitVec 3
  since : Nat
  deriving DecidableEq, Repr

/-- Sanitize states of the key store (R630). -/
inductive SanState where
  | none
  | crypto
  | block
  deriving DecidableEq, Repr

/-- Security block (19_security.md). -/
structure Sec where
  /-- OTP row, 2,048 bytes by address; unlisted bytes are 0 (R620). -/
  otp : List Host.Cell := []
  unlock : Option Unlock := none
  unlocks : Nat := 0
  tagFail : Nat := 0
  sanitize : SanState := .none
  /-- Sanitize under way: next step 3 or 4 to end (R634), and blocks still to erase. -/
  sanStep : Nat := 0
  /-- The Sanitize under way runs again after a reset, until whose end I/O commands complete with Namespace Not Ready (R635). -/
  sanRerun : Bool := false
  secVersionInUse : Nat := 0
  floor : Nat := 0
  lifecycle : BitVec 8 := 0
  /-- The two copies of the key store in MRAM, 4,096 bytes each once written (R630). -/
  storeA : List (BitVec 8) := []
  storeB : List (BitVec 8) := []
  /-- What the newest copy holds: nsid and unwrapped key of each namespace, and its serial (R630). -/
  keyStore : List (Nat × BitVec 512) := []
  keySerial : Nat := 0
  debugOpen : Bool := false
  /-- Key-wrapping key and metadata key, derived at start-up (R627). -/
  kek : BitVec 256 := 0
  mdk : BitVec 256 := 0
  deriving DecidableEq, Repr

/-- How the controller runs. -/
inductive RunState where
  /-- Supplies not valid, or internal reset (R543, R545). -/
  | inReset
  /-- POR_N holds the controller in reset after its flush (R546). -/
  | porHeld
  /-- Start-up waits at NAND discovery (R549). -/
  | pfWait
  /-- Start-up has ended; recovery is under way (R405). -/
  | recovery
  | running
  /-- The refuge flush runs (R382). -/
  | flushing
  /-- The flush has ended, or nothing was to flush: PLS idles (R376). -/
  | idle
  /-- NVM subsystem reset, step 2 (R568). -/
  | subsystemReset
  /-- SAFE (R525). -/
  | safe
  deriving DecidableEq, Repr

/-- Boot status and architecture registers (R51, R575) and straps (R550). -/
structure Boot where
  stage : Nat := 0
  prevEnd : Nat := 0
  fatal : Nat := 0
  copy : Nat := 0
  spiSlow : Bool := false
  pfWait : Bool := false
  recoveryLoss : Bool := false
  mapRebuilt : Bool := false
  nandDies : Bool := false
  identMismatch : Bool := false
  copyFallback : Bool := false
  detailHi : Nat := 0
  detailLo : Nat := 0
  preMs : Nat := 0
  ready10ms : Nat := 0
  cause : Nat := 0
  /-- Cause of the start-up that the reset under way leads to (R575): 1 POR_N, 2 and 3 NVM subsystem reset. -/
  nextCause : Nat := 0
  /-- Start-ups over the life of the drive, in MRAM (R575). -/
  starts : Nat := 0
  prevSafe : Capture := {}
  strapPort : Bool := false
  strapSb : Bool := false
  strapSpi : Bool := false
  strapTest : Bool := false
  strapsSampled : Bool := false
  /-- Configuration-space identity loaded in step 3 (R561, R562). -/
  cfgIdentity : Option Identity := none
  /-- The boot ROM, not the microcode, serves admin commands (R572). -/
  romServes : Bool := true
  /-- Straps and power: the fields of ID_CONFIG hold the image's values. -/
  configSet : Bool := false
  /-- µs of ts (R558). -/
  ts : Nat := 0
  /-- How the operation before ended, for prev_end; 0 none yet. -/
  ending : Nat := 0
  /-- A late CSTS.RDY was set during this recovery (R566). -/
  lateRdy : Bool := false
  /-- POR_N is low (R546). -/
  porLow : Bool := false
  /-- Self-test result: the failing checker's source (R605). -/
  selfTest : Option Nat := none
  deriving DecidableEq, Repr

/-- A firmware commit under way (R600). -/
structure Commit where
  port : PortId
  /-- none once a reset of the port has taken its completion away (R160). -/
  cid : Option Nat
  action : Nat
  /-- Copy written: 1 A, 2 B. -/
  target : Nat
  step : Nat
  serialAtT0 : Nat
  deriving DecidableEq, Repr

/-- Activation without reset under way (R163): its step 2 runs. -/
structure Activation where
  port : PortId
  cid : Option Nat
  copy : Nat
  since : Nat
  deriving DecidableEq, Repr

/-- A page that patrol scrub is reading (R347, R349): its super-block, stripe and member, the checkpoint segment (true) or delta-log chunk it
belongs to, and the outcomes of its codewords: codeword, step of R283 that gave it (6: none), iterations. -/
structure ScrubRead where
  id : Nat
  sb : Nat
  k  : Nat
  member : Nat
  system : Option (Bool × Nat)
  outs : List (Nat × Nat × Nat) := []
  deriving DecidableEq, Repr

/-- Flash upkeep, rebuild, DRYDOWN and scrub (09_media_upkeep.md, 08_accord_parity.md). -/
structure Upkeep where
  /-- µs since which no I/O command has been outstanding; the drive counts as idle (R337). -/
  idleSince : Nat := 0
  idle : Bool := false
  gcEarned : Nat := 0
  hostAdmitted : Nat := 0
  /-- free_blocks was below gc_urgent at the last look (R144). -/
  urgent : Bool := false
  /-- Super-blocks closed after a block failure, in order of failure, and those queued by scrub (R331). -/
  class1 : List Nat := []
  class2 : List Nat := []
  wearing : Option Nat := none
  /-- Wear levelling goes on until the spread has fallen to three quarters of wear_spread (R346). -/
  levelling : Bool := false
  /-- Patrol scrub: next super-block, pass start, rate, passes, overruns, pages read (R347, R348). -/
  scrubSb : Nat := 0
  /-- Pages read of the present super-block, and of the checkpoint segments and delta-log chunks that follow (R347). -/
  scrubAt : Nat := 0
  scrubSys : Nat := 0
  /-- Pages that are being read, and the next number of one. -/
  scrubReads : List ScrubRead := []
  scrubNext : Nat := 0
  scrubStart : Nat := 0
  scrubRate : Nat := 0
  scrubPasses : Nat := 0
  overruns : Nat := 0
  overrunCounted : Bool := false
  scrubPages : Nat := 0
  /-- Valid units that scrub or recovery queues for relocation: super-block, stripe, and member (18: the whole stripe)
  (R324, R349, R441). -/
  relocate : List (Nat × Nat × Nat) := []
  /-- Segments to write out of turn and chunks to program again (R402). -/
  segAgain : List Nat := []
  chunkAgain : List Nat := []
  lost : List LostIu := []
  lostChange : Nat := 0
  lostNext : Nat := 0
  mediaErrors : Nat := 0
  spareNew : Int := 0
  reserve : Nat := 0
  /-- Values above are fixed by the first start-up (R362, R647). -/
  spareSet : Bool := false
  drydownEntry : Bool := false
  cursorGen : Nat := 0
  cursorState : Nat := 0
  /-- Extents of the cursor: namespace, first IU and IUs (R366, R367). -/
  cursor : List (Nat × Nat × Nat) := []
  /-- The DRYDOWN entry under way repeats one from before a start-up, and keeps the generation (R367). -/
  cursorRepeat : Bool := false
  rebuilding : Bool := false
  rebuildMoved : Nat := 0
  lastLossMin : Nat := 0
  columnsRebuilt : Nat := 0
  columnsLost : Nat := 0
  /-- The notice for the first exposed-2 or broken stripe has been made (R327). -/
  exposedNoticed : Bool := false
  /-- SMART critical warning bit 2 set by R326. -/
  degraded : Bool := false
  hostUnits : Nat := 0
  mediaUnits : Nat := 0
  slcCache : Nat := 0
  /-- FDP events recorded: event code and handle (R207). -/
  fdpEvents : List (Nat × Nat) := []
  deriving DecidableEq, Repr

/-- The write path and MAP (04_write_path.md, 05_map_placement.md). -/
structure Path where
  /-- The map, by map index; an unlisted entry is trimmed (R180). -/
  map : Tbl MapEntry := []
  ovl : List OvlEntry := []
  /-- Applied number of a sub-unit while its IU has a staged version, keyed map index × 16 + sub (R191). -/
  applied : Tbl Nat := []
  /-- Map-version counters, 65,536 of them (R290). -/
  vers : Tbl Nat := []
  spaces : List Namespace := []
  nextSeq : Nat := 1
  ceiling : Nat := 0
  horizon : Nat := 0
  unsealed : List SeqRec := []
  flacons : Tbl Flacon := []
  trims : List TrimVer := []
  trimNext : Nat := 0
  fdp : Bool := false
  vwcOff : Bool := false
  /-- Host timestamp as last set, ms, and µs at which it was set; none: never (R352). -/
  timestamp : Nat := 0
  timestampAt : Option Nat := none
  jobs : List CwJob := []
  jobNext : Nat := 0
  /-- Columns that have reached step 5, for their order of arrival (R310). -/
  columnNext : Nat := 0
  copies : List Copy := []
  copyNext : Nat := 0
  bufs : List RaBuf := []
  bufNext : Nat := 0
  /-- Admitted units not yet programmed into a reclaim unit (R217). -/
  claimed : Nat := 0
  deriving DecidableEq, Repr

/-- NAND, super-blocks and parity (05, 06, 08). -/
structure Media where
  blocks : Tbl Block := []
  pages : Tbl (Option Page) := []
  sbs : List SuperBlock := []
  stripes : List Stripe := []
  dies : Tbl Die := []
  chans : Tbl Channel := []
  clusters : Tbl Cluster := []
  rlt : Tbl RltEntry := []
  selPtr : Nat := 0
  sbSerial : Nat := 0
  /-- Reconstruction buffers in use, 0 to 64 (R310). -/
  recon : Nat := 0
  deriving DecidableEq, Repr

/-- MRAM journal, refuge sets and PLS (10_power_loss.md). -/
structure Journal where
  chunks : List Chunk := []
  nextSerial : Nat := 0
  laps : Nat := 0
  /-- Records written in the present second and in the latest full second, and start of the second (MJ_RATE). -/
  rateNow : Nat := 0
  rateLast : Nat := 0
  rateFrom : Nat := 0
  /-- Bytes written in the present 100 ms and its start (R393). -/
  windowBytes : Nat := 0
  windowFrom : Nat := 0
  anchor : Anchor := {}
  segments : List Segment := []
  nextSegment : Nat := 0
  chunksSince : Nat := 0
  setA : RefugeSet := {}
  setB : RefugeSet := {}
  /-- PLS_STATUS.state: 0 UNARMED, 1 ARMED, 2 FLUSHING, 3 DONE. -/
  pls : Nat := 0
  pwrFail : Bool := false
  flushAt : Nat := 0
  flushCause : Nat := 0
  /-- POR_N asserted: reset follows the flush (R546). -/
  porAfter : Bool := false
  /-- Channels that stopped during the flush (R386). -/
  stopped : List Nat := []
  nR : Nat := 0
  cover : Nat := 0
  /-- MJ_RECOVERY bits 6:0 and last_recovery_ms. -/
  recBits : BitVec 7 := 0
  recMs : Nat := 0
  deriving DecidableEq, Repr

/-- On-chip memory counters and NVMe-MI settings (R444, R605, R90). -/
structure Misc where
  sramCorrected : Nat := 0
  sramUncorrectable : Nat := 0
  /-- SRAM remap entries: macro and word (R444). -/
  sramRemap : List (Nat × Nat) := []
  sramFull : Nat := 0
  mramCorrected : Nat := 0
  mramUncorrectable : Nat := 0
  mramRemap : List Nat := []
  /-- MRAM words that corrected once, with the ring lap of that read; SRAM words that corrected once (R444). -/
  mramOnce : Tbl Nat := []
  /-- MRAM words read as uncorrectable, with the ring lap of that read plus one (R444). -/
  mramBad : Tbl Nat := []
  sramOnce : List Nat := []
  /-- SMBus frequency and MCTP transmission unit settings (R90); after reset NVMe-MI's own, 100 kHz and 64 bytes. -/
  smbusFreq : Nat := 1
  mctpUnit : Nat := 64
  /-- Host transfer buffers (32 MiB), parity accumulators (8 MiB) and reconstruction buffers (262,400 bytes) as the movers
  address them (R454); unlisted bytes read as the self-test leaves them (R446). -/
  xferMem : List Host.Cell := []
  accumMem : List Host.Cell := []
  reconMem : List Host.Cell := []
  /-- Answer of the latest sideband command: its data, its NVMe-MI status, and for a tunnelled command its completion. -/
  miData : List Byte := []
  miStatus : Nat := 0
  miNvme : Status := .success
  miDw0 : BitVec 32 := 0
  /-- Short Device Self-test results: last result code, count (R78). -/
  selfTests : Nat := 0
  /-- Drive-wide features by identifier (R78). -/
  features : Tbl Nat := []
  /-- Power state in effect and entry or exit under way (R92, R95). -/
  drivePs : Nat := 0
  psEntering : Option Nat := none
  psExiting : Option Nat := none
  /-- Last I/O fetch, µs (R552). -/
  lastIo : Option Nat := none
  /-- Power-on time over the life of the drive before this start-up, µs. -/
  powerOnBase : Nat := 0
  deriving DecidableEq, Repr

/-- The whole state. -/
structure State where
  /-- µs since power-on on HK_OSC; the idle step advances it. -/
  now : Nat := 0
  run : RunState := .inReset
  boot : Boot := {}
  /-- SPI NOR, 16 MiB; unlisted bytes are 0xFF, the erased state (R576). -/
  spi : List Host.Cell := []
  /-- Validated image of the copy in use (R590). -/
  image : Image := {}
  /-- Copy in use: 0 none, 1 A, 2 B; an activation without reset changes it (R163, R598). ID_BOOT.copy holds its value from
  start-up (R575). -/
  copyInUse : Nat := 0
  ucodeVersion : Nat := 0
  /-- Firmware download buffer, 4 MiB, and granules of 4 KiB present (R597). -/
  dlBuf : List Host.Cell := []
  dlGranules : List Nat := []
  commit : Option Commit := none
  activation : Option Activation := none
  portA : Port := {}
  portB : Port := {}
  own : Own := {}
  /-- Media mode: 0 NORMAL, 1 PRESERVE, 2 DRYDOWN (R51). -/
  mediaMode : Nat := 0
  path : Path := {}
  media : Media := {}
  upkeep : Upkeep := {}
  journal : Journal := {}
  movers : Tbl Mover := []
  moverBlocks : Tbl MoverBlock := []
  dcs : Tbl Dc := []
  hk : Hk := {}
  fh : Fh := {}
  sec : Sec := {}
  misc : Misc := {}
  /-- The model's own counter of free values drawn (log entry 2); not the spec's. -/
  freeCtr : Nat := 0
  /-- Commands that wait, first in, first out (the model's interface). -/
  pending : List Instr := []
  deriving DecidableEq, Repr

/-- The machine right after reset: supplies not yet valid, every register at its reset value, the OTP row blank, the SPI
NOR erased, nothing in the queue. Values the spec does not state are named in log entry 1. -/
def State.reset : State := {}

/-- Reasons a step faults: the spec gives every command of the table an effect, so no meaning of this model faults. The
one constructor stands for an address outside the SPI NOR's 16 MiB (R576), which no path reaches; raising it would be
safe. -/
inductive Fault where
  | spiAddress (addr : Nat)
  deriving DecidableEq, Repr

/-- Reasons a step is refused. -/
inductive Refusal where
  /-- The command has no meaning in this model yet. Raised by an arm of exec that is not written; safe. -/
  | notModelled (mnemonic : String)
  deriving DecidableEq, Repr

end Sys2Proof.Machine
end

