-- ==== Sys2Proof/Machine/Bits.lean ====
section
/-! DEFINITION. Canonical tables, byte orders, saturating counters and small list helpers used by every meaning. -/
namespace Sys2Proof.Machine

/-! ### Canonical tables -/

/-- The value under a key; an unlisted key has the default `d`. -/
def tget {α : Type} (d : α) : Tbl α → Nat → α
  | [], _ => d
  | (k', v) :: r, k => if k' = k then v else tget d r k

/-- Insert, replace or (for the default) remove, keeping the keys rising. -/
def tput {α : Type} [DecidableEq α] (d : α) : Tbl α → Nat → α → Tbl α
  | [], k, v => if v = d then [] else [(k, v)]
  | (k', v') :: r, k, v =>
    if k' = k then (if v = d then r else (k, v) :: r)
    else if k < k' then (if v = d then (k', v') :: r else (k, v) :: (k', v') :: r)
    else (k', v') :: tput d r k v

/-- Apply a function to the value under a key. -/
def tmod {α : Type} [DecidableEq α] (d : α) (t : Tbl α) (k : Nat) (f : α → α) : Tbl α :=
  tput d t k (f (tget d t k))

/-- Apply a function to every listed value; a value that becomes the default leaves the table. -/
def tvals {α : Type} [DecidableEq α] (d : α) : Tbl α → (α → α) → Tbl α
  | [], _ => []
  | (k, v) :: r, f => if f v = d then tvals d r f else (k, f v) :: tvals d r f

/-- Every key of the table is above `lo`, keys rise strictly, and no value is the default. -/
def twfAbove {α : Type} [DecidableEq α] (d : α) : Nat → Tbl α → Bool
  | _, [] => true
  | lo, (k, v) :: r => decide (lo < k) && decide (v ≠ d) && twfAbove d k r

/-- The canonical form of a table: keys strictly rising and no entry equal to the default. -/
def twf {α : Type} [DecidableEq α] (d : α) : Tbl α → Bool
  | [] => true
  | (k, v) :: r => decide (v ≠ d) && twfAbove d k r

/-- Memory.wf of a byte memory whose unlisted bytes read as `d`. -/
def memWf (d : Byte) (m : List Host.Cell) : Bool := twf d m

/-- Read one byte of a byte memory. -/
def memGet (d : Byte) (m : List Host.Cell) (a : Nat) : Byte := tget d m a

/-- Write one byte of a byte memory. -/
def memPut (d : Byte) (m : List Host.Cell) (a : Nat) (v : Byte) : List Host.Cell := tput d m a v

/-- Write consecutive bytes. -/
def memWrite (d : Byte) (m : List Host.Cell) (a : Nat) : List Byte → List Host.Cell
  | [] => m
  | b :: bs => memWrite d (memPut d m a b) (a + 1) bs

/-- Read `n` consecutive bytes. -/
def memRead (d : Byte) (m : List Host.Cell) (a n : Nat) : List Byte :=
  (List.range n).map fun i => memGet d m (a + i)

/-- The entries of a byte memory outside a range, so that the range reads as `d`: an erase (R600). -/
def memErase (m : List Host.Cell) (a n : Nat) : List Host.Cell :=
  m.filter fun c => decide (c.1 < a) || decide (a + n ≤ c.1)

/-! ### Byte orders -/

/-- `n` bytes of a number, least significant first (R11). -/
def leBytes : Nat → Nat → List Byte
  | 0, _ => []
  | n + 1, x => BitVec.ofNat 8 x :: leBytes n (x / 256)

/-- The number whose bytes, least significant first, are given (R11). -/
def leNat : List Byte → Nat
  | [] => 0
  | b :: bs => b.toNat + 256 * leNat bs

/-- The number whose bytes, most significant first, are given (byte strings of FIPS 186-5, R581). -/
def beNat (bs : List Byte) : Nat := leNat bs.reverse

/-- `n` bytes of a number, most significant first. -/
def beBytes (n x : Nat) : List Byte := (leBytes n x).reverse

/-- A signed value of `n` bytes, two's complement, least significant byte first. -/
def leInt (n : Nat) (x : Int) : List Byte := leBytes n ((x % (256 ^ n : Nat)).toNat)

/-- The signed value of one byte. -/
def byteInt (b : Byte) : Int := b.toInt

/-- Bit field [hi:lo] of a number. -/
def field (x hi lo : Nat) : Nat := (x / 2 ^ lo) % 2 ^ (hi + 1 - lo)

/-- 1 for true. -/
def b2n (b : Bool) : Nat := if b then 1 else 0

/-! ### Counters and arithmetic -/

/-- Add to a counter that saturates at `top` (R97, R129 and others). -/
def satAdd (top x n : Nat) : Nat := min top (x + n)

/-- Division rounded up. -/
def ceilDiv (a b : Nat) : Nat := if b = 0 then 0 else (a + b - 1) / b

/-- Integer division that truncates towards zero (R275). -/
def truncDiv (a b : Int) : Int := Int.tdiv a b

/-- Saturation to a signed 16-bit value (R276). -/
def sat16 (x : Int) : Int := max (-32768) (min 32767 x)

/-- Limit a value to a range. -/
def clampInt (lo hi x : Int) : Int := max lo (min hi x)

/-- The element at a place of a list, or the default. -/
def nth {α : Type} (d : α) (l : List α) (i : Nat) : α := l.getD i d

/-- Replace the element at a place. -/
def setNth {α : Type} (l : List α) (i : Nat) (f : α → α) : List α := l.modify i f

/-- Insert without repeats. -/
def addOnce (x : Nat) (l : List Nat) : List Nat := if x ∈ l then l else l ++ [x]

/-- Insert into a rising list without repeats (R619: lower page first). -/
def addRising (x : Nat) : List Nat → List Nat
  | [] => [x]
  | y :: r => if x = y then y :: r else if x < y then x :: y :: r else y :: addRising x r

/-- Set one bit of a bit vector. -/
def setBit {w : Nat} (b : BitVec w) (i : Nat) : BitVec w := b ||| BitVec.twoPow w i

/-- The first element of a list with the least key. -/
def minBy {α : Type} (key : α → Nat) : List α → Option α
  | [] => none
  | x :: r =>
    match minBy key r with
    | none => some x
    | some y => if key x ≤ key y then some x else some y

/-- Sum over a list. -/
def sumOf {α : Type} (f : α → Nat) (l : List α) : Nat := l.foldl (fun a x => a + f x) 0

/-- The number of bits needed for the highest of `n` addresses, 0 for n = 1 (R591). -/
def addrBits (n : Nat) : Nat := Nat.size (n - 1)

end Sys2Proof.Machine
end

