-- ==== Sys2Proof/Machine/Crypto.lean ====
section
/-! DEFINITION. The algorithms the spec names by their standards: CRC-32C, AES-256 and its XTS and CMAC modes
(R24, R233, R629), the SP 800-108 derivation (R627), SHA-256 (R110), SHA-384 and ECDSA on P-384 (R581, R589, R638).
The spec names these standards and does not repeat their text: PRESUMED, log entry 3. -/
namespace Sys2Proof.Machine

/-! ### CRC-32C -/

/-- One bit step of the reflected CRC-32C register. -/
def crcBit (c : BitVec 32) : BitVec 32 :=
  if c.getLsbD 0 then (c >>> 1) ^^^ 0x82F63B78#32 else c >>> 1

/-- One byte step. -/
def crcByte (c : BitVec 32) (b : Byte) : BitVec 32 :=
  let x := c ^^^ b.setWidth 32
  crcBit (crcBit (crcBit (crcBit (crcBit (crcBit (crcBit (crcBit x)))))))

/-- CRC-32C over bytes. -/
def crc32c (bs : List Byte) : BitVec 32 := ~~~ (bs.foldl crcByte 0xFFFFFFFF#32)

/-! ### AES-256 -/

/-- Multiply by x in the AES field. -/
def aesX2 (b : Byte) : Byte := if b.msb then (b <<< 1) ^^^ 0x1B#8 else b <<< 1

/-- Multiplication in the AES field, from the bits of the second factor upwards. -/
def aesMulFrom : Nat → Byte → Byte → Byte
  | 0, _, _ => 0
  | n + 1, a, b => (if b.getLsbD 0 then a else 0) ^^^ aesMulFrom n (aesX2 a) (b >>> 1)

def aesMul (a b : Byte) : Byte := aesMulFrom 8 a b

/-- Inverse in the AES field, a^254. -/
def aesInv (a : Byte) : Byte :=
  let a2 := aesMul a a
  let a3 := aesMul a2 a
  let a6 := aesMul a3 a3
  let a12 := aesMul a6 a6
  let a15 := aesMul a12 a3
  let a30 := aesMul a15 a15
  let a60 := aesMul a30 a30
  let a120 := aesMul a60 a60
  let a126 := aesMul a120 a6
  let a127 := aesMul a126 a
  aesMul a127 a127

/-- The S-box and its inverse. -/
def aesSub (a : Byte) : Byte :=
  let b := aesInv a
  b ^^^ b.rotateLeft 1 ^^^ b.rotateLeft 2 ^^^ b.rotateLeft 3 ^^^ b.rotateLeft 4 ^^^ 0x63#8

def aesUnsub (a : Byte) : Byte :=
  let b := a.rotateLeft 1 ^^^ a.rotateLeft 3 ^^^ a.rotateLeft 6 ^^^ 0x05#8
  aesInv b

def xorBytes (a b : List Byte) : List Byte := List.zipWith (· ^^^ ·) a b

/-- Words of the expanded key, newest first; `i` counts the words made. -/
def aesExpandFrom : Nat → Nat → Byte → List (List Byte) → List (List Byte)
  | 0, _, _, ws => ws
  | n + 1, i, rcon, ws =>
    let last := nth [] ws 0
    let old := nth [] ws 7
    if i % 8 = 0 then
      let r := (last.drop 1 ++ last.take 1).map aesSub
      let t := xorBytes r [rcon, 0, 0, 0]
      aesExpandFrom n (i + 1) (aesX2 rcon) (xorBytes old t :: ws)
    else if i % 8 = 4 then aesExpandFrom n (i + 1) rcon (xorBytes old (last.map aesSub) :: ws)
    else aesExpandFrom n (i + 1) rcon (xorBytes old last :: ws)

/-- The 15 round keys of a 32-byte key. -/
def aesKeys (key : List Byte) : List (List Byte) :=
  let w0 := ((List.range 8).map fun i => (key.drop (4 * i)).take 4).reverse
  let ws := (aesExpandFrom 52 8 1 w0).reverse
  (List.range 15).map fun r => ((ws.drop (4 * r)).take 4).flatten

def aesShiftRows (s : List Byte) : List Byte :=
  (List.range 16).map fun i => nth 0 s ((i + 4 * (i % 4)) % 16)

def aesUnshiftRows (s : List Byte) : List Byte :=
  (List.range 16).map fun i => nth 0 s ((i + 16 - 4 * (i % 4)) % 16)

/-- Mix one column with the coefficients of its first row. -/
def aesMixWith (c : List Byte) (s : List Byte) : List Byte :=
  (List.range 16).map fun i =>
    let col := i / 4 * 4
    let row := i % 4
    (List.range 4).foldl (fun acc j => acc ^^^ aesMul (nth 0 c ((j + 4 - row) % 4)) (nth 0 s (col + j))) 0

def aesRounds : List (List Byte) → List Byte → List Byte
  | [], s => s
  | [k], s => xorBytes (aesShiftRows (s.map aesSub)) k
  | k :: ks, s => aesRounds ks (xorBytes (aesMixWith [2, 3, 1, 1] (aesShiftRows (s.map aesSub))) k)

/-- AES-256 encryption of 16 bytes under round keys. -/
def aesEnc (ks : List (List Byte)) (b : List Byte) : List Byte :=
  match ks with
  | [] => b
  | k :: r => aesRounds r (xorBytes b k)

def aesUnrounds : List (List Byte) → List Byte → List Byte
  | [], s => s
  | [k], s => xorBytes ((aesUnshiftRows s).map aesUnsub) k
  | k :: ks, s => aesUnrounds ks (aesMixWith [14, 11, 13, 9] (xorBytes ((aesUnshiftRows s).map aesUnsub) k))

/-- AES-256 decryption of 16 bytes. -/
def aesDec (ks : List (List Byte)) (b : List Byte) : List Byte :=
  match ks.reverse with
  | [] => b
  | k :: r => aesUnrounds r (xorBytes b k)

/-! ### CMAC and key derivation -/

/-- Doubling of a CMAC subkey, bytes most significant first. -/
def cmacDouble (b : List Byte) : List Byte :=
  let x := beNat b
  beBytes 16 (if x < 2 ^ 127 then 2 * x else (2 * x % 2 ^ 128) ^^^ 0x87)

def cmacBlocks (ks : List (List Byte)) (k1 k2 : List Byte) : Nat → List Byte → List Byte → List Byte
  | 0, acc, _ => acc
  | n + 1, acc, m =>
    if m.length > 16 then cmacBlocks ks k1 k2 n (aesEnc ks (xorBytes acc (m.take 16))) (m.drop 16)
    else if m.length = 16 then aesEnc ks (xorBytes acc (xorBytes m k1))
    else aesEnc ks (xorBytes acc (xorBytes ((m ++ [0x80#8] ++ List.replicate 16 0).take 16) k2))

/-- AES-256-CMAC of a message (R233). -/
def cmac (key m : List Byte) : List Byte :=
  let ks := aesKeys key
  let k1 := cmacDouble (aesEnc ks (List.replicate 16 0))
  cmacBlocks ks k1 (cmacDouble k1) (m.length / 16 + 1) (List.replicate 16 0) m

/-! ### AES key wrap -/

/-- One pass of SP 800-38F KW over the 64-bit blocks of a key; `t` counts the steps. -/
def wrapPass (ks : List (List Byte)) : List (List Byte) → List Byte → Nat → List Byte × List (List Byte)
  | [], a, _ => (a, [])
  | r :: rs, a, t =>
    let b := aesEnc ks (a ++ r)
    let x := wrapPass ks rs (xorBytes (b.take 8) (leBytes 8 (t + 1)).reverse) (t + 1)
    (x.1, b.drop 8 :: x.2)

/-- SP 800-38F KW of a 64-byte key: 72 bytes (R627, R630). -/
def keyWrap (kek key : List Byte) : List Byte :=
  let ks := aesKeys kek
  let x := (List.range 6).foldl (fun (x : List Byte × List (List Byte)) j => wrapPass ks x.2 x.1 (8 * j))
    (List.replicate 8 0xA6#8, (List.range 8).map fun i => (key.drop (8 * i)).take 8)
  x.1 ++ x.2.flatten

/-- KDF(label) of R627: SP 800-108 counter mode with AES-256-CMAC, 256 bits. -/
def deriveKey (root label ctx : List Byte) : BitVec 256 :=
  let one (i : Nat) := cmac root (beBytes 4 i ++ label ++ [0] ++ ctx ++ beBytes 4 256)
  BitVec.ofNat 256 (leNat (one 1 ++ one 2))

/-! ### XTS -/

/-- The 16-byte blocks of a sub-unit, through the tweak sequence of IEEE 1619. -/
def xtsBlocks (f : List Byte → List Byte) : Nat → BitVec 128 → List Byte → List Byte
  | 0, _, _ => []
  | n + 1, t, m =>
    let tb := leBytes 16 t.toNat
    let t' := if t.msb then (t <<< 1) ^^^ 0x87#128 else t <<< 1
    xorBytes (f (xorBytes (m.take 16) tb)) tb ++ xtsBlocks f n t' (m.drop 16)

/-- AES-256-XTS over one 4 KiB sub-unit, with the tweak number of R629. -/
def xtsRun (dec : Bool) (key : BitVec 512) (tweak : Nat) (b : Blk) : Blk :=
  let kb := leBytes 64 key.toNat
  let k1 := aesKeys (kb.take 32)
  let t := BitVec.ofNat 128 (leNat (aesEnc (aesKeys (kb.drop 32)) (leBytes 16 tweak)))
  BitVec.ofNat 32768 (leNat (xtsBlocks (if dec then aesDec k1 else aesEnc k1) 256 t (leBytes 4096 b.toNat)))

/-- Encrypt a sub-unit on its way from the transfer buffers to DRAM (R24). -/
def secEncrypt (key : BitVec 512) (tweak : Nat) (b : Blk) : Blk := xtsRun false key tweak b

/-- Decrypt a sub-unit on its way into the transfer buffers (R24). -/
def secDecrypt (key : BitVec 512) (tweak : Nat) (b : Blk) : Blk := xtsRun true key tweak b

/-! ### SHA-2 -/

/-- The first eighty primes, from which SHA-2 takes its constants. -/
def shaPrimes : List Nat :=
  [2, 3, 5, 7, 11, 13, 17, 19, 23, 29, 31, 37, 41, 43, 47, 53, 59, 61, 67, 71] ++
  [73, 79, 83, 89, 97, 101, 103, 107, 109, 113, 127, 131, 137, 139, 149, 151, 157, 163, 167, 173] ++
  [179, 181, 191, 193, 197, 199, 211, 223, 227, 229, 233, 239, 241, 251, 257, 263, 269, 271, 277, 281] ++
  [283, 293, 307, 311, 313, 317, 331, 337, 347, 349, 353, 359, 367, 373, 379, 383, 389, 397, 401, 409]

/-- Integer cube root, bit by bit from `bit` downwards. -/
def cbrtFrom : Nat → Nat → Nat → Nat
  | 0, acc, _ => acc
  | n + 1, acc, x =>
    let c := acc + 2 ^ n
    cbrtFrom n (if c * c * c ≤ x then c else acc) x

/-- Fractional bits of a cube root and of a square root. -/
def fracCbrt (w p : Nat) : Nat := cbrtFrom (w + 4) 0 (p * 2 ^ (3 * w)) % 2 ^ w
def fracSqrt (w p : Nat) : Nat := Nat.sqrt (p * 2 ^ (2 * w)) % 2 ^ w

/-- The parameters of one SHA-2 function: word width, rounds and rotation counts. -/
structure ShaPar where
  w : Nat
  rounds : Nat
  s0 : Nat × Nat × Nat
  s1 : Nat × Nat × Nat
  e0 : Nat × Nat × Nat
  e1 : Nat × Nat × Nat

def sha256Par : ShaPar := ⟨32, 64, (7, 18, 3), (17, 19, 10), (2, 13, 22), (6, 11, 25)⟩
def sha512Par : ShaPar := ⟨64, 80, (1, 8, 7), (19, 61, 6), (28, 34, 39), (14, 18, 41)⟩

def rotr (w n x : Nat) : Nat := x / 2 ^ n + (x % 2 ^ n) * 2 ^ (w - n)

def shaSmall (w : Nat) (r : Nat × Nat × Nat) (x : Nat) : Nat :=
  rotr w r.1 x ^^^ rotr w r.2.1 x ^^^ (x / 2 ^ r.2.2)

def shaBig (w : Nat) (r : Nat × Nat × Nat) (x : Nat) : Nat :=
  rotr w r.1 x ^^^ rotr w r.2.1 x ^^^ rotr w r.2.2 x

/-- Extend the message schedule; newest word first. -/
def shaSchedule (q : ShaPar) : Nat → List Nat → List Nat
  | 0, ws => ws
  | n + 1, ws =>
    let x := (shaSmall q.w q.s1 (nth 0 ws 1) + nth 0 ws 6 + shaSmall q.w q.s0 (nth 0 ws 14) + nth 0 ws 15) % 2 ^ q.w
    shaSchedule q n (x :: ws)

/-- One round. -/
def shaRound (q : ShaPar) (h : List Nat) (kw : Nat × Nat) : List Nat :=
  let m := 2 ^ q.w
  let v (i : Nat) := nth 0 h i
  let ch := (v 4 &&& v 5) ^^^ ((m - 1 - v 4) &&& v 6)
  let maj := (v 0 &&& v 1) ^^^ (v 0 &&& v 2) ^^^ (v 1 &&& v 2)
  let t1 := v 7 + shaBig q.w q.e1 (v 4) + ch + kw.1 + kw.2
  let t2 := shaBig q.w q.e0 (v 0) + maj
  [(t1 + t2) % m, v 0, v 1, v 2, (v 3 + t1) % m, v 4, v 5, v 6]

/-- Compress one block. -/
def shaBlock (q : ShaPar) (ks : List Nat) (h : List Nat) (blk : List Byte) : List Nat :=
  let nb := q.w / 8
  let w0 := ((List.range 16).map fun i => beNat ((blk.drop (nb * i)).take nb)).reverse
  let ws := (shaSchedule q (q.rounds - 16) w0).reverse
  let r := (List.zip ks ws).foldl (shaRound q) h
  List.zipWith (fun a b => (a + b) % 2 ^ q.w) h r

def shaBlocks (q : ShaPar) (ks : List Nat) : Nat → List Nat → List Byte → List Nat
  | 0, h, _ => h
  | n + 1, h, m => shaBlocks q ks n (shaBlock q ks h (m.take (2 * q.w))) (m.drop (2 * q.w))

/-- A SHA-2 function: parameters, initial value and message. -/
def sha2 (q : ShaPar) (iv : List Nat) (m : List Byte) : List Byte :=
  let blk := 2 * q.w
  let pad0 := m ++ [0x80#8]
  let len := q.w / 4
  let z := (blk - (pad0.length + len) % blk) % blk
  let full := pad0 ++ List.replicate z 0 ++ beBytes len (8 * m.length)
  let ks := (shaPrimes.take q.rounds).map (fracCbrt q.w)
  (shaBlocks q ks (full.length / blk) iv full).flatMap (beBytes (q.w / 8))

/-- SHA-256 (R110). -/
def sha256 (m : List Byte) : List Byte := sha2 sha256Par ((shaPrimes.take 8).map (fracSqrt 32)) m

/-- SHA-384 (R579, R581, R582). -/
def sha384 (m : List Byte) : List Byte :=
  (sha2 sha512Par (((shaPrimes.drop 8).take 8).map (fracSqrt 64)) m).take 48

/-! ### ECDSA on P-384 -/

def p384P : Nat := 2 ^ 384 - 2 ^ 128 - 2 ^ 96 + 2 ^ 32 - 1
def p384N : Nat := 0xffffffffffffffffffffffffffffffffffffffffffffffffc7634d81f4372ddf581a0db248b0a77aecec196accc52973
def p384B : Nat := 0xb3312fa7e23ee7e4988e056be3f82d19181d9c6efe8141120314088f5013875ac656398d8a2ed19d2a85c8edd3ec2aef
def p384Gx : Nat := 0xaa87ca22be8b05378eb1c71ef320ad746e1d3b628ba79b9859f741e082542a385502f25dbf55296c3a545e3872760ab7
def p384Gy : Nat := 0x3617de4a96262c6f5d9e98bf9292dc29f8f41dbd289a147ce9da3113b5f0b8c00a60b1ce1d7e819d7a431d7c90ea0e5f

/-- Modular power by the bits of the exponent, `n` of them. -/
def powMod (m : Nat) : Nat → Nat → Nat → Nat
  | 0, _, _ => 1 % m
  | n + 1, b, e =>
    let r := powMod m n (b * b % m) (e / 2)
    if e % 2 = 1 then r * b % m else r

/-- Inverse modulo a prime. -/
def invMod (m a : Nat) : Nat := powMod m 400 (a % m) (m - 2)

/-- Addition of affine points of the curve; none is the point at infinity. -/
def ecAdd (a b : Option (Nat × Nat)) : Option (Nat × Nat) :=
  match a, b with
  | none, q => q
  | p, none => p
  | some (x1, y1), some (x2, y2) =>
    let p := p384P
    if x1 = x2 ∧ (y1 + y2) % p = 0 then none
    else
      let l := if x1 = x2 then (3 * (x1 * x1) + (p - 3)) * invMod p (2 * y1) % p
               else (y2 + p - y1) * invMod p (x2 + p - x1) % p
      let x3 := (l * l + 2 * p - x1 - x2) % p
      some (x3, (l * (x1 + p - x3) + p - y1) % p)

/-- Scalar multiplication by the bits of the scalar. -/
def ecMul : Nat → Nat → Option (Nat × Nat) → Option (Nat × Nat)
  | 0, _, _ => none
  | n + 1, k, q =>
    let r := ecMul n (k / 2) (ecAdd q q)
    if k % 2 = 1 then ecAdd r q else r

/-- ECDSA P-384 verification with SHA-384: key is x then y, signature r then s, 48 bytes each (R581). -/
def ecdsaOk (key msg sig : List Byte) : Bool :=
  let x := beNat (key.take 48)
  let y := beNat ((key.drop 48).take 48)
  let r := beNat (sig.take 48)
  let t := beNat ((sig.drop 48).take 48)
  let onCurve := decide (x < p384P) && decide (y < p384P) &&
    decide (y * y % p384P = (x * x * x + (p384P - 3) * x + p384B) % p384P)
  let inRange := decide (0 < r) && decide (r < p384N) && decide (0 < t) && decide (t < p384N)
  if onCurve && inRange then
    let w := invMod p384N t
    let e := beNat (sha384 msg)
    match ecAdd (ecMul 384 (e * w % p384N) (some (p384Gx, p384Gy))) (ecMul 384 (r * w % p384N) (some (x, y))) with
    | none => false
    | some (vx, _) => decide (vx % p384N = r)
  else false

end Sys2Proof.Machine
end

