-- ==== Sys2Proof/Machine/Codes.lean ====
section
/-! DEFINITION. The codes on the media: arithmetic in GF(2^8) and Accord parity (R301 to R306), the LDPC code
(R265 to R270), the scrambler (R227), the erased report (R228) and the sillage record (R230 to R233). -/
namespace Sys2Proof.Machine

/-! ### GF(2^8) and Accord parity -/

/-- The byte 0x01 repeated over `w` bits. -/
def everyByte (w : Nat) : BitVec w := BitVec.ofNat w ((2 ^ w - 1) / 255)

/-- Multiply every byte of a vector by the generator 0x02 of the field 0x11D (R303). -/
def gTwice {w : Nat} (v : BitVec w) : BitVec w :=
  let top := (v >>> 7) &&& everyByte w
  ((v ^^^ (top <<< 7)) <<< 1) ^^^ (top * 29)

/-- Multiply every byte of a vector by a field element, from the element's bits of place `i` upwards. -/
def gScaleFrom {w : Nat} (c : Byte) : Nat → Nat → BitVec w → BitVec w
  | 0, _, _ => 0
  | n + 1, i, v => (if c.getLsbD i then v else 0) ^^^ gScaleFrom c n (i + 1) (gTwice v)

/-- gmul of one element with every byte of a vector (R303). -/
def gScale {w : Nat} (c : Byte) (v : BitVec w) : BitVec w := gScaleFrom c 8 0 v

/-- gmul (R303). -/
def gMul (a b : Byte) : Byte := gScale a b

/-- gpow(j) = g^j (R303). -/
def gPow : Nat → Byte
  | 0 => 1
  | n + 1 => gTwice (gPow n)

/-- a^n in the field. -/
def gPower (a : Byte) : Nat → Byte
  | 0 => 1
  | n + 1 => gMul a (gPower a n)

/-- The inverse of a nonzero element: a^254. -/
def gInv (a : Byte) : Byte := gPower a 254

/-- XOR of a list. -/
def xorAll {w : Nat} (l : List (BitVec w)) : BitVec w := l.foldl (· ^^^ ·) 0

/-- P over data members given as (index, value) (R303). -/
def parityP {w : Nat} (ds : List (Nat × BitVec w)) : BitVec w := xorAll (ds.map (·.2))

/-- Q over data members given as (index, value) (R303). -/
def parityQ {w : Nat} (ds : List (Nat × BitVec w)) : BitVec w := xorAll (ds.map fun d => gScale (gPow d.1) d.2)

/-- Reconstruction of one column by R306: the missing data members with their values, from the available data members
and the available parity. none where three or more members of the column are unavailable. -/
def reconstruct {w : Nat} (ds : List (Nat × BitVec w)) (p q : Option (BitVec w)) (missing : List Nat) :
    Option (List (Nat × BitVec w)) :=
  match missing, p, q with
  | [], _, _ => some []
  | [x], some p, _ => some [(x, p ^^^ parityP ds)]
  | [x], none, some q => some [(x, gScale (gInv (gPow x)) (q ^^^ parityQ ds))]
  | [x, y], some p, some q =>
    let pxy := p ^^^ parityP ds
    let qxy := q ^^^ parityQ ds
    let dx := gScale (gInv (gPow x ^^^ gPow y)) (qxy ^^^ gScale (gPow y) pxy)
    some [(x, dx), (y, pxy ^^^ dx)]
  | _, _, _ => none

/-! ### LDPC -/

/-- Upper (h = 0) or lower (h = 1) shift of base entry (i, j) (R266). -/
def ldpcShift (c : LdpcCode) (i j h : Nat) : Nat :=
  let e := nth (0xFFFF, 0xFFFF) c.entries (i * c.cols + j)
  if h = 0 then e.1 else e.2

/-- The nonzero blocks of block row r, as (block column, shift) (R267). -/
def ldpcRow (c : LdpcCode) (r : Nat) : List (Nat × Nat) :=
  (List.range c.cols).filterMap fun j =>
    let s := ldpcShift c (r / 2) j (r % 2)
    if s = 0xFFFF then none else some (j, s)

/-- Number of shortened block columns (R268). -/
def ldpcShort (c : LdpcCode) : Nat := c.cols - 144

/-- The 256-bit segment of block column j of a codeword; shortened columns are 0 (R268). -/
def ldpcSeg (c : LdpcCode) (v : CwBits) (j : Nat) : BitVec 256 :=
  if j < ldpcShort c then 0 else (v >>> (256 * (j - ldpcShort c))).setWidth 256

/-- circulant(s) · v: bit x of the product is bit (x + s) mod 256 of v (R267). -/
def circulant (s : Nat) (v : BitVec 256) : BitVec 256 := v.rotateRight s

/-- The sum of a block row over given blocks. -/
def ldpcSum (c : LdpcCode) (v : CwBits) (bs : List (Nat × Nat)) : BitVec 256 :=
  xorAll (bs.map fun b => circulant b.2 (ldpcSeg c v b.1))

/-- Every check of the expanded matrix is satisfied (R262, R267). -/
def ldpcCheck (c : LdpcCode) (v : CwBits) : Bool :=
  (List.range c.halfRows).all fun r => decide (ldpcSum c v (ldpcRow c r) = 0)

/-- The encoder of R269, block row by block row; the parity bits of `v` from block row r on are 0. -/
def ldpcEncodeFrom (c : LdpcCode) : Nat → Nat → CwBits → CwBits
  | 0, _, v => v
  | n + 1, r, v =>
    let bs := (ldpcRow c r).filter fun b => decide (b.1 < c.cols - 15 + r)
    let p := ldpcSum c v bs
    ldpcEncodeFrom c n (r + 1) (v ||| (p.setWidth 36864 <<< (256 * (129 + r))))

/-- Encode 4,128 information bytes into a codeword (R225, R226, R269). -/
def ldpcEncode (c : LdpcCode) (info : BitVec 33024) : CwBits := ldpcEncodeFrom c 15 0 (info.setWidth 36864)

/-! ### Scrambler -/

/-- The PRBS of x^23 + x^18 + 1: `n` bits, bit 0 first, from the 23-bit register `r`. The bit leaving at the top is the
output, and the sum of the two taps enters at the bottom. The spec names the polynomial and the seed and not the
register's form: DESIGN CHOICE, log entry 5. -/
def prbsFrom : Nat → Nat → Nat → Nat → Nat
  | 0, _, _, acc => acc
  | n + 1, i, r, acc =>
    let out := r / 4194304 % 2
    let fb := (out + r / 131072) % 2
    prbsFrom n (i + 1) (r * 2 % 8388608 + fb) (acc + out * 2 ^ i)

/-- The seed of one codeword's sequence: CRC-32C over die index, block, position and codeword number (R227). -/
def scrambleSeed (die block q c : Nat) : Nat :=
  let seed := (crc32c (leBytes 2 die ++ leBytes 4 block ++ leBytes 2 q ++ leBytes 1 c)).toNat % 8388608
  if seed = 0 then 1 else seed

/-- The sequence for one codeword (R227). -/
def scrambleSeq (die block q c : Nat) : CwBits := BitVec.ofNat 36864 (prbsFrom 36864 0 (scrambleSeed die block q c) 0)

/-- `n` bytes beyond the last codeword of a page: the sequence of codeword 3, continued (R224). -/
def scrambleRest (die block q n : Nat) : List Byte :=
  leBytes n (prbsFrom (36864 + 8 * n) 0 (scrambleSeed die block q 3) 0 / 2 ^ 36864)

/-- Scramble or descramble a codeword (R227). -/
def scramble (die block q c : Nat) (v : CwBits) : CwBits := v ^^^ scrambleSeq die block q c

/-- Number of bits set in a number of at most `n` bits. -/
def popFrom : Nat → Nat → Nat → Nat
  | 0, _, acc => acc
  | n + 1, x, acc => popFrom n (x / 2) (acc + x % 2)

/-- Number of ones of a codeword. -/
def onesCount (v : CwBits) : Nat := popFrom 36864 v.toNat 0

/-- A sensed codeword with fewer than 64 zero bits is reported as erased (R228). -/
def isErasedCw (v : CwBits) : Bool := decide (36864 - onesCount v < 64)

/-- A codeword of an erased page. -/
def erasedCw : CwBits := BitVec.allOnes 36864

/-! ### Sillage -/

/-- A sillage entry of 16 bytes (R231). -/
def packEntry (seq iu sub kind nsid ruh : Nat) : BitVec 128 :=
  BitVec.ofNat 128 (seq % 2 ^ 64 + iu % 2 ^ 40 * 2 ^ 64 + sub % 16 * 2 ^ 104 + kind % 16 * 2 ^ 108 + nsid % 256 * 2 ^ 112
    + ruh % 256 * 2 ^ 120)

def entrySeq (e : BitVec 128) : Nat := field e.toNat 63 0
def entryIu (e : BitVec 128) : Nat := field e.toNat 103 64
def entrySub (e : BitVec 128) : Nat := field e.toNat 107 104
def entryKind (e : BitVec 128) : Nat := field e.toNat 111 108
def entryNsid (e : BitVec 128) : Nat := field e.toNat 119 112
def entryRuh (e : BitVec 128) : Nat := field e.toNat 127 120

/-- The identity word of a data codeword: CRC-32C over bytes 8 to 14 of its entry (R302). -/
def identityWord (e : BitVec 128) : BitVec 32 := crc32c (leBytes 7 (e.toNat / 2 ^ 64))

/-- The entry of a filler codeword (R297). -/
def fillerEntry : BitVec 128 := packEntry 0 0 0 2 0 0xFF

/-- The entry of codeword c of a parity page, with the identity parity in bytes 8 to 11 (R304). -/
def parityEntry (idp : BitVec 32) : BitVec 128 := packEntry 0 idp.toNat 0 3 0 0xFF

/-- The page-wide fields of a sillage record (R230). -/
structure PageMark where
  kind     : Nat
  member   : Nat := 0xFF
  mode     : Nat
  sb       : Nat := 0xFFFFFF
  progTemp : Int := 0
  sbSerial : Nat := 0
  stripe   : Nat := 0xFFFFFF
  die      : Nat
  position : Nat
  epoch    : Nat := 0
  progMin  : Nat := 0
  deriving DecidableEq, Repr

/-- The 128 record bytes with the tag and crc fields given (R230). -/
def recordBytes (m : PageMark) (es : List (BitVec 128)) (tag : List Byte) (crc : List Byte) : List Byte :=
  let e := fun i => leBytes 16 (nth 0 es i).toNat
  e 0 ++ [1#8, BitVec.ofNat 8 m.kind, BitVec.ofNat 8 m.member, BitVec.ofNat 8 m.mode] ++ leBytes 3 m.sb
    ++ leInt 1 m.progTemp ++ leBytes 4 m.sbSerial ++ leBytes 3 m.stripe ++ [0]
    ++ e 1 ++ leBytes 2 m.die ++ leBytes 2 m.position ++ leBytes 4 m.epoch ++ leBytes 4 m.progMin ++ leBytes 4 0
    ++ e 2 ++ tag ++ e 3 ++ leBytes 12 0 ++ crc

/-- The full record: tag over the record with tag and crc as zero, then crc over bytes 0 to 123 (R233). -/
def sillage (mdk : BitVec 256) (m : PageMark) (es : List (BitVec 128)) : List Byte :=
  let tag := cmac (beBytes 32 mdk.toNat) (recordBytes m es (leBytes 16 0) (leBytes 4 0))
  let crc := crc32c ((recordBytes m es tag (leBytes 4 0)).take 124)
  recordBytes m es tag (leBytes 4 crc.toNat)

/-- The information bits of a codeword: 4,096 data bytes and 32 metadata bytes (R225). -/
def cwInfo (b : Blk) (meta32 : List Byte) : BitVec 33024 :=
  b.setWidth 33024 ||| (BitVec.ofNat 33024 (leNat meta32) <<< 32768)

/-- The four codewords of a page as they go to the die: sillage, LDPC parity, scrambler (R225 to R230). -/
def buildPage (code : LdpcCode) (mdk : BitVec 256) (block : Nat) (m : PageMark) (es : List (BitVec 128)) (data : List Blk) :
    Page :=
  let sr := sillage mdk m es
  { cws := (List.range 4).map fun c =>
      scramble m.die block m.position c (ldpcEncode code (cwInfo (nth 0 data c) ((sr.drop (32 * c)).take 32))) }

/-- The user data and the metadata of a decoded (descrambled) codeword (R225). -/
def cwData (v : CwBits) : Blk := v.setWidth 32768
def cwMeta (v : CwBits) : List Byte := leBytes 32 ((v >>> 32768).setWidth 256).toNat
def cwEntry (v : CwBits) : BitVec 128 := (v >>> 32768).setWidth 128

/-- The record of a page from its four decoded codewords. -/
def pageRecord (vs : List CwBits) : List Byte := vs.flatMap cwMeta

/-- The record's crc is right (R234). -/
def crcGood (r : List Byte) : Bool := decide (leBytes 4 (crc32c (r.take 124)).toNat = (r.drop 124).take 4)

/-- The record's authentication tag is right (R233, R234). -/
def tagGood (mdk : BitVec 256) (r : List Byte) : Bool :=
  decide (cmac (beBytes 32 mdk.toNat) (r.take 80 ++ leBytes 16 0 ++ ((r.drop 96).take 28) ++ leBytes 4 0) = (r.drop 80).take 16)

end Sys2Proof.Machine
end

