-- ==== Sys2Proof/Machine/Operands.lean ====
section
/-! DEFINITION. Addresses and shapes every meaning computes with: geometry of the array (R165 to R175, R296), program
order (R237 to R239), the map index (R178), the overlay's home bucket (R189), the DRAM address map (R418), block pools
and free space (R212 to R217), and the lookups of the state's tables. -/
namespace Sys2Proof.Machine

/-! ### Parts of the state -/

/-- Read a port. -/
def State.port (s : State) (p : PortId) : Port :=
  match p with
  | .A => s.portA
  | .B => s.portB

/-- Apply a function to a port. -/
def State.onPort (s : State) (p : PortId) (f : Port → Port) : State :=
  match p with
  | .A => { s with portA := f s.portA }
  | .B => { s with portB := f s.portB }

def State.onBoth (s : State) (f : Port → Port) : State := { s with portA := f s.portA, portB := f s.portB }
def State.onPath (s : State) (f : Path → Path) : State := { s with path := f s.path }
def State.onMedia (s : State) (f : Media → Media) : State := { s with media := f s.media }
def State.onUpkeep (s : State) (f : Upkeep → Upkeep) : State := { s with upkeep := f s.upkeep }
def State.onJournal (s : State) (f : Journal → Journal) : State := { s with journal := f s.journal }
def State.onHk (s : State) (f : Hk → Hk) : State := { s with hk := f s.hk }
def State.onFh (s : State) (f : Fh → Fh) : State := { s with fh := f s.fh }
def State.onSec (s : State) (f : Sec → Sec) : State := { s with sec := f s.sec }
def State.onMisc (s : State) (f : Misc → Misc) : State := { s with misc := f s.misc }
def State.onBoot (s : State) (f : Boot → Boot) : State := { s with boot := f s.boot }
def State.onOwn (s : State) (f : Own → Own) : State := { s with own := f s.own }
def State.policy (s : State) : Policy := s.image.policy
def State.geo (s : State) : Geometry := s.image.geo

/-! ### Geometry -/

/-- Channel n is populated: set in the image's channel mask (R42). -/
def chanOn (s : State) (ch : Nat) : Bool := s.image.board.chanMask.testBit ch

/-- The populated channels in ascending order. -/
def chansOn (s : State) : List Nat := (List.range 32).filter (chanOn s)

/-- Group g has a populated channel, so that LCg is enabled (R42). -/
def groupOn (s : State) (g : Nat) : Bool := (List.range 8).any fun i => chanOn s (8 * g + i)

/-- The group of a channel (R5). -/
def groupOf (ch : Nat) : Nat := ch / 8

/-- Dies of one channel, D (R167). -/
def diesPerChan (s : State) : Nat := s.geo.targets * s.geo.diesPerTarget

/-- Die index (R6). -/
def dieIndex (ch target die : Nat) : Nat := ch * 32 + target * 8 + die
def dieChan (di : Nat) : Nat := di / 32

/-- Die index of a die slot of a channel (R167, R175). -/
def slotDie (s : State) (ch d : Nat) : Nat := dieIndex ch (d / s.geo.diesPerTarget) (d % s.geo.diesPerTarget)

/-- Die slot of a die index. -/
def dieSlot (s : State) (di : Nat) : Nat := (di % 32 / 8) * s.geo.diesPerTarget + di % 8

/-- The dies of a channel. -/
def diesOf (s : State) (ch : Nat) : List Nat := (List.range (diesPerChan s)).map (slotDie s ch)

/-- Every populated die. -/
def allDies (s : State) : List Nat := (chansOn s).flatMap (diesOf s)

/-- Native cell mode: 1 TLC, 2 QLC. -/
def nativeMode (s : State) : Nat := if s.geo.cellType = 1 then 1 else 2

/-- Pages per wordline of a cell mode (R165). -/
def ppwOf (mode : Nat) : Nat := if mode = 0 then 1 else if mode = 1 then 3 else 4

/-- Program positions of one block in a mode (R237). -/
def positions (s : State) (mode : Nat) : Nat := s.geo.planes * s.geo.wordlines * ppwOf mode

/-- A block's main capacity in bytes (R165). -/
def blockMain (s : State) (mode : Nat) : Nat := positions s mode * 16384

/-- IU size in bytes (R169). -/
def iuBytes (s : State) : Nat := if s.policy.iuSize = 1 then 16384 else 65536

/-- 4 KiB sub-units of an IU (R173). -/
def subsPerIu (s : State) : Nat := iuBytes s / 4096

/-- User capacity of a super-block in a mode (R167). -/
def sbUser (s : State) (mode : Nat) : Nat := 16 * diesPerChan s * blockMain s mode

/-- S: IU slots of a super-block in its native mode (R171). -/
def slotsS (s : State) : Nat := sbUser s (nativeMode s) / iuBytes s

/-- IU slots of a super-block in its mode (R174). -/
def slotsIn (s : State) (mode : Nat) : Nat := sbUser s mode / iuBytes s

/-- Stripes of a super-block in a mode (R167). -/
def stripesIn (s : State) (mode : Nat) : Nat := diesPerChan s * positions s mode

/-- N_sb (R168). -/
def nSb (s : State) : Nat := s.geo.blocksPerDie * (allDies s).length / (18 * diesPerChan s)

def iusPerStripe (s : State) : Nat := 262144 / iuBytes s
def elemsPerIu (s : State) : Nat := iuBytes s / 16384

/-- The parts of a physical IU address (R175). -/
structure PaParts where
  sb   : Nat
  slot : Nat
  k    : Nat
  e0   : Nat
  d    : Nat
  q    : Nat
  deriving DecidableEq, Repr

/-- Resolve a physical IU address (R175). -/
def resolve (s : State) (pa : Nat) : PaParts :=
  let slot := pa % slotsS s
  let k := slot / iusPerStripe s
  { sb := pa / slotsS s, slot := slot, k := k, e0 := slot % iusPerStripe s * elemsPerIu s, d := k % diesPerChan s,
    q := k / diesPerChan s }

/-- A physical IU address (R174). -/
def paOf (s : State) (sb slot : Nat) : Nat := sb * slotsS s + slot

/-- Rotation of stripe k, member slot of member j, and member of a member slot (R296). -/
def rotOf (s : State) (k : Nat) : Nat := k / diesPerChan s % 18
def memberSlot (s : State) (k j : Nat) : Nat := (j + rotOf s k) % 18
def slotMember (s : State) (k m : Nat) : Nat := (m + 18 - rotOf s k) % 18

/-- Data element (member) and codeword of sub-unit `i` of the IU slot `slot`: four codewords a page (R175). -/
def subElem (s : State) (slot i : Nat) : Nat × Nat := (slot % iusPerStripe s * elemsPerIu s + i / 4, i % 4)

/-- Wordline of a position, counted over the planes in program order (R237, R238). -/
def wlOf (mode q : Nat) : Nat := q / ppwOf mode

/-- Program position as plane, wordline and page (R237). -/
def positionParts (s : State) (mode q : Nat) : Nat × Nat × Nat :=
  (q / (ppwOf mode * s.geo.wordlines), q / ppwOf mode % s.geo.wordlines, q % ppwOf mode)

/-- ONFI row address (R219). -/
def rowAddress (s : State) (lun block mode q : Nat) : Nat :=
  let (plane, wl, page) := positionParts s mode q
  (lun <<< s.geo.lunShift) ||| ((block * s.geo.planes + plane) <<< s.geo.pageBits) ||| (wl * ppwOf mode + page)

/-- A wordline (over all planes) is paired-page safe, from the passes completed on its block: coarse (or only) and last
(R239). -/
def wlSafe (s : State) (mode : Nat) (done : Nat × Nat) (wl : Nat) : Bool :=
  let last := decide (wl % s.geo.wordlines + 1 = s.geo.wordlines)
  decide (wl < done.2) && (decide (mode = 0) || last || decide (wl + 1 < done.1))

/-! ### Zones of the tables of the media -/

def blockKey (die block : Nat) : Nat := die * 1048576 + block
def pageKey (die block q : Nat) : Nat := blockKey die block * 65536 + q

def getBlock (s : State) (die block : Nat) : Block := tget {} s.media.blocks (blockKey die block)
def modBlock (s : State) (die block : Nat) (f : Block → Block) : State :=
  s.onMedia fun m => { m with blocks := tmod {} m.blocks (blockKey die block) f }
def getDie (s : State) (die : Nat) : Die := tget {} s.media.dies die
def modDie (s : State) (die : Nat) (f : Die → Die) : State := s.onMedia fun m => { m with dies := tmod {} m.dies die f }
def getChan (s : State) (ch : Nat) : Channel := tget {} s.media.chans ch
def modChan (s : State) (ch : Nat) (f : Channel → Channel) : State :=
  s.onMedia fun m => { m with chans := tmod {} m.chans ch f }
def getCluster (s : State) (g : Nat) : Cluster := tget {} s.media.clusters g
def modCluster (s : State) (g : Nat) (f : Cluster → Cluster) : State :=
  s.onMedia fun m => { m with clusters := tmod {} m.clusters g f }
def getFlacon (s : State) (f : Nat) : Flacon := tget {} s.path.flacons f
def modFlacon (s : State) (i : Nat) (f : Flacon → Flacon) : State :=
  s.onPath fun p => { p with flacons := tmod {} p.flacons i f }

/-- A formed super-block by number. -/
def findSb (s : State) (n : Nat) : Option SuperBlock := s.media.sbs.find? fun b => b.num = n
def modSb (s : State) (n : Nat) (f : SuperBlock → SuperBlock) : State :=
  s.onMedia fun m => { m with sbs := m.sbs.map fun b => if b.num = n then f b else b }

/-- Block of member slot m and die slot d of a super-block, and its die (R166). -/
def sbBlock (s : State) (b : SuperBlock) (m d : Nat) : Nat := nth 0 b.blocks (m * diesPerChan s + d)
def sbDie (s : State) (b : SuperBlock) (m d : Nat) : Nat := slotDie s (nth 0 b.chans m) d

def findStripe (s : State) (sb k : Nat) : Option Stripe := s.media.stripes.find? fun t => t.sb = sb ∧ t.k = k
def modStripe (s : State) (sb k : Nat) (f : Stripe → Stripe) : State :=
  s.onMedia fun m => { m with stripes := m.stripes.map fun t => if t.sb = sb ∧ t.k = k then f t else t }

/-- Index of the block that holds member slot m of stripe k (R166). -/
def blockIdx (s : State) (k m : Nat) : Nat := m * diesPerChan s + k % diesPerChan s

/-- The block has failed (R341). -/
def onFailed (b : SuperBlock) (idx : Nat) : Bool := b.failed.any fun f => decide (f.1 = idx)

/-- The block has failed at or below a position (R341). -/
def failedBelow (b : SuperBlock) (idx q : Nat) : Bool := b.failed.any fun f => decide (f.1 = idx) && decide (f.2 ≤ q)

/-- The element of stripe k at member slot m lies on a lost member, or on a failed block at or above q_f (R313, R341). -/
def offBlock (s : State) (b : SuperBlock) (k m : Nat) : Bool :=
  decide (blockIdx s k m ∈ b.lost) || failedBelow b (blockIdx s k m) (k / diesPerChan s)

/-- The element's page has completed its last pass. -/
def lastPassed (s : State) (b : SuperBlock) (k m : Nat) : Bool :=
  decide (wlOf b.mode (k / diesPerChan s) < (tget (0, 0) b.passes (m * diesPerChan s + k % diesPerChan s)).2)

/-- The stripe holds its accumulator slot: the last pass of P or of Q is not done (R305). For a parity element on a lost member or a
failed block, which has no last pass, nothing is waited for (DESIGN CHOICE, log entry 78). -/
def slotOpen (s : State) (t : Stripe) : Bool :=
  match findSb s t.sb with
  | none => false
  | some b => [16, 17].any fun j => !(offBlock s b t.k (memberSlot s t.k j) || lastPassed s b t.k (memberSlot s t.k j))

/-- Stripes that hold an accumulator slot (R305). -/
def slotsHeld (s : State) : Nat := (s.media.stripes.filter (slotOpen s)).length

/-! ### Losses -/

/-- The channel is failed, or has stopped during the flush that runs and counts as failed (R258, R386). -/
def chanFailed (s : State) (ch : Nat) : Bool :=
  decide ((getChan s ch).st = .failed) || (decide (s.journal.pls = 2) && decide (ch ∈ s.journal.stopped))

/-- The die is failed, or its channel (R313). -/
def dieLost (s : State) (die : Nat) : Bool := (getDie s die).isFailed || chanFailed s (dieChan die)

/-- Lost members of stripe k of a super-block (R313, R315). -/
def lostMembers (s : State) (b : SuperBlock) (k : Nat) : List Nat :=
  (List.range 18).filter fun m => decide (m * diesPerChan s + k % diesPerChan s ∈ b.lost)

/-- State of a stripe by its lost members: 0 whole, 1 exposed-1, 2 exposed-2, 3 broken (R315). -/
def stripeState (s : State) (b : SuperBlock) (k : Nat) : Nat := min 3 (lostMembers s b k).length

/-! ### Namespaces, map and overlay -/

def findNs (s : State) (nsid : Nat) : Option Namespace := s.path.spaces.find? fun n => n.nsid = nsid

/-- LBA size of a namespace in bytes (R173). -/
def lbaBytes (n : Namespace) : Nat := if n.flbas = 1 then 512 else 4096

/-- LBAs of an IU, L (R173). -/
def lbasPerIu (s : State) (n : Namespace) : Nat := iuBytes s / lbaBytes n

/-- LBAs of a sub-unit. -/
def lbasPerSub (n : Namespace) : Nat := 4096 / lbaBytes n

/-- IUs of a segment (R176, R178). -/
def perSeg (s : State) : Nat := 1073741824 / iuBytes s

/-! ### The identity a host sees -/

/-- An identity whose fields are free bytes of structure `k`. -/
def freeIdentity (k : Nat) : Identity :=
  let at_ := fun (o n : Nat) => (List.range n).map fun i => Config.stdByte k 0 (o + i)
  let num := fun (o n : Nat) => leNat (at_ o n)
  { vid := num 0 2, did := num 2 2, ssvid := num 4 2, ssid := num 6 2, classCode := num 8 3, revisionId := num 11 1
    serial := at_ 12 20, model := at_ 32 40, fr := at_ 72 8, ieee := num 80 3, userCapacity := num 83 8, subnqn := at_ 91 256 }

/-- The identity after a fatal boot without one of the image (R572): fixed values of the boot ROM with OTP_FAIL, else the OTP row's.
R620's map of that row has no such fields, so both are free (log entry 98). -/
def bareIdentity (s : State) : Identity := freeIdentity (if s.boot.fatal = 1 then 0x300 else 0x301)

/-- The identity of configuration space: none before step 3 has loaded it (R548, R561), unless start-up ended without it (R572). -/
def configIdentity (s : State) : Option Identity :=
  match s.boot.cfgIdentity with
  | some i => some i
  | none => if s.boot.fatal = 0 then none else some (bareIdentity s)

/-- The identity that Identify shows: of the image in use, else of configuration space (R572). -/
def hostIdentity (s : State) : Identity := if s.boot.configSet then s.image.ident else (configIdentity s).getD s.image.ident

/-- Segments of the drive (R176). -/
def driveSegs (s : State) : Nat := s.image.ident.userCapacity / 1073741824

/-- Map index of an IU (R178). -/
def mapIndex (s : State) (n : Namespace) (iu : Nat) : Nat := nth 0 n.segs (iu / perSeg s) * perSeg s + iu % perSeg s

/-- The namespace and IU of a map index. -/
def mapOwner (s : State) (mi : Nat) : Option (Namespace × Nat) :=
  (s.path.spaces.find? fun n => decide (mi / perSeg s ∈ n.segs)).map fun n =>
    (n, n.segs.idxOf (mi / perSeg s) * perSeg s + mi % perSeg s)

/-- A map entry; unlisted entries are trimmed (R180). -/
def getMap (s : State) (mi : Nat) : MapEntry := tget {} s.path.map mi
def putMap (s : State) (mi : Nat) (e : MapEntry) : State := s.onPath fun p => { p with map := tput {} p.map mi e }

/-- A map entry as 40 bits (R180). -/
def mapBits (e : MapEntry) : Nat :=
  e.pa % 2 ^ 33 + b2n e.valid * 2 ^ 33 + b2n e.trimmed * 2 ^ 34 + b2n e.poisoned * 2 ^ 35 + b2n e.overlay * 2 ^ 36

/-- A map entry from its 40 bits (R180). -/
def mapOfBits (x : Nat) : MapEntry :=
  { pa := x % 2 ^ 33, valid := x.testBit 33, trimmed := x.testBit 34, poisoned := x.testBit 35, overlay := x.testBit 36 }

/-- Bursts of the map, counted from its start, that hold entry i: it starts at byte 5 × i, and one entry in sixteen straddles two
bursts (R182). -/
def mapBursts (i : Nat) : List Nat := if 5 * i % 64 ≤ 59 then [5 * i / 64] else [5 * i / 64, 5 * i / 64 + 1]

/-- A byte of the map, whose entries are packed without gaps (R182). -/
def mapByte (s : State) (a : Nat) : Byte := nth 0 (leBytes 5 (mapBits (getMap s (a / 5)))) (a % 5)

/-- The 64 bytes of a burst of the map. -/
def mapBurst (s : State) (n : Nat) : List Byte := (List.range 64).map fun j => mapByte s (64 * n + j)

/-- MAP's lookup of an entry: it reads the entry's one or two bursts (R182). -/
def lookupMap (s : State) (i : Nat) : MapEntry :=
  mapOfBits (leNat ((((mapBursts i).flatMap (mapBurst s)).drop (5 * i % 64)).take 5))

/-- CRC-32C over the map index as five little-endian bytes (R189). -/
def mapHash (mi : Nat) : Nat := (crc32c (leBytes 5 mi)).toNat

/-- Home bucket of an IU (R189). -/
def homeBucket (mi : Nat) : Nat := mapHash mi % 33554432

/-- The probe buckets of an IU (R189). -/
def probeBuckets (mi : Nat) : List Nat := (List.range 16).map fun i => (homeBucket mi + i) % 33554432

/-- Overlay entries of an IU that are in use. -/
def ovlOf (s : State) (mi : Nat) : List OvlEntry := s.path.ovl.filter fun e => decide (e.mapIndex = mi) && !e.held

/-- The overlay entry of a sub-unit. -/
def ovlFind (s : State) (mi sub : Nat) : Option OvlEntry := (ovlOf s mi).find? fun e => e.sub = sub

/-- Used entries of the overlay. -/
def ovlUsed (s : State) : Nat := (s.path.ovl.filter fun e => !e.held).length

/-- The first free place of the probe buckets: bucket and place (R189). -/
def ovlFree (s : State) (mi : Nat) : Option (Nat × Nat) :=
  ((probeBuckets mi).flatMap fun b => [(b, 0), (b, 1), (b, 2), (b, 3)]).find? fun x =>
    !(s.path.ovl.any fun e => decide (e.bucket = x.1) && decide (e.place = x.2))

/-- Entries in use or held in the probe buckets of an IU. -/
def ovlInProbe (s : State) (mi : Nat) : Nat := (s.path.ovl.filter fun e => decide (e.bucket ∈ probeBuckets mi)).length

/-- Map-version counter of an IU (R290). -/
def verIndex (mi : Nat) : Nat := mapHash mi % 65536
def getVer (s : State) (mi : Nat) : Nat := tget 0 s.path.vers (verIndex mi)
def bumpVer (s : State) (mi : Nat) : State := s.onPath fun p => { p with vers := tmod 0 p.vers (verIndex mi) (· + 1) }

/-- The tweak number of a sub-unit: IU number × sub-units + sub (the number of the 4 KiB unit in its namespace, R629). -/
def tweakOf (s : State) (iu sub : Nat) : Nat := iu * subsPerIu s + sub

/-! ### Free space -/

/-- The block counts as free: erased or dirty (R213). -/
def isFreePool (p : Pool) : Bool :=
  match p with
  | .erased | .dirty => true
  | _ => false

/-- Blocks on the dies of channels that are not failed, less those listed in a pool that is not free (R213). -/
def freeBlocks (s : State) : Nat :=
  let dies := ((chansOn s).filter fun c => !chanFailed s c).flatMap (diesOf s)
  let taken := (s.media.blocks.filter fun e =>
    decide (e.1 / 1048576 ∈ dies) && decide (e.1 % 1048576 < s.geo.blocksPerDie) && !isFreePool e.2.pool).length
  (dies.length * s.geo.blocksPerDie - taken) / (18 * diesPerChan s)

/-- RUNS in 4 KiB units (R201, R217). -/
def ruUnits (s : State) : Nat := sbUser s (nativeMode s) / 4096

/-- IU slots of a super-block that nothing is packed to: filler stripes added ahead count as packed (R201). -/
def slotsLeft (s : State) (b : SuperBlock) : Nat :=
  slotsIn s b.mode - b.nextSlot - (b.ahead.filter fun k => decide (b.nextSlot ≤ k * iusPerStripe s)).length * iusPerStripe s

/-- Unwritten 4 KiB units of a super-block. -/
def sbRoom (s : State) (b : SuperBlock) : Nat := slotsLeft s b * subsPerIu s

/-- Sub-units of a super-block that are packed and whose page's last pass is not done: still unwritten, and still claimed. -/
def packedUnits (s : State) (b : SuperBlock) : Nat :=
  let ofElem := fun (k : Nat) (e : Nat × Option Element) => match e.2 with
    | some el =>
      if el.kind = 0 ∧ !lastPassed s b k (memberSlot s k e.1) then (el.entries.filter fun x => decide (entryKind x ≤ 1)).length else 0
    | none => 0
  sumOf (fun (t : Stripe) => sumOf (ofElem t.k) t.elems) (s.media.stripes.filter fun t => t.sb = b.num)

/-- Unwritten units of the open host reclaim units (R217): what is packed is unwritten until it is programmed (DEDUCED, log entry
67). -/
def openRoom (s : State) : Nat :=
  sumOf (fun b => sbRoom s b + packedUnits s b) (s.media.sbs.filter fun b => decide (b.use = .hostRu) && decide (b.st = .isOpen))

/-- place_free with a given count of free blocks (R210, R217). -/
def placeFreeWith (s : State) (free : Nat) : Nat := openRoom s + (free - s.policy.placeFloor) * ruUnits s - s.path.claimed

/-- place_free (R217). -/
def placeFree (s : State) : Nat := placeFreeWith s (freeBlocks s)

/-- SLC cache size (R209). -/
def slcCacheSize (s : State) : Nat := min s.policy.cacheMax (freeBlocks s * s.policy.cacheFraction / 256)

/-- Super-blocks in SLC mode that hold host data. -/
def slcCount (s : State) : Nat := (s.media.sbs.filter fun b => decide (b.use = .slc)).length

/-! ### DRAM addresses -/

/-- DRAM channel, burst in the channel, and byte in the burst, of an address of the DRAM space (R418). -/
def dramMap (nch addr : Nat) : Nat × Nat × Nat :=
  let loc := addr / (256 * nch) * 256 + addr % 256
  (addr / 256 % nch, loc / 64, loc % 64)

/-- The address of a byte of a burst of a channel: the inverse of dramMap (R418). -/
def dramAddr (nch ch burst off : Nat) : Nat :=
  let loc := burst * 64 + off
  loc / 256 * (256 * nch) + ch * 256 + loc % 256

/-- Bank (0 to 31: bank group and bank) and row of a burst (R418). -/
def dramBank (burst : Nat) : Nat := burst % 8 + burst / 8 % 4 * 8
def dramRow (burst : Nat) : Nat := burst / 2048

/-- Enabled DRAM controllers: DC0 and DC1, or all four (R42, R45). -/
def dcOn (s : State) (n : Nat) : Bool := decide (n < s.image.board.dramChannels)

/-- Bytes of the map at DRAM address 0: 5 bytes for each IU of declared user capacity (R40, R418). -/
def mapBytes (s : State) : Nat := 5 * (s.image.ident.userCapacity / iuBytes s)

/-- Regions of the DRAM space in their order (R40, R418, R439). -/
inductive DramRegion where
  | map
  | overlay
  | staging
  | tables
  deriving DecidableEq, Repr

/-- The region of a DRAM address (R418, R439). -/
def dramRegion (s : State) (addr : Nat) : DramRegion :=
  if addr < mapBytes s then .map
  else if addr < mapBytes s + 2147483648 then .overlay
  else if addr < mapBytes s + 2147483648 + 268435456 then .staging
  else .tables

end Sys2Proof.Machine
end

