-- ==== Sys2Proof/Machine/Pages.lean ====
section
/-! DEFINITION. Pages and what they hold: the temperature of a channel (R475), byte images of the journal's records and of overlay
entries (R188, R389, R390), elements and stripes with their parity (R297, R303, R304), pages as programmed (R224 to R236), and the
system pages of the delta log and of checkpoint segments (R397, R398). -/
namespace Sys2Proof.Machine

/-! ### Time -/

/-- Power-on time over the life of the drive, µs and minutes. -/
def powerOnUs (s : State) : Nat := s.misc.powerOnBase + s.now
def powerOnMin (s : State) : Nat := powerOnUs s / 60000000

/-! ### The open chunk -/

/-- The chunk being filled. -/
def openSerial (s : State) : Option Nat := (s.journal.chunks.find? fun c => !c.closed).map (·.serial)

/-- The map epoch: low 32 bits of the serial of the chunk being filled (R395). -/
def mapEpoch (s : State) : Nat := ((openSerial s).getD s.journal.nextSerial) % 4294967296

/-! ### Temperatures -/

/-- Role of an input: 0 unused, 1 NAND, 2 board, 3 junction (R471, R496). Inputs 0 to 15 are unused until the image is
validated (R477). -/
def inputRole (s : State) (i : Nat) : Nat :=
  if 16 ≤ i then 3 else if s.boot.configSet then (nth {} s.image.board.inputs i).role else 0

/-- Readings of the inputs that pass a test, in 1/16 °C. -/
def readingsOf (s : State) (f : Nat → TempIn → Bool) : List Int :=
  (List.range 20).filterMap fun i => let x := nth {} s.hk.inputs i; if f i x then some x.temp else none

/-- The highest of a list of readings. -/
def maxInt : List Int → Option Int
  | [] => none
  | x :: r => match maxInt r with
    | none => some x
    | some y => some (max x y)

/-- The controller junction temperature: the highest of inputs 16 to 19 that are valid or held (R470). -/
def junction (s : State) : Option Int :=
  if s.hk.anyRound then maxInt (readingsOf s fun i x => decide (16 ≤ i) && (x.valid || x.held)) else none

/-- A NAND input serves a channel of the given mask of channels. -/
def servesOf (s : State) (i : Nat) (f : Nat → Bool) : Bool :=
  decide (inputRole s i = 1) && (List.range 32).any fun c => f c && (nth {} s.image.board.inputs i).channels.testBit c

/-- The temperature a channel uses for prog_temp and t_read, in °C (R475): whole degrees, a reading in 1/16 °C rounded down (R236;
DESIGN CHOICE, log entry 79). none where there is no temperature. -/
def chanTemp (s : State) (ch : Nat) : Option Int :=
  match readingsOf s fun i x => x.valid && servesOf s i fun c => decide (c = ch) with
  | t :: _ => some (t / 16)
  | [] =>
    match maxInt (readingsOf s fun i x => x.valid && servesOf s i fun c => decide (groupOf c = groupOf ch)) with
    | some t => some (t / 16)
    | none =>
      match maxInt (readingsOf s fun i x => x.valid && decide (inputRole s i = 1)) with
      | some t => some (t / 16)
      | none => (junction s).map fun t => t / 16 - 30

/-! ### Records and entries as bytes -/

/-- An overlay entry in use as 128 bits (R188). -/
def ovlBits (e : OvlEntry) : Nat :=
  e.mapIndex % 2 ^ 33 + e.sub % 16 * 2 ^ 33 + 2 ^ 37 + b2n e.trimmed * 2 ^ 38 + e.pa % 2 ^ 33 * 2 ^ 40 + e.psub % 16 * 2 ^ 73
    + e.seqLow % 2 ^ 48 * 2 ^ 80

/-- Pool code (R390). -/
def poolCode (p : Pool) : Nat :=
  match p with
  | .erased => 0
  | .dirty => 1
  | .refuge => 2
  | .inUse => 3
  | .retired => 4

/-- Type and bytes 1 to 15 of a journal record, as one number (R390). -/
def recFields (r : Rec) : Nat × Nat :=
  match r with
  | .mapSet mi e seq => (0x01, mi % 2 ^ 40 + mapBits e * 2 ^ 40 + seq % 2 ^ 40 * 2 ^ 80)
  | .ovlSet mi sub tr rm pa psub seq =>
    (0x02, (mi % 2 ^ 33 + sub % 16 * 2 ^ 33 + b2n tr * 2 ^ 37 + b2n rm * 2 ^ 38) + (pa % 2 ^ 33 + psub % 16 * 2 ^ 33) * 2 ^ 40
      + seq % 2 ^ 40 * 2 ^ 80)
  | .horizon h => (0x03, h % 2 ^ 64)
  | .seqReserve c => (0x04, c % 2 ^ 64)
  | .eraseBegin d b => (0x05, d % 2 ^ 16 + b % 2 ^ 32 * 2 ^ 16)
  | .eraseEnd d b n => (0x06, d % 2 ^ 16 + b % 2 ^ 32 * 2 ^ 16 + n % 2 ^ 24 * 2 ^ 48)
  | .blockPool d b p => (0x07, d % 2 ^ 16 + b % 2 ^ 32 * 2 ^ 16 + poolCode p * 2 ^ 48)
  | .sbForm sb ser use mode ruh =>
    (0x08, sb % 2 ^ 24 + ser % 2 ^ 32 * 2 ^ 24 + use % 256 * 2 ^ 56 + mode % 256 * 2 ^ 64 + ruh % 256 * 2 ^ 72)
  | .sbClose sb last qf => (0x09, sb % 2 ^ 24 + last % 2 ^ 16 * 2 ^ 24 + qf % 2 ^ 24 * 2 ^ 40)
  | .scrubPos sb st => (0x0A, sb % 2 ^ 24 + st % 2 ^ 32 * 2 ^ 24)
  | .lostIu part bytes => (0x0B, part % 256 + bytes % 2 ^ 112 * 2 ^ 8)
  | .ckptDone seg ch st sb pos =>
    (0x0C, seg % 2 ^ 16 + ch % 2 ^ 48 * 2 ^ 16 + st % 2 ^ 16 * 2 ^ 64 + sb % 2 ^ 24 * 2 ^ 80 + pos % 2 ^ 16 * 2 ^ 104)
  | .pad => (0x0E, 0)
  | .chunk ser min => (0x0F, ser % 2 ^ 48 + min % 2 ^ 32 * 2 ^ 48)

/-- The 16 bytes of a record in a chunk of a given serial: bit 7 of the type is the lap bit (R389, R390). -/
def recBytes (serial : Nat) (r : Rec) : List Byte :=
  leBytes 1 ((recFields r).1 + serial % 2 * 128) ++ leBytes 15 (recFields r).2

/-- The lap bit of a record: bit 7 of its type byte (R389). -/
def lapBit (serial : Nat) (r : Rec) : Nat := leNat ((recBytes serial r).take 1) / 128

/-- The records of a chunk after its header, to the first whose lap bit differs from the header's (R389). -/
def ringRecs (c : Chunk) : List Rec := c.recs.takeWhile fun r => decide (lapBit c.serial r = lapBit c.serial (.chunk c.serial c.openedMin))

/-- The records of a chunk, its header first (R388). -/
def chunkRecs (c : Chunk) : List Rec :=
  let l := Rec.chunk c.serial c.openedMin :: c.recs
  if c.closed then l ++ List.replicate (65536 - l.length) .pad else l

/-! ### Elements, stripes and pages -/

/-- All sixteen data elements are packed. -/
def stripeFull (t : Stripe) : Bool := decide (16 ≤ t.elems.length)

def emptyStripe (sb k : Nat) : Stripe :=
  { sb := sb, k := k, p := List.replicate 4 0, q := List.replicate 4 0, pId := List.replicate 4 0, qId := List.replicate 4 0 }

/-- Add a data element to a stripe and to its accumulators (R303, R305). -/
def addElement (t : Stripe) (j : Nat) (e : Element) : Stripe :=
  let ids := e.entries.map identityWord
  let g := gPow j
  { t with
    elems := tput none t.elems j (some e)
    p := List.zipWith (· ^^^ ·) t.p e.data
    q := List.zipWith (fun a b => a ^^^ gScale g b) t.q e.data
    pId := List.zipWith (· ^^^ ·) t.pId ids
    qId := List.zipWith (fun a b => a ^^^ gScale g b) t.qId ids }

/-- A filler page (R297). -/
def fillerElement : Element := { kind := 3, entries := List.replicate 4 fillerEntry, data := List.replicate 4 0 }

/-- The page of member j of stripe k, with its entries, data and page kind (R225, R297, R304). -/
def memberPage (t : Stripe) (j : Nat) : Nat × List (BitVec 128) × List Blk × Bool :=
  if j = 16 then (1, t.pId.map parityEntry, t.p, false)
  else if j = 17 then (2, t.qId.map parityEntry, t.q, false)
  else match tget none t.elems j with
    | some e => (e.kind, e.entries, e.data, e.poison)
    | none => (3, List.replicate 4 fillerEntry, List.replicate 4 0, false)

/-- Every LDPC parity bit of a codeword inverted: how poisoned data is programmed (R440). -/
def invertParity (v : CwBits) : CwBits := v ^^^ (BitVec.allOnes 36864 <<< 33024)

/-- The page as programmed (R224 to R236, R440). -/
def pageImage (s : State) (b : SuperBlock) (m d q : Nat) (t : Stripe) : Page :=
  let idx := m * diesPerChan s + d
  let (temp, mins, epoch) := (tget none b.marks idx).getD (-128, 0, 0)
  let (kind, es, data, poison) := memberPage t (slotMember s t.k m)
  let mark : PageMark := { kind := kind, member := slotMember s t.k m, mode := b.mode, sb := b.num, progTemp := temp,
                           sbSerial := b.serial, stripe := t.k, die := sbDie s b m d, position := q, epoch := epoch, progMin := mins }
  let pg := buildPage s.image.ldpc s.sec.mdk (sbBlock s b m d) mark es data
  let bad := fun (c : Nat) => poison || (decide (16 ≤ slotMember s t.k m) && decide (c ∈ t.badCols))
  { cws := (List.range 4).map fun c => if bad c then invertParity (nth erasedCw pg.cws c) else nth erasedCw pg.cws c
    rest := scrambleRest mark.die (sbBlock s b m d) q (s.geo.pageBytes - 18432) }

/-! ### System pages -/

/-- The entry of a codeword of system data (R231, R232). -/
def systemEntry : BitVec 128 := packEntry 0 0 0 4 0 0xFF

/-- A sub-unit of bytes. -/
def blkOf (l : List Byte) : Blk := BitVec.ofNat 32768 (leNat l)

/-- A page of system data, as an element of a stripe: page kind 0x05 or 0x06 (R232). -/
def systemElement (kind : Nat) (word : Nat → Blk) : Element :=
  { kind := kind, entries := List.replicate 4 systemEntry, data := (List.range 4).map word }

/-- Page p of the 64 delta-log pages of a chunk: 256 records to a codeword (R388, R397). -/
def chunkElement (c : Chunk) (p : Nat) : Element :=
  systemElement 6 fun w => blkOf ((((chunkRecs c).drop (256 * (4 * p + w))).take 256).flatMap (recBytes c.serial))

/-- The n-th block of the block table: by die index, then by block (R398; the order is a DESIGN CHOICE, log entry 8). -/
def tableBlock (s : State) (t : Tbl Block) (n : Nat) : Block :=
  tget {} t (blockKey (nth 0 (allDies s) (n / s.geo.blocksPerDie)) (n % s.geo.blocksPerDie))

/-- An entry of the block table (R398). -/
def blockWord (x : Block) : Nat := x.erases % 2 ^ 24 + poolCode x.pool * 2 ^ 24 + b2n x.unclean * 2 ^ 27

/-- Length of a segment's payload in bytes (R398). -/
def payloadLength (s : State) (b : SegBody) : Nat :=
  match b with
  | .map _ => 32768000
  | .overlay _ => 33554432
  | .blocks _ => 4 * ((allDies s).length * s.geo.blocksPerDie)
  | .lost .. => 64 * 262144 + 4

/-- A byte of a segment's payload (R398): map entries of 5 bytes, buckets of four overlay entries, block table entries of 4 bytes, or
Lost-IU slots of 64 bytes and the sb_serial counter. -/
def payloadByte (s : State) (g : Segment) (a : Nat) : Byte :=
  if payloadLength s g.body ≤ a then 0
  else match g.body with
    | .map t => nth 0 (leBytes 5 (mapBits (tget {} t (g.index * 6553600 + a / 5)))) (a % 5)
    | .overlay l =>
      match l.find? fun e => decide (e.bucket % 524288 = a / 64) && decide (e.place = a % 64 / 16) with
      | some e => nth 0 (leBytes 16 (ovlBits e)) (a % 16)
      | none => 0
    | .blocks t => nth 0 (leBytes 4 (blockWord (tableBlock s t (a / 4)))) (a % 4)
    | .lost l n => if a < 64 * 262144 then BitVec.ofNat 8 (nth 0 (nth [] l (a / 64)) (a % 64)) else nth 0 (leBytes 4 n) (a % 4)

/-- The payload of a segment. -/
def payloadBytes (s : State) (g : Segment) : List Byte := (List.range (payloadLength s g.body)).map (payloadByte s g)

/-- A segment's header (R398). The spec names its fields and gives them no places (DESIGN CHOICE, log entry 8). -/
def segmentHeader (s : State) (g : Segment) : List Byte :=
  leBytes 2 g.index ++ leBytes 6 g.startChunk ++ leBytes 2 g.startRec ++ leBytes 1 g.iuSize ++ leBytes 4 g.codeId
    ++ leBytes 4 (payloadLength s g.body) ++ leBytes 4 (crc32c (payloadBytes s g)).toNat

/-- Page p of a segment: the header page, then 2,048 payload pages; a last stripe is completed with filler (R398; DESIGN CHOICE, log
entry 8). -/
def segmentElement (s : State) (g : Segment) (p : Nat) : Element :=
  if p = 0 then systemElement 5 fun w => if w = 0 then blkOf (segmentHeader s g) else 0
  else if p ≤ 2048 then systemElement 5 fun w => blkOf ((List.range 4096).map fun i => payloadByte s g (16384 * (p - 1) + 4096 * w + i))
  else fillerElement

/-- Program the page of one member of a stripe of system pages with the next position of its block; the start counts for the pause of its
channel (R236, R238, R252). Nothing is programmed on a lost member or a failed block. -/
def programMember (sb : Nat) (t : Stripe) (s : State) (m : Nat) : State :=
  match findSb s sb with
  | none => s
  | some b =>
    let idx := blockIdx s t.k m
    let d := t.k % diesPerChan s
    let q := t.k / diesPerChan s
    if idx ∈ b.lost ∨ onFailed b idx then s
    else
      let temp := ((chanTemp s (nth 0 b.chans m)).map (clampInt (-128) 127)).getD (-128)
      let marked := { b with marks := tput none b.marks idx (some (temp, powerOnMin s, mapEpoch s)) }
      let key := pageKey (sbDie s b m d) (sbBlock s b m d) q
      let s := s.onMedia fun x => { x with pages := tput none x.pages key (some (pageImage s marked m d q t)) }
      modChan (modSb s sb fun x => { x with passes := tput (0, 0) x.passes idx (q + 1, q + 1) }) (nth 0 b.chans m) fun c =>
        { c with lastStart := some s.now }

/-- A stripe of sixteen elements, with its P and Q (R297, R303). -/
def stripeOf (sb k : Nat) (el : Nat → Element) : Stripe :=
  (List.range 16).foldl (fun t j => addElement t j (el j)) (emptyStripe sb k)

/-- Program n stripes of system pages into a journal super-block, from its next 64 KiB slot on (R238, R397, R398, R401). -/
def programSystem (s : State) (sb n : Nat) (el : Nat → Element) : State :=
  match findSb s sb with
  | none => s
  | some b =>
    let k := b.nextSlot / 4
    let one := fun (s : State) (i : Nat) => (List.range 18).foldl (programMember sb (stripeOf sb (k + i) fun j => el (16 * i + j))) s
    modSb ((List.range n).foldl one s) sb fun x => { x with nextSlot := x.nextSlot + 4 * n }

end Sys2Proof.Machine
end

