-- ==== Sys2Proof/Machine/Ops.lean ====
section
/-! DEFINITION. Operations every family shares: the clock, completions and their Do Not Retry bit (R74, R643),
asynchronous notices (R81, R355, R619), PME (R65), the MRAM ring (R388 to R395), request tokens (R123 to R127), and
sequence numbers with the seal horizon (R75, R76, R148). -/
namespace Sys2Proof.Machine

/-! ### Time -/

/-- What an empty queue does: one microsecond passes on HK_OSC (DESIGN CHOICE, log entry 4). -/
def idleTick (s : State) : State := { s with now := s.now + 1 }

/-- µs since the start of start-up (FH_FIRST.time_us). -/
def sinceStart (s : State) : Nat := (s.now - s.boot.ts) % 4294967296

/-- The host timestamp now, ms: it runs on from the value last set, and is 0 if it was never set (R352). -/
def hostStamp (s : State) : Nat :=
  match s.path.timestampAt with
  | none => 0
  | some t => s.path.timestamp + (s.now - t) / 1000

/-- A deadline `us` after `t` has been reached (expiry rows are no earlier than their time; log entry 6). -/
def elapsed (s : State) (t us : Nat) : Bool := decide (t + us ≤ s.now)

/-! ### Ports -/

/-- The enabled ports: both in dual x2 mode, A alone in single x4 mode (R42, R53). -/
def ports (s : State) : List PortId := if s.boot.strapPort then [.A, .B] else [.A]

/-- HFEx_LINK.link_up: L0, L0p, L1 or Recovery (R97). -/
def linkUp (p : Port) : Bool :=
  match p.ltssm with
  | .l0 | .l0p | .l1 | .recovery => true
  | _ => false

/-- A port's link counts as down (R103). -/
def linkIsDown (p : Port) : Bool := !linkUp p || p.perst

/-- Both ports see commands of the owner. -/
def isOwner (s : State) (p : PortId) : Bool := decide (s.own.owner = p)

/-! ### Drive state -/

/-- The drive state of R9, from the four conditions of R47; `throttle` is thermal, then power. -/
def driveStateOf (latch halt : Bool) (mode : Nat) (thermal power : Bool) : Nat :=
  if latch then 5 else if halt then 2 else if mode = 2 then 4 else if mode = 1 then 3
  else if thermal || power then 1 else 0

/-- Thermal throttling is in effect (R484). -/
def throttleThermal (s : State) : Bool := decide (0 < s.hk.level)

/-- Power throttling is in effect: the drive's power state is PS1 or PS2 (R492). -/
def throttlePower (s : State) : Bool := decide (s.misc.drivePs = 1) || decide (s.misc.drivePs = 2)

def driveState (s : State) : Nat :=
  driveStateOf s.fh.latch s.hk.halt s.mediaMode (throttleThermal s) (throttlePower s)

/-- PME for a change of the drive state into HALTED, PRESERVE or SAFE: WAKE# where the link is in L2, a message from D3hot
(R63, R65); a function in D0 sends none. -/
def signalPmeOn (p : Port) : Port :=
  if !p.pmeEn then p
  else if p.inL2 then { p with wake := true }
  else if p.d3hot then { p with pmeSent := p.pmeSent + 1 }
  else p

/-- Signal PME where the drive state of `s` differs from that of `old` and is HALTED, PRESERVE or SAFE (R65). -/
def pmeOnChange (old s : State) : State :=
  let d := driveState s
  if d ≠ driveState old ∧ (d = 2 ∨ d = 3 ∨ d = 5) then s.onBoth signalPmeOn else s

/-- Media activity, packing and map updates go on: not in SAFE, in a flush or after one, and not before recovery (R376, R382,
R524, R559). -/
def mediaLive (s : State) : Bool :=
  !s.fh.latch && match s.run with
    | .running | .recovery | .subsystemReset => true
    | _ => false

/-! ### Completions -/

/-- Do Not Retry outside SAFE (R618, R643). -/
def dnrOf (mediaMode : Nat) (st : Status) : Bool :=
  match st with
  | .ownershipNotHeld | .tokenConflict | .writeFault | .unrecoveredReadError | .invalidField | .invalidLogPage
  | .invalidOpcode | .invalidFirmwareSlot | .invalidFirmwareImage | .sglTypeInvalid | .nsInsufficientCapacity
  | .nsIdUnavailable | .controllerListInvalid | .abortLimitExceeded | .aerLimitExceeded | .accessDenied => true
  | .nsWriteProtected => decide (mediaMode ≠ 0)
  | _ => false

/-- Room for one more entry in a completion queue. -/
def cqRoom (q : Cq) : Bool := decide ((q.tail + q.size - q.head) % q.size + 1 < q.size)

/-- Put an entry into its completion queue, or hold it until the queue has room. The admin queue has no doorbell in this
model and always has room (log entry 7). -/
def pushCqe (p : Port) (c : Cqe) : Port :=
  match p.sqs.find? fun q => q.id = c.sq with
  | none => { p with cqes := p.cqes ++ [c] }
  | some q =>
    match p.cqs.find? fun r => r.id = q.cqid with
    | none => { p with cqes := p.cqes ++ [c] }
    | some r =>
      if cqRoom r then
        { p with cqes := p.cqes ++ [c]
                 cqs := p.cqs.map fun x => if x.id = r.id then { x with tail := (x.tail + 1) % x.size } else x }
      else { p with waitingCqes := p.waitingCqes ++ [c] }

def postCqe (s : State) (p : PortId) (c : Cqe) : State := s.onPort p fun pt => pushCqe pt c

/-- Post the completion of an admin command. -/
def adminDone (s : State) (a : AdminId) (st : Status) (dw0 : BitVec 32 := 0) (dw1 : BitVec 32 := 0) : State :=
  postCqe s a.port { sq := 0, cid := a.cid, status := st, dnr := dnrOf s.mediaMode st, dw0 := dw0, dw1 := dw1 }

/-- A command refused under R525, with Do Not Retry set (R643). -/
def refuseInSafe (s : State) (a : AdminId) : State :=
  postCqe s a.port { sq := 0, cid := a.cid, status := .commandSequenceError, dnr := true, dw0 := 0, dw1 := 0 }

def sameCmd (sq cid : Nat) (c : OutCmd) : Bool := decide (c.sq = sq) && decide (c.entry.cid = cid)

def findCmd (s : State) (p : PortId) (sq cid : Nat) : Option OutCmd := (s.port p).cmds.find? (sameCmd sq cid)

def modCmd (s : State) (p : PortId) (sq cid : Nat) (f : OutCmd → OutCmd) : State :=
  s.onPort p fun pt => { pt with cmds := pt.cmds.map fun c => if sameCmd sq cid c then f c else c }

/-- Take a command out of the port's outstanding commands; its slot is free again (R68, R70). -/
def dropCmd (s : State) (p : PortId) (sq cid : Nat) : State :=
  let s := s.onUpkeep fun u => { u with idleSince := s.now }
  s.onPort p fun pt => { pt with cmds := pt.cmds.filter fun c => !sameCmd sq cid c }

/-- Post the completion of an outstanding I/O command (R74). -/
def ioDone (s : State) (p : PortId) (sq cid : Nat) (st : Status) (dw0 : BitVec 32 := 0) (dw1 : BitVec 32 := 0) : State :=
  postCqe (dropCmd s p sq cid) p
    { sq := sq, cid := cid, status := st, dnr := dnrOf s.mediaMode st, dw0 := dw0, dw1 := dw1 }

/-! ### Asynchronous notices -/

/-- The enabling bit of a page's notice: 16 + (page − C0h), or bit 11 for the ANA notice (page 0Ch) (R81, R619). -/
def noticeBit (page : Nat) : Nat := if 0xC0 ≤ page then 16 + (page - 0xC0) else 11

/-- DW0 of an event answer: type 7 for a vendor notice (R619); the ANA Change notice is type 2, information 3
(PRESUMED from the NVMe base specification, log entry 3). -/
def noticeDw0 (page : Nat) : BitVec 32 := BitVec.ofNat 32 ((if 0xC0 ≤ page then 7 else 0x302) + page * 65536)

/-- Answer an outstanding Asynchronous Event Request with a notice. -/
def answerAer (p : Port) (page cid : Nat) : Port :=
  pushCqe { p with aers := p.aers.tail } { sq := 0, cid := cid, status := .success, dnr := false, dw0 := noticeDw0 page, dw1 := 0 }

/-- A notice becomes due on one controller (R355). `again` lets it through a wait for the page's read (R363 for C5h). -/
def dueOn (p : Port) (page : Nat) (again : Bool) : Port :=
  if !p.asyncCfg.getLsbD (noticeBit page) || (decide (page ∈ p.blocked) && !again) then p
  else
    let q := if 0xC0 ≤ page then { p with blocked := addOnce page p.blocked } else p
    match q.aers with
    | [] => { q with kept := addRising page q.kept }
    | cid :: _ => answerAer q page cid

/-- A notice becomes due on each controller that has it enabled (R355, R619). -/
def notice (s : State) (page : Nat) (again : Bool := false) : State :=
  (ports s).foldl (fun s p => s.onPort p fun pt => dueOn pt page again) s

/-! ### The MRAM ring -/

/-- A chunk slot can be reused once the chunk it held is in the delta log (R397). -/
def ringSlotFree (s : State) : Bool := decide ((s.journal.chunks.filter fun c => !c.inDelta).length < 12)

/-- Open the next chunk with its header (R388, R390). -/
def openChunk (s : State) : State :=
  s.onJournal fun j => { j with
    chunks := j.chunks ++ [{ serial := j.nextSerial, openedMin := powerOnMin s }]
    nextSerial := j.nextSerial + 1
    laps := if j.nextSerial ≠ 0 ∧ j.nextSerial % 12 = 0 then j.laps + 1 else j.laps }

def modChunk (s : State) (serial : Nat) (f : Chunk → Chunk) : State :=
  s.onJournal fun j => { j with chunks := j.chunks.map fun c => if c.serial = serial then f c else c }

/-- Chunks of the delta log that scrub found failing and that are programmed again now; none while the clean flag is set (R402,
R414). -/
def chunksAgain (s : State) (room : Nat) : List Nat :=
  if s.journal.anchor.clean then []
  else (s.upkeep.chunkAgain.filter fun n => s.journal.chunks.any fun c => decide (c.serial = n) && c.inDelta).take room

/-- No new die operation starts for system pages: the drive is halted, or in PS3 or PS4 other than while staging is written (R92, R489). -/
def systemIdle (s : State) : Bool := s.hk.halt || (decide (3 ≤ s.misc.drivePs) && decide (s.misc.psEntering ≠ some 4))

/-- The open journal super-block whose blocks are all erased and checked (R214, R401). -/
def journalSb (s : State) : Option SuperBlock :=
  s.media.sbs.find? fun b => decide (b.use = .journal) && decide (b.st = .isOpen) && b.toErase.isEmpty

/-- Program a closed chunk into a journal super-block: 64 delta-log pages, four stripes (R397). -/
def programChunk (sb : Nat) (s : State) (c : Chunk) : State :=
  let at' := (findSb s sb).map fun b => (sb, b.nextSlot / 4)
  let s := programSystem s sb 4 (chunkElement c)
  let s := s.onJournal fun j => { j with chunks := j.chunks.map fun x => if x.serial = c.serial then { x with inDelta := true, place := at' } else x }
  let s := s.onMedia fun m => { m with sbs := m.sbs.map fun x => { x with chunks := x.chunks.filter (· ≠ c.serial) } }
  modSb s sb fun x => { x with chunks := x.chunks ++ [c.serial] }

/-- Program the closed chunks that are not yet in the delta log, and those that scrub found failing, into the current delta-log
super-block: four stripes of sixteen pages each (R397, R402). Without a ready one the chunks wait in their slots. A closing and its
programs are one step (spec/95, CHUNK_CLOSE; log entry 8). -/
def deltaProgram (s : State) : State :=
  match (if systemIdle s then none else journalSb s) with
  | none => s
  | some b =>
    let room := (stripesIn s 0 * 4 - b.nextSlot) / 16
    let new := (s.journal.chunks.filter fun c => c.closed && !c.inDelta).take room
    let again := chunksAgain s (room - new.length)
    let s := s.onUpkeep fun u => { u with chunkAgain := u.chunkAgain.filter fun n => !decide (n ∈ again) }
    (new ++ s.journal.chunks.filter fun c => decide (c.serial ∈ again)).foldl (programChunk b.num) s

/-- Close the chunk being filled: its unused records are PAD (R388), and its delta-log pages are programmed. -/
def closeChunk (s : State) : State :=
  match openSerial s with
  | none => s
  | some n =>
    let s := modChunk s n fun c => { c with closed := true }
    deltaProgram (s.onJournal fun j => { j with chunksSince := j.chunksSince + 1 })

/-- MJ_RATE counts records by whole seconds: a second that has passed becomes the rate, a longer pause a rate of 0. -/
def rateSecond (now : Nat) (j : Journal) : Journal :=
  if j.rateFrom + 1000000 ≤ now then
    { j with rateLast := if j.rateFrom + 2000000 ≤ now then 0 else j.rateNow, rateNow := 0, rateFrom := now / 1000000 * 1000000 }
  else j

/-- The limit of R393 counts bytes by windows of 100 ms. -/
def rateWindow (now : Nat) (j : Journal) : Journal :=
  if j.windowFrom + 100000 ≤ now then { j with windowBytes := 0, windowFrom := now / 100000 * 100000 } else j

/-- One more record of 16 bytes. -/
def rateMore (j : Journal) : Journal := { j with rateNow := j.rateNow + 1, windowBytes := j.windowBytes + 16 }

/-- Count one record for MJ_RATE and for the limit of R393. -/
def countRecord (s : State) : State := s.onJournal fun j => rateMore (rateWindow s.now (rateSecond s.now j))

/-- A chunk is open, where a slot is free. -/
def withOpenChunk (s : State) : State := if (openSerial s).isNone then openChunk s else s

/-- A record goes to the end of the open chunk; a chunk holds 65,536 records, its header the first (R388, R391). -/
def putRecord (s : State) (n : Nat) (r : Rec) : State :=
  let s := modChunk s n fun c => { c with recs := c.recs ++ [r], firstAt := some (c.firstAt.getD s.now) }
  if s.journal.chunks.any fun c => decide (c.serial = n) && decide (65535 ≤ c.recs.length) then closeChunk s else s

/-- A record goes into the open chunk; without one, every slot being taken, it is not written. -/
def putOpen (s : State) (r : Rec) : State :=
  match openSerial s with
  | none => s
  | some n => putRecord s n r

/-- Write a record to the ring (R388, R391). -/
def jot (s : State) (r : Rec) : State := putOpen (withOpenChunk (countRecord s)) r

def jotAll (s : State) (rs : List Rec) : State := rs.foldl jot s

/-- MAP may write a version's records now: a chunk slot is free and the rate of R393 is kept. -/
def ringReady (s : State) (n : Nat) : Bool :=
  ((openSerial s).isSome || ringSlotFree s)
    && (decide (s.journal.windowFrom + 100000 ≤ s.now) || decide (s.journal.windowBytes + 16 * n ≤ 2000000))

/-- Write the anchor: the values of R396 as they stand. -/
def putAnchor (s : State) (f : Anchor → Anchor) : State :=
  s.onJournal fun j => { j with anchor := { f j.anchor with written := true, serial := j.anchor.serial + 1 } }

/-! ### Request tokens -/

/-- Fingerprint over the command dwords and the host's data buffer (R123): CRC-32C (the spec names no function, DESIGN
CHOICE, log entry 9). -/
def tokenPrint (dwords : List Nat) (buffer : List Byte) : BitVec 32 := crc32c (dwords.flatMap (leBytes 4) ++ buffer)

/-- What a port's store says of a vendor command (R124 to R126). -/
inductive TokenAnswer where
  | fresh
  | stored (t : Token)
  | conflict
  deriving DecidableEq, Repr

def tokenLook (p : Port) (token opcode : Nat) (print : BitVec 32) : TokenAnswer :=
  if token = 0 then .fresh
  else match p.tokens.find? fun t => t.token = token with
    | none => .fresh
    | some t => if t.opcode = opcode ∧ t.print = print then .stored t else .conflict

/-- Store a token, dropping the oldest beyond 32 (R123, R124, R127). -/
def tokenStore (p : Port) (t : Token) : Port :=
  if t.token = 0 then p
  else
    let l := p.tokens ++ [t]
    { p with tokens := if 32 < l.length then l.drop (l.length - 32) else l }

/-- A Seal that ends with a status before it is evaluated: its token is stored, unless it is stored already or is another request's
(R123, R127). -/
def noteSeal (s : State) (c : OutCmd) (st : Status) : State :=
  match c.entry.op with
  | .seal pad token bad =>
    let print := tokenPrint [token, b2n pad, 0, b2n bad, 0, 0] []
    match tokenLook (s.port c.port) token 0x81 print with
    | .fresh => s.onPort c.port fun p => tokenStore p ⟨token, 0x81, print, st, 0, 0⟩
    | _ => s
  | _ => s

/-- End an I/O command with a status before it is executed; a Seal's token is stored (R74, R127). -/
def ioEnd (s : State) (c : OutCmd) (st : Status) : State := ioDone (noteSeal s c st) c.port c.sq c.entry.cid st

/-- Complete a vendor admin command and store its token; repeats held meanwhile complete with the same result (R127). -/
def vendorDone (s : State) (a : AdminId) (t : Token) : State :=
  let s := adminDone (s.onPort a.port fun p => tokenStore p t) a t.status t.dw0 t.dw1
  let reps := (s.port a.port).heldRepeats.filter fun h => decide (h.1 = t.token) && decide (t.token ≠ 0)
  let s := s.onPort a.port fun p => { p with heldRepeats := p.heldRepeats.filter fun h => !(decide (h.1 = t.token) && decide (t.token ≠ 0)) }
  reps.foldl (fun s h => adminDone (s.onPort a.port fun p => { p with tokenHits := satAdd 255 p.tokenHits 1 })
    { a with cid := h.2 } t.status t.dw0 t.dw1) s

/-- A vendor command that SAFE or recovery refuses: its token is stored with the status, unless it is stored already or is another
request's (R127, R525, R566). -/
def noteRefused (s : State) (a : AdminId) (token opcode : Nat) (print : BitVec 32) : State :=
  match tokenLook (s.port a.port) token opcode print with
  | .fresh => s.onPort a.port fun p => tokenStore p ⟨token, opcode, print, .commandSequenceError, 0, 0⟩
  | _ => s

/-- Evaluate a vendor admin command in the order of R614: SAFE, token, fields, ownership, execution. `run` executes it;
`held` says that the same request is still executing (R127). -/
def vendorCmd (s : State) (a : AdminId) (token opcode : Nat) (print : BitVec 32) (fieldsBad needOwner held : Bool)
    (run : State → State) : State :=
  if s.fh.latch then refuseInSafe (noteRefused s a token opcode print) a
  else if held then s.onPort a.port fun p => { p with heldRepeats := p.heldRepeats ++ [(token, a.cid)] }
  else match tokenLook (s.port a.port) token opcode print with
    | .stored t => adminDone (s.onPort a.port fun p => { p with tokenHits := satAdd 255 p.tokenHits 1 }) a t.status t.dw0 t.dw1
    | .conflict => adminDone (s.onPort a.port fun p => { p with tokenConflicts := satAdd 255 p.tokenConflicts 1 }) a .tokenConflict
    | .fresh =>
      if fieldsBad then vendorDone s a ⟨token, opcode, print, .invalidField, 0, 0⟩
      else if needOwner && !isOwner s a.port then vendorDone s a ⟨token, opcode, print, .ownershipNotHeld, 0, 0⟩
      else run s

/-! ### Sequence numbers and the horizon -/

/-- A stripe is complete: every element that does not lie on a lost member or on a failed block, at whatever position, is programmed
with its last pass and paired-page safe, P and Q among them (R148, R341). -/
def stripeDone (s : State) (t : Stripe) : Bool :=
  match findSb s t.sb with
  | none => true
  | some b =>
    (List.range 18).all fun m =>
      decide (blockIdx s t.k m ∈ b.lost) || onFailed b (blockIdx s t.k m)
        || wlSafe s b.mode (tget (0, 0) b.passes (blockIdx s t.k m)) (wlOf b.mode (t.k / diesPerChan s))

/-- Data of a sequence number is not yet paired-page safe, a record of what it trims is not in the ring, or a stripe that holds its
data is not complete (R148, R149). -/
def seqBusy (s : State) (n : Nat) : Bool :=
  (s.path.flacons.any fun e => decide (e.2.st ≠ .safe) && e.2.subs.any fun x => decide (x.seq = n))
    || (s.path.trims.any fun t => decide (t.seq = n))
    || (s.media.stripes.any fun t => !stripeDone s t && t.elems.any fun e =>
        match e.2 with
        | none => false
        | some el => decide (el.kind = 0) && el.entries.any fun x => decide (entrySeq x = n) && decide (entryKind x ≤ 1))

/-- A number is Sealed by itself: retired, or Protected with nothing left to place (R76, R148, R149). -/
def seqSealed (s : State) (r : SeqRec) : Bool := r.sealedSelf || (r.protAt.isSome && !seqBusy s r.seq)

/-- Drop the leading Sealed numbers. -/
def dropSealed (s : State) : List SeqRec → List SeqRec
  | [] => []
  | r :: rs => if seqSealed s r then dropSealed s rs else r :: rs

/-- Complete the Flush and FUA commands of a port that the horizon has reached (R151, R153). -/
def horizonDone (s : State) (p : PortId) : State :=
  (s.port p).cmds.foldl (fun s c =>
    match c.entry.op with
    | .flush =>
      if c.stage = .running ∧ (c.snapshot.getD 0) ≤ s.path.horizon ∧ c.snapshot.isSome then
        ioDone s p c.sq c.entry.cid .success (BitVec.ofNat 32 s.path.horizon)
      else s
    | _ =>
      if c.prot ∧ c.fua then
        match c.seq with
        | some n => if n ≤ s.path.horizon then ioDone s p c.sq c.entry.cid .success (BitVec.ofNat 32 n) else s
        | none => s
      else s) s

/-- Move the seal horizon as far as it goes, journal it, and complete what waits for it (R148). -/
def advanceHorizon (s : State) : State :=
  let left := dropSealed s s.path.unsealed
  let h := match left with
    | [] => s.path.nextSeq - 1
    | r :: _ => r.seq - 1
  let s := s.onPath fun p => { p with unsealed := left }
  if h ≤ s.path.horizon then s
  else
    let s := jot (s.onPath fun p => { p with horizon := h }) (.horizon h)
    horizonDone (horizonDone s .A) .B

/-- Assign the next sequence number (R75). -/
def assignSeq (s : State) (p : PortId) : State × Nat :=
  let n := s.path.nextSeq
  (s.onPath fun x => { x with nextSeq := n + 1, unsealed := x.unsealed ++ [{ seq := n, port := p }] }, n)

/-- Retire a number (R76). -/
def retireSeq (s : State) (n : Nat) : State :=
  s.onPath fun x => { x with unsealed := x.unsealed.map fun r => if r.seq = n then { r with sealedSelf := true } else r }

/-- Mark a number as Protected now. -/
def protectSeq (s : State) (n : Nat) : State :=
  s.onPath fun x => { x with unsealed := x.unsealed.map fun r => if r.seq = n then { r with protAt := some (r.protAt.getD s.now) } else r }

/-- A number can be assigned below the ceiling in force (R394). -/
def seqAllowed (s : State) : Bool := decide (s.path.nextSeq ≤ s.path.ceiling)

end Sys2Proof.Machine
end

