-- ==== Sys2Proof/Machine/MapOps.lean ====
section
/-! DEFINITION. Operations of MAP: what a read selects (R134, R183), overlay entries and reservations (R188 to R193),
applying versions and copies (R138, R186, R187, R191), unrecoverable IUs and the Lost-IU log (R351 to R355). -/
namespace Sys2Proof.Machine

/-! ### Valid counts -/

/-- Add to the valid count of the super-block of a physical IU address (R187). -/
def addValid (s : State) (pa n : Nat) : State := modSb s (pa / slotsS s) fun b => { b with valid := b.valid + n }
def subValid (s : State) (pa n : Nat) : State := modSb s (pa / slotsS s) fun b => { b with valid := b.valid - n }

/-! ### What a read selects -/

/-- Where the selected version of a sub-unit is (R134, R135, R183). -/
inductive Sel where
  | pending (seq : Nat)
  | staged (flacon seq : Nat)
  | zeros
  | media (pa sub kind : Nat)
  | poisoned
  deriving DecidableEq, Repr

/-- The sub-unit's content in the map and the overlay (R183). -/
def selMap (s : State) (mi sub : Nat) : Sel :=
  let e := lookupMap s mi
  match (if e.overlay then ovlFind s mi sub else none) with
  | some o => if o.trimmed then .zeros else .media o.pa o.psub 1
  | none => if e.valid then .media e.pa sub 0 else if e.poisoned then .poisoned else .zeros

/-- Staged versions of a sub-unit that hold data: flacon and place. -/
def stagedSubs (s : State) (nsid iu sub : Nat) : List (Nat × FSub) :=
  s.path.flacons.flatMap fun e => (e.2.subs.filter fun x =>
    decide (x.nsid = nsid) && decide (x.iu = iu) && decide (x.sub = sub) && !x.stale && decide (0 < x.seq)).map fun x => (e.1, x)

/-- Staged trims that cover a sub-unit. -/
def stagedTrims (s : State) (nsid iu sub : Nat) : List TrimVer :=
  s.path.trims.filter fun t => decide (t.nsid = nsid) && decide (t.iu = iu) && decide (sub ∈ t.subs) && !t.stale

/-- Every sub-unit of a version's IU has its data in flacons: the version is committed (R134's staging index). -/
def verCommitted (s : State) (nsid iu seq : Nat) : Bool :=
  s.path.flacons.all fun e => e.2.subs.all fun x =>
    !(decide (x.nsid = nsid) && decide (x.iu = iu) && decide (x.seq = seq)) || x.filled

/-- Applied number of a sub-unit (R191). -/
def appliedNo (s : State) (mi sub : Nat) : Nat := tget 0 s.path.applied (mi * 16 + sub)

/-- The highest of a list of numbers, 0 for none. -/
def maxOf (l : List Nat) : Nat := l.foldl max 0

/-- The newest version of a sub-unit that is not above the snapshot (R134, R135). -/
def selectSub (s : State) (n : Namespace) (iu sub snapshot : Nat) : Sel :=
  let mi := mapIndex s n iu
  let fs := (stagedSubs s n.nsid iu sub).filter fun x => decide (x.2.seq ≤ snapshot)
  let ts := (stagedTrims s n.nsid iu sub).filter fun t => decide (t.seq ≤ snapshot)
  let best := maxOf (fs.map (·.2.seq) ++ ts.map (·.seq))
  let app := appliedNo s mi sub
  if best = 0 ∨ (best < app ∧ app ≤ snapshot) then selMap s mi sub
  else match fs.find? fun x => x.2.seq = best with
    | none => .zeros
    | some x => if verCommitted s n.nsid iu best then .staged x.1 best else .pending best

/-! ### Overlay entries -/

/-- Mark or unmark the overlay bit by what the overlay holds (R180). -/
def fixOverlayBit (s : State) (mi : Nat) : State :=
  putMap s mi { getMap s mi with overlay := !(ovlOf s mi).isEmpty }

/-- Some version of the sub-unit, admitted or staged, still needs an entry. -/
def ovlWanted (s : State) (n : Namespace) (iu sub above : Nat) : Bool :=
  (s.path.flacons.any fun e => e.2.subs.any fun x =>
      decide (x.nsid = n.nsid) && decide (x.iu = iu) && decide (x.sub = sub) && decide (x.kind = 1) && !x.stale && !x.applied
        && (decide (x.seq = 0) || decide (above < x.seq)))
    || (s.path.trims.any fun t =>
      decide (t.nsid = n.nsid) && decide (t.iu = iu) && decide (sub ∈ t.subs) && !t.whole && !t.stale && decide (above < t.seq))
    || (s.portA.cmds ++ s.portB.cmds).any fun c =>
      decide (c.stage = .admitted) && decide (c.entry.nsid = n.nsid)
        && c.plans.any fun x => decide (x.iu = iu) && decide (x.kind = .overlay) && decide (sub ∈ x.subs)

/-- Remove the overlay entry of a sub-unit; where a higher staged overlay version waits, the entry stays held as its
reservation (R191). -/
def ovlRemove (s : State) (n : Namespace) (iu sub seq : Nat) : State :=
  let mi := mapIndex s n iu
  match ovlFind s mi sub with
  | none => s
  | some o =>
    let keep := ovlWanted s n iu sub seq
    let s := jot s (.ovlSet mi sub o.trimmed true o.pa o.psub seq)
    let drop := fun (e : OvlEntry) =>
      if e.bucket = o.bucket ∧ e.place = o.place then (if keep then some { e with held := true } else none) else some e
    let s := s.onPath fun p => { p with ovl := p.ovl.filterMap drop }
    fixOverlayBit (if o.trimmed then s else subValid s o.pa 1) mi

/-- Reserve an entry for a sub-unit that has none (R193). -/
def ovlReserve (s : State) (mi sub : Nat) : State :=
  if s.path.ovl.any fun e => decide (e.mapIndex = mi) && decide (e.sub = sub) then s
  else match ovlFree s mi with
    | none => s
    | some (b, pl) => s.onPath fun p => { p with ovl := p.ovl ++ [OvlEntry.mk b pl 0 0 0 false sub mi true] }

/-- Give back reservations that no admitted or staged version needs any more. -/
def ovlRelease (s : State) (n : Namespace) (iu : Nat) (subs : List Nat) : State :=
  let mi := mapIndex s n iu
  s.onPath fun p => { p with ovl := p.ovl.filter fun e =>
    !(decide (e.mapIndex = mi) && decide (e.sub ∈ subs) && e.held && !ovlWanted s n iu e.sub 0) }

/-- An entry takes the place of the sub-unit's entry or reservation, whose data stop to be valid, or the first free place
(R188, R189). -/
def ovlStore (s : State) (e : OvlEntry) : State :=
  match s.path.ovl.find? fun o => o.mapIndex = e.mapIndex ∧ o.sub = e.sub with
  | some o =>
    let s := if o.held || o.trimmed then s else subValid s o.pa 1
    s.onPath fun p => { p with ovl := p.ovl.map fun x =>
      if x.bucket = o.bucket ∧ x.place = o.place then { e with bucket := o.bucket, place := o.place } else x }
  | none =>
    match ovlFree s e.mapIndex with
    | none => s
    | some (b, pl) => s.onPath fun p => { p with ovl := p.ovl ++ [{ e with bucket := b, place := pl }] }

/-- Set the overlay entry of a sub-unit (R188, R189). -/
def ovlPlace (s : State) (mi sub : Nat) (trimmed : Bool) (pa psub seq : Nat) : State :=
  let s := jot s (.ovlSet mi sub trimmed false pa psub seq)
  let s := ovlStore s (.mk 0 0 (seq % 2 ^ 48) psub pa trimmed sub mi false)
  fixOverlayBit (if trimmed then s else addValid s pa 1) mi

/-! ### The Lost-IU log -/

/-- Bytes 0 to 55 of a Lost-IU entry (R606). -/
def lostBytes (e : LostIu) : List Byte :=
  leBytes 8 e.num ++ leBytes 4 e.nsid ++ leBytes 1 e.cause ++ leBytes 1 (b2n e.approx) ++ leBytes 2 0 ++ leBytes 8 e.first
    ++ leBytes 8 e.count ++ leBytes 4 e.minutes ++ leBytes 8 e.stamp ++ leBytes 8 e.seq ++ leBytes 4 0

/-- A Lost-IU entry from its bytes. -/
def lostOfBytes (b : List Byte) : LostIu :=
  let at' := fun o n => leNat ((b.drop o).take n)
  { num := at' 0 8, nsid := at' 8 4, cause := at' 12 1, approx := decide (at' 13 1 % 2 = 1), first := at' 16 8, count := at' 24 8,
    minutes := at' 32 4, stamp := at' 36 8, seq := at' 44 8 }

/-- The four LOST_IU records of an entry (R353, R390). -/
def lostRecs (e : LostIu) : List Rec :=
  (List.range 4).map fun i => .lostIu i (leNat (((lostBytes e).drop (14 * i)).take 14))

/-- The two entries of one namespace that lie closest in LBA order: their numbers (R353). -/
def closestLost (l : List LostIu) : Option (LostIu × LostIu) :=
  let pairs := l.flatMap fun a => (l.filter fun b => decide (b.nsid = a.nsid) && decide (a.first < b.first)).map fun b => (a, b)
  minBy (fun ab => ab.2.first - (ab.1.first + ab.1.count)) pairs

/-- Make room in a full log by merging (R353, R607). -/
def mergeLost (s : State) : State :=
  if s.upkeep.lost.length < 262144 then s
  else match closestLost s.upkeep.lost with
    | none => s
    | some (a, b) =>
      let m := { (if a.num < b.num then a else b) with first := a.first, count := b.first + b.count - a.first, approx := true }
      let gone := { (if a.num < b.num then b else a) with count := 0 }
      let merged := s.upkeep.lost.filterMap fun e => if e.num = m.num then some m else if e.num = gone.num then none else some e
      let s := s.onUpkeep fun u => { u with lostChange := u.lostChange + 1, lost := merged }
      jotAll s (lostRecs m ++ lostRecs gone)

/-- Enter an IU in the Lost-IU log: widen an entry it continues or precedes, or add one (R352, R353). -/
def addLost (s : State) (n : Namespace) (iu cause seq : Nat) : State :=
  let l := lbasPerIu s n
  let first := iu * l
  match s.upkeep.lost.find? fun e => e.nsid = n.nsid ∧ e.cause = cause ∧ (e.first + e.count = first ∨ first + l = e.first) with
  | some e =>
    let w := { e with first := min e.first first, count := e.count + l }
    let s := s.onUpkeep fun u => { u with lostChange := u.lostChange + 1, lost := u.lost.map fun x => if x.num = e.num then w else x }
    jotAll s (lostRecs w)
  | none =>
    let s := mergeLost s
    let e : LostIu := { num := s.upkeep.lostNext, nsid := n.nsid, first := first, count := l, cause := cause, minutes := powerOnMin s,
                        stamp := hostStamp s, seq := seq }
    let s := s.onUpkeep fun u => { u with lostChange := u.lostChange + 1, lostNext := u.lostNext + 1, lost := u.lost ++ [e] }
    notice (jotAll s (lostRecs e)) 0xC1

/-- Remove entries within whose range no IU is poisoned (R354). A removal is journalled as the entry with count 0
(DESIGN CHOICE, log entry 10). -/
def cleanLost (s : State) : State :=
  let dead := s.upkeep.lost.filter fun e =>
    match findNs s e.nsid with
    | none => true
    | some n => !((List.range (e.count / lbasPerIu s n)).any fun i =>
        (getMap s (mapIndex s n (e.first / lbasPerIu s n + i))).poisoned)
  if dead.isEmpty then s
  else
    let nums := dead.map (·.num)
    let s := s.onUpkeep fun u => { u with lostChange := u.lostChange + 1, lost := u.lost.filter fun e => !decide (e.num ∈ nums) }
    jotAll s (dead.flatMap fun e => lostRecs { e with count := 0 })

/-- An IU is unrecoverable: poison its map entry, drop the overlay entry of a lost overlay sub-unit, enter it in the log,
and count it (R351). An IU already poisoned by its base adds nothing. -/
def poisonIu (s : State) (n : Namespace) (iu cause seq : Nat) (ovlSub : Option Nat) : State :=
  let mi := mapIndex s n iu
  let s := match ovlSub with
    | none => s
    | some sub => ovlRemove s n iu sub 0
  let e := getMap s mi
  if e.poisoned then s
  else
    let e' := { e with poisoned := true, trimmed := false, valid := false }
    let s := jot s (.mapSet mi e' seq)
    let s := putMap s mi { getMap s mi with poisoned := true, trimmed := false, valid := false }
    let s := if e.valid then subValid s e.pa (subsPerIu s) else s
    let s := s.onUpkeep fun u => { u with mediaErrors := u.mediaErrors + 1 }
    addLost s n iu cause seq

/-! ### Applying versions -/

def setApplied (s : State) (mi sub seq : Nat) : State :=
  s.onPath fun p => { p with applied := tput 0 p.applied (mi * 16 + sub) seq }

/-- Forget the applied numbers of an IU once it has no staged version (R191). -/
def forgetApplied (s : State) (n : Namespace) (iu : Nat) : State :=
  let mi := mapIndex s n iu
  let staged := (s.path.flacons.any fun e => e.2.subs.any fun x => decide (x.nsid = n.nsid) && decide (x.iu = iu) && !x.stale)
    || (s.path.trims.any fun t => decide (t.nsid = n.nsid) && decide (t.iu = iu) && !t.stale)
  if staged then s else s.onPath fun p => { p with applied := p.applied.filter fun e => decide (e.1 / 16 ≠ mi) }

/-- Set an IU's base to a location, or to trimmed, and move the valid counts (R186, R187). -/
def setBase (s : State) (mi : Nat) (pa : Option Nat) (seq : Nat) : State :=
  let e := getMap s mi
  let e' : MapEntry := match pa with
    | some a => { e with poisoned := false, trimmed := false, valid := true, pa := a }
    | none => { e with poisoned := false, trimmed := true, valid := false, pa := 0 }
  let s := jot s (.mapSet mi e' seq)
  let s := putMap s mi e'
  let s := if e.valid then subValid s e.pa (subsPerIu s) else s
  match pa with
  | some a => addValid s a (subsPerIu s)
  | none => s

/-- A version of the IU has been applied: folds of it that are under way are stale (R200). -/
def killFolds (s : State) (nsid iu : Nat) : State :=
  s.onPath fun p => { p with copies := p.copies.map fun c =>
    if c.nsid = nsid ∧ c.iu = iu ∧ c.kind = .fold then { c with dead := true } else c }

/-- Apply a version of a whole IU: it applies for each sub-unit without a higher applied number (R138, R186, R191). -/
def applyWhole (s : State) (n : Namespace) (iu seq : Nat) (pa : Option Nat) : State :=
  let mi := mapIndex s n iu
  let subs := (List.range (subsPerIu s)).filter fun i => decide (appliedNo s mi i < seq)
  if subs.isEmpty then s
  else
    let s := killFolds (setBase s mi pa seq) n.nsid iu
    let s := subs.foldl (fun s i => setApplied (ovlRemove s n iu i seq) mi i seq) s
    if s.upkeep.lost.isEmpty then s else cleanLost s

/-- Apply an overlay sub-unit, or a trimmed one (R138, R190, R191, R198). -/
def applySub (s : State) (n : Namespace) (iu sub seq : Nat) (trimmed : Bool) (pa psub : Nat) : State :=
  let mi := mapIndex s n iu
  if seq ≤ appliedNo s mi sub then s else setApplied (killFolds (ovlPlace s mi sub trimmed pa psub seq) n.nsid iu) mi sub seq

end Sys2Proof.Machine
end

