-- ==== Sys2Proof/Machine/DieOps.lean ====
section
/-! DEFINITION. Operations of the sequencers and of WAS: the temperature of a channel (R475), the power governor's
budget (R492, R493), the order in which a die runs its operations (R243 to R250, R252), stripes and their parity (R297,
R303 to R305), program passes (R238 to R240), closings (R150, R341), and the states of flacons (R140). -/
namespace Sys2Proof.Machine

/-! ### The governor -/

/-- An entry into PS3 or PS4 is under way (R159). -/
def entersLow (s : State) : Bool := s.misc.psEntering.elim false fun t => decide (3 ≤ t)

/-- The NAND power budget B in mW (R492). Until an entry into PS3 or PS4 ends, operations under way finish and staging is written
at the full rate, so B is that of PS0 (R92; DEDUCED, log entry 32). -/
def budget (s : State) : Nat :=
  let b := s.policy.nandPowerBudget
  if entersLow s then b
  else match s.misc.drivePs with
  | 0 => b
  | 1 => b * 60 / 100
  | 2 => b * 35 / 100
  | _ => 0

/-- Weight of an operation's grant (R493). -/
def opWeight (s : State) (k : OpKind) : Nat :=
  match k with
  | .sense .. => s.image.timing.pDieRead
  | .marginCheck .. => s.image.timing.pDieRead
  | .coarse .. | .fine .. | .program .. => s.image.timing.pDieProg
  | .erase .. => s.image.timing.pDieErase

/-! ### The queue of a die -/

/-- Reads are the senses. -/
def isRead (k : OpKind) : Bool :=
  match k with
  | .sense .. => true
  | _ => false

/-- Queue an operation on a die (R243). -/
def queueOp (s : State) (die : Nat) (k : OpKind) (cls : Nat) : State :=
  modDie s die fun d => { d with queue := d.queue ++ [{ kind := k, cls := cls, queuedAt := s.now }] }

/-- The data elements of a stripe hold sub-units of the given numbers. -/
def stripeHolds (t : Stripe) (f : Nat → Bool) : Bool :=
  t.elems.any fun e => match e.2 with
    | some el => decide (el.kind = 0) && el.entries.any fun x => decide (entryKind x ≤ 1) && f (entrySeq x)
    | none => false

/-- A closing has put a filler page into the stripe (R150). -/
def stripeClosed (t : Stripe) : Bool := t.elems.any fun e => e.2.elim false fun el => decide (el.kind = 3)

/-- The highest number that a Flush or a FUA write waits for (R151, R153). -/
def flushGoal (s : State) : Nat :=
  maxOf ((s.portA.cmds ++ s.portB.cmds).filterMap fun c => match c.entry.op with
    | .flush => if c.stage = .running then c.snapshot else none
    | _ => if c.prot && c.fua then c.seq else none)

/-- A stripe whose programs are class 4: a closing has filled it, or it holds data that a Flush or a FUA write waits for (R150, R243). -/
def stripeHastens (s : State) (t : Stripe) : Bool :=
  stripeClosed t || stripeHolds t fun q => decide (s.path.horizon < q) && decide (q ≤ flushGoal s)

/-- The wordlines whose data a program of wordline wl makes paired-page safe: its own and, in QLC and TLC mode, the one before it in the
plane (R239). -/
def wlsServed (s : State) (b : SuperBlock) (wl : Nat) : List Nat := if b.mode = 0 ∨ wl % s.geo.wordlines = 0 then [wl] else [wl, wl - 1]

/-- A program of wordline wl of die slot d is a closing program, or a Flush or a FUA write waits for it (R150, R243). -/
def wlHastens (s : State) (b : SuperBlock) (d wl : Nat) : Bool :=
  (wlsServed s b wl).any fun w => (List.range (ppwOf b.mode)).any fun i =>
    match findStripe s b.num ((w * ppwOf b.mode + i) * diesPerChan s + d) with
    | some t => stripeHastens s t
    | none => false

/-- Scheduling class of a program of a super-block (R243, R321). -/
def programClass (s : State) (b : SuperBlock) (d wl : Nat) (closing : Bool) : Nat :=
  if closing || decide (b.st = .closing) || wlHastens s b d wl then 4
  else match b.use with
    | .rebuildDest => if s.policy.rebuildPriority = 2 then 5 else 6
    | .collection => 7
    | _ => 5

/-- The next pass of a block in program order, given the passes completed: coarse then fine for QLC, one pass otherwise
(R238). -/
def nextPass (b : SuperBlock) (idx : Nat) : OpKind × Nat :=
  let done := tget (0, 0) b.passes idx
  if b.mode = 2 then (if done.1 = done.2 then (.coarse b.num idx, done.1) else (.fine b.num idx, done.2))
  else (.program b.num idx, done.2)

/-- Class of a queued operation now: a program rises to class 4 when a closing, a Flush or a FUA write comes to wait for it (R243). -/
def clsOf (s : State) (o : DieOp) : Nat :=
  match o.kind with
  | .coarse sb idx | .fine sb idx | .program sb idx =>
    (findSb s sb).elim o.cls fun b => min o.cls (programClass s b (idx % diesPerChan s) (nextPass b idx).2 false)
  | _ => o.cls

/-- An operation of classes 4 to 9 that has waited 10 ms (R244). -/
def aged (s : State) (o : DieOp) : Bool := decide (4 ≤ clsOf s o) && decide (o.queuedAt + 10000 ≤ s.now)

/-- Order of an operation: its class doubled; an aged one stands just before class 3, unless one was served since the last
class 3 operation (R243, R244). Aged operations of different classes are served in the order in which they were queued (DESIGN CHOICE,
log entry 81). -/
def opRank (s : State) (d : Die) (o : DieOp) : Nat := if aged s o && !d.agedServed then 5 else 2 * clsOf s o

/-- No I/O command is outstanding on either port (R321, R337). -/
def noIo (s : State) : Bool := s.portA.cmds.isEmpty && s.portB.cmds.isEmpty

/-- Rebuild operations may run: with priority 0 only after 10 ms without an I/O command (R321). -/
def rebuildMay (s : State) : Bool := decide (s.policy.rebuildPriority ≠ 0) || (noIo s && elapsed s s.upkeep.idleSince 10000)

/-- A program. -/
def isProgram (k : OpKind) : Bool :=
  match k with
  | .coarse .. | .fine .. | .program .. => true
  | _ => false

/-- Erases and margin checks, which a super-block's formation waits for. -/
def readiesBlock (k : OpKind) : Bool :=
  match k with
  | .erase .. | .marginCheck .. => true
  | _ => false

/-- The activity is allowed by the state of the drive: halt admits class 1 only (R489), PS3 and PS4 admit class 1, and while an entry
into PS4 writes staging classes up to 5 and the erases and checks of the blocks that take it (R92, R214), DRYDOWN admits reads and
classes 1 and 4 (R365) and, until its entry ends, the erases and checks of the blocks that take staged data (R363; DEDUCED, log
entry 88), rebuild waits as its priority says (R321), and no program starts while the clean flag is set (R414). -/
def opAllowed (s : State) (o : DieOp) : Bool :=
  if o.cls = 1 then true
  else !s.hk.halt
    && (decide (s.misc.drivePs < 3) || ((decide (clsOf s o ≤ 5) || readiesBlock o.kind) && decide (s.misc.psEntering = some 4)))
    && (decide (s.mediaMode ≠ 2) || isRead o.kind || decide (clsOf s o = 4) || (s.upkeep.drydownEntry && readiesBlock o.kind))
    && (decide (clsOf s o ≠ 6) || rebuildMay s)
    && !(s.journal.anchor.clean && isProgram o.kind)

/-- The operations a die may start now: while an erase is suspended, reads of classes 3 and 6 to 8 only (R250). -/
def opChoices (s : State) (d : Die) : List DieOp :=
  d.queue.filter fun o => opAllowed s o &&
    (d.susp.isNone || (isRead o.kind && (decide (o.cls = 3) || decide (6 ≤ o.cls ∧ o.cls ≤ 8))))

/-- The operation that stands highest (R243, R244); the die is not released before the soft senses of a run-ahead read (R280). -/
def nextOp (s : State) (d : Die) : Option DieOp :=
  match (opChoices s d).find? (·.ahead) with
  | some o => some o
  | none => minBy (opRank s d) (opChoices s d)

/-- The channel's sequencer may start an operation on a die now: it is ACTIVE and the pause has passed, which class 1
ignores (R252, R254, R255). -/
def pauseOver (s : State) (ch : Nat) (cls : Nat) : Bool :=
  let c := getChan s ch
  decide (cls = 1) || decide (c.pauseUs = 0) || match c.lastStart with
    | none => true
    | some t => decide (t + c.pauseUs ≤ s.now)

/-- Give back the grant of a die (R246). -/
def returnGrant (s : State) (die : Nat) (o : DieOp) : State :=
  if o.granted then
    s.onHk fun h => { h with inUse := h.inUse - opWeight s o.kind, activeDies := h.activeDies.filter (· ≠ die) }
  else s

/-- Take queued operations off a die; the grants they hold return (R246). -/
def dropOps (s : State) (die : Nat) (f : DieOp → Bool) : State :=
  let gone := (getDie s die).queue.filter f
  modDie (gone.foldl (fun s o => returnGrant s die o) s) die fun d => { d with queue := d.queue.filter fun o => !f o }

/-- Begin an array operation on a die: an erase journals its begin record first (R247), the channel's latest start is
noted (R252). -/
def beginOp (s : State) (die : Nat) (o : DieOp) : State :=
  let s := match o.kind with
    | .erase b _ _ => jot s (.eraseBegin die b)
    | _ => s
  let s := modDie s die fun d => { d with
    busy := some o, queue := d.queue.erase o, runFrom := s.now
    agedServed := if o.cls = 3 then false else if aged s o then true else d.agedServed
    served := if d.susp.isSome && isRead o.kind then d.served + 1 else d.served
    suspends := match o.kind with
      | .erase .. => 0
      | _ => d.suspends }
  modChan s (dieChan die) fun c => { c with lastStart := some s.now }

/-! ### Stripes -/

/-- The stripes of a wordline of die slot d are packed, so that its pages can be programmed (R238, R240). -/
def wlReady (s : State) (b : SuperBlock) (d wl : Nat) : Bool :=
  (List.range (ppwOf b.mode)).all fun i =>
    match findStripe s b.num ((wl * ppwOf b.mode + i) * diesPerChan s + d) with
    | none => false
    | some t => stripeFull t

/-- A program of the block is queued or under way. -/
def programPending (s : State) (die : Nat) (sb idx : Nat) : Bool :=
  let d := getDie s die
  let isIt := fun (o : DieOp) => match o.kind with
    | .coarse x i | .fine x i | .program x i => decide (x = sb) && decide (i = idx)
    | _ => false
  d.queue.any isIt || match d.busy with
    | some o => isIt o
    | none => false

/-- Queue the next pass of one block of a super-block, if its data is packed (R238, R240). -/
def queueProgram (s : State) (sb m d : Nat) (closing : Bool) : State :=
  match findSb s sb with
  | none => s
  | some b =>
    let idx := m * diesPerChan s + d
    let die := sbDie s b m d
    let (k, wl) := nextPass b idx
    if decide (idx ∈ b.lost) || onFailed b idx || decide (idx ∈ b.toErase) || programPending s die sb idx || !wlReady s b d wl then s
    else queueOp s die k (programClass s b d wl closing)

/-- Queue the programs of a die slot on all eighteen channels. -/
def queuePrograms (s : State) (sb d : Nat) (closing : Bool) : State :=
  (List.range 18).foldl (fun s m => queueProgram s sb m d closing) s

/-- The stripe has its accumulator slot, or takes one now (R305). -/
def canOpenStripe (s : State) (sb k : Nat) : Bool := (findStripe s sb k).isSome || decide (slotsHeld s < 256)

def withStripe (s : State) (sb k : Nat) : State :=
  match findStripe s sb k with
  | some _ => s
  | none => s.onMedia fun m => { m with stripes := m.stripes ++ [emptyStripe sb k] }

/-- Put an element into stripe k; a full stripe queues the programs of its die slot. -/
def putElement (s : State) (sb k j : Nat) (e : Element) (closing : Bool) : State :=
  let s := modStripe (withStripe s sb k) sb k fun t => addElement t j e
  match findStripe s sb k with
  | some t => if stripeFull t then queuePrograms s sb (k % diesPerChan s) closing else s
  | none => s

/-- The elements of an IU slot from its sixteen or four sub-units (entry, ciphertext): four codewords an element. -/
def slotElements (s : State) (cws : List (BitVec 128 × Blk)) (poison : Bool) : List Element :=
  (List.range (elemsPerIu s)).map fun i =>
    let part := (List.range 4).map fun c => nth (fillerEntry, (0 : Blk)) cws (4 * i + c)
    { kind := 0, entries := part.map (·.1), data := part.map (·.2), poison := poison }

/-- The next IU slot of a super-block whose stripe was not added ahead as filler. -/
def freeSlotFrom (s : State) (b : SuperBlock) : Nat → Nat → Option Nat
  | 0, _ => none
  | n + 1, slot =>
    if slotsIn s b.mode ≤ slot then none
    else if slot / iusPerStripe s ∈ b.ahead then freeSlotFrom s b n ((slot / iusPerStripe s + 1) * iusPerStripe s)
    else some slot

def freeSlot (s : State) (b : SuperBlock) : Option Nat := freeSlotFrom s b (b.ahead.length + 1) b.nextSlot

/-- A full super-block is closed (R203, R329). -/
def closeFull (s : State) (sb : Nat) : State :=
  match findSb s sb with
  | none => s
  | some b =>
    if b.st = .isOpen ∧ freeSlot s b = none then
      modSb (jot s (.sbClose sb (positions s b.mode - 1) 0xFFFFFF)) sb fun x => { x with st := .closed }
    else s

/-- An open super-block of a use and handle with room for n IU slots, the oldest first. -/
def sbWithRoom (s : State) (u : SbUse) (h n : Nat) : Option SuperBlock :=
  minBy (·.serial) (s.media.sbs.filter fun b =>
    decide (b.use = u) && (decide (b.handle = h) || decide (u = .collection)) && decide (b.st = .isOpen) && decide (n ≤ slotsLeft s b))

/-- Pack one IU slot's worth of codewords into the next slot of a super-block, which is closed once it is full. none where it has no
room or no accumulator slot is free (R203, R305, R329). -/
def packSlot (s : State) (sb : Nat) (cws : List (BitVec 128 × Blk)) (poison : Bool) : Option (State × Nat) :=
  match findSb s sb with
  | none => none
  | some b =>
    match (if b.st = .isOpen then freeSlot s b else none) with
    | none => none
    | some slot =>
      let k := slot / iusPerStripe s
      if !canOpenStripe s sb k then none
      else
        let e0 := slot % iusPerStripe s * elemsPerIu s
        let es := slotElements s cws poison
        let s := modSb s sb fun x => { x with nextSlot := slot + 1 }
        let s := (List.range es.length).foldl (fun s i => putElement s sb k (e0 + i) (nth fillerElement es i) false) s
        some (closeFull s sb, slot)

/-! ### Closings -/

/-- Note a filler element that lies on a failed block of its super-block (R341). -/
def noteFiller (s : State) (sb k j : Nat) : State :=
  modSb s sb fun b =>
    if failedBelow b (blockIdx s k (memberSlot s k j)) (k / diesPerChan s) then { b with fillersOn := b.fillersOn ++ [(k, j)] } else b

/-- Fill the elements of a stripe that are not packed with filler pages (R150). -/
def fillStripe (s : State) (sb k : Nat) : State :=
  (List.range 16).foldl (fun s j =>
    match findStripe s sb k with
    | some t => if (tget none t.elems j).isNone then putElement (noteFiller s sb k j) sb k j fillerElement true else s
    | none => putElement (noteFiller s sb k j) sb k j fillerElement true) s

/-- Stripes of die slot d that must be programmed so that the data of wordline wl on it becomes paired-page safe: its own wordline and
the next one, unless wl is the last of its plane or the mode is SLC (R150, R239). -/
def stripesFor (s : State) (b : SuperBlock) (d wl : Nat) : List Nat :=
  let ppw := ppwOf b.mode
  let wls := if b.mode = 0 ∨ (wl + 1) % s.geo.wordlines = 0 then [wl] else [wl, wl + 1]
  wls.flatMap fun w => (List.range ppw).map fun i => (w * ppw + i) * diesPerChan s + d

/-- Those of them that nothing has been packed to: filler stripes are added there (R150). -/
def fillersFor (s : State) (b : SuperBlock) (d wl : Nat) : List Nat :=
  (stripesFor s b d wl).filter fun k =>
    decide (b.nextSlot ≤ k * iusPerStripe s) && !decide (k ∈ b.ahead) && (findStripe s b.num k).isNone

/-- A stripe is under way and not full. -/
def stripePart (s : State) (sb k : Nat) : Bool :=
  match findStripe s sb k with
  | some t => !stripeFull t
  | none => false

/-- Fill the rest of a stripe that is under way; the slot that comes next lies behind it (R150). -/
def endStripe (s : State) (sb k : Nat) : State :=
  if stripePart s sb k then fillStripe (modSb s sb fun x => { x with nextSlot := max x.nextSlot ((k + 1) * iusPerStripe s) }) sb k else s

/-- Add filler stripes of a super-block while accumulator slots are free; the rest wait (R150, R305). -/
def addFillers (s : State) (sb : Nat) : List Nat → State
  | [] => s
  | k :: ks =>
    if slotsHeld s < 256 then
      addFillers (fillStripe (modSb s sb fun b => { b with ahead := addRising k b.ahead, fillWait := b.fillWait.filter (· ≠ k) }) sb k) sb ks
    else addFillers (modSb s sb fun b => { b with fillWait := addRising k b.fillWait }) sb ks

/-- Close the stripes of a super-block that hold data passing a test, and add the filler stripes that make the data
paired-page safe (R150). A super-block that this fills is closed (R329). -/
def closeStripes (s : State) (sb : Nat) (f : Nat → Bool) : State :=
  match findSb s sb with
  | none => s
  | some b =>
    let held := (s.media.stripes.filter fun t => decide (t.sb = sb) && !stripeDone s t && stripeHolds t f).map (·.k)
    let wls := (held.map fun k => (k % diesPerChan s, wlOf b.mode (k / diesPerChan s))).dedup
    let needed := (wls.flatMap fun x => stripesFor s b x.1 x.2).filter (stripePart s sb)
    let s := (held ++ needed).dedup.foldl (fun s k => endStripe s sb k) s
    match findSb s sb with
    | none => s
    | some b => closeFull (addFillers s sb (wls.flatMap fun x => fillersFor s b x.1 x.2).dedup) sb

/-- Sequence numbers that are not yet Sealed up to n. -/
def closeUpTo (s : State) (n : Nat) : State :=
  (s.media.sbs.map (·.num)).foldl (fun s sb => closeStripes s sb fun q => decide (s.path.horizon < q) && decide (q ≤ n)) s

/-- An open super-block holds a number in (horizon, n] in a stripe that is not complete. -/
def stripeIncomplete (s : State) (n : Nat) : Bool :=
  s.media.stripes.any fun t => !stripeDone s t && stripeHolds t fun q => decide (q ≤ n)

/-- Record an FDP event while FDP is enabled (R88, R207): 1 not fully written, 2 time limit, 3 controller level reset,
4 invalid placement identifier, 5 media reallocated, 6 implicitly modified. -/
def fdpEvent (s : State) (code handle : Nat) : State :=
  if s.path.fdp && (tget 0 s.misc.features 0x1E).testBit code then s.onUpkeep fun u => { u with fdpEvents := u.fdpEvents ++ [(code, handle)] } else s

/-- Slots of a stripe: IU slots, or the four 64 KiB slots of a journal super-block. -/
def slotsPerStripe (s : State) (b : SuperBlock) : Nat := if b.use = .journal then 4 else iusPerStripe s

/-- Close a whole super-block: every stripe that holds data is closed, it takes no more stripes, and SB_CLOSE is
journalled with its last position and first failed position (R150, R205, R206, R329, R341, R390). -/
def closeSb (s : State) (sb : Nat) (qf : Option Nat) : State :=
  match findSb s sb with
  | none => s
  | some b =>
    if b.st = .closed then s
    else
      let s := closeStripes (modSb s sb fun x => { x with st := .closing }) sb fun _ => true
      let last := (b.nextSlot - 1) / slotsPerStripe s b / diesPerChan s
      let s := jot s (.sbClose sb last (qf.getD 0xFFFFFF))
      modSb s sb fun x => { x with st := if x.fillWait.isEmpty then .closed else .closing }

/-- Close a host reclaim unit before it is full, recording the FDP event (R207). -/
def closeUnit (s : State) (sb : Nat) (qf : Option Nat) : State :=
  match findSb s sb with
  | none => s
  | some b =>
    let s := if b.use = .hostRu ∧ b.nextSlot < slotsIn s b.mode then fdpEvent s 1 b.handle else s
    closeSb s sb qf

/-! ### Flacons -/

/-- Progress of a placement: 0 not programmed, 1 every wordline's last pass done, 2 all paired-page safe (R140, R239). -/
def placeDone (s : State) (pl : Place) : Nat :=
  match findSb s pl.sb with
  | none => 2
  | some b =>
    let cells := pl.slots.flatMap fun slot => (List.range (elemsPerIu s)).map fun i =>
      let k := slot / iusPerStripe s
      (memberSlot s k (slot % iusPerStripe s * elemsPerIu s + i) * diesPerChan s + k % diesPerChan s,
        wlOf b.mode (k / diesPerChan s))
    let on := fun (x : Nat × Nat) => tget (0, 0) b.passes x.1
    if cells.all fun x => wlSafe s b.mode (on x) x.2 then 2
    else if cells.all fun x => decide (x.2 < (on x).2) then 1
    else 0

/-- Bring the states of the flacons placed in a super-block up to date (R140, R240). -/
def refreshFlacons (s : State) (sb : Nat) : State :=
  let upd := fun (f : Flacon) => match f.place with
    | some pl =>
      if pl.sb = sb ∧ (f.st = .packed ∨ f.st = .programmed) then
        match placeDone s pl with
        | 2 => { f with st := .safe }
        | 1 => { f with st := .programmed }
        | _ => f
      else f
    | none => f
  s.onPath fun p => { p with flacons := p.flacons.map fun e => (e.1, upd e.2) }

/-- Of the sub-units at some places of the IU slots of a placement, how many lie on pages whose last pass is done. -/
def programmedUnits (s : State) (b : SuperBlock) (pl : Place) (is : List Nat) : Nat :=
  (is.filter fun i =>
    let slot := nth 0 pl.slots (i / subsPerIu s)
    let k := slot / iusPerStripe s
    lastPassed s b k (memberSlot s k (subElem s slot (i % subsPerIu s)).1)).length

/-- Units that are to be packed again were programmed in vain: they are claimed as before (R217). An SLC super-block's stay claimed
until it is released. -/
def claimAgain (s : State) (b : SuperBlock) (n : Nat) : State :=
  if b.use = .slc then modSb s b.num fun x => { x with claimUnits := x.claimUnits - n }
  else s.onPath fun p => { p with claimed := p.claimed + n }

/-- Data of a reclaim unit is packed again into another block (R207). -/
def reallocated (s : State) (b : SuperBlock) : State := if b.use = .hostRu then fdpEvent s 5 b.handle else s

/-- Return a flacon to READY, to be packed again (R143, R242, R256). -/
def repack (s : State) (i : Nat) : State :=
  match (getFlacon s i).place with
  | none => s
  | some pl =>
    match findSb s pl.sb with
    | none => modFlacon s i fun f => { f with st := .ready, place := none }
    | some b =>
      let n := programmedUnits s b pl (List.range (getFlacon s i).subs.length)
      reallocated (claimAgain (modFlacon s i fun f => { f with st := .ready, place := none }) b n) b

/-- Flacons with data on one block of a super-block that are not SAFE. -/
def flaconsOn (s : State) (sb idx : Nat) : List Nat :=
  (s.path.flacons.filter fun e => (decide (e.2.st = .packed) || decide (e.2.st = .programmed)) && match e.2.place with
    | some pl => decide (pl.sb = sb) && pl.slots.any fun slot => (List.range (elemsPerIu s)).any fun i =>
        let k := slot / iusPerStripe s
        decide (memberSlot s k (slot % iusPerStripe s * elemsPerIu s + i) * diesPerChan s + k % diesPerChan s = idx)
    | none => false).map (·.1)

/-- Copies with data on one block of a super-block that are not applied (R342). -/
def copiesOn (s : State) (sb idx : Nat) : List Copy :=
  s.path.copies.filter fun c => match c.place with
    | some pl => decide (pl.sb = sb) && pl.slots.any fun slot => (List.range (elemsPerIu s)).any fun i =>
        let k := slot / iusPerStripe s
        decide (memberSlot s k (slot % iusPerStripe s * elemsPerIu s + i) * diesPerChan s + k % diesPerChan s = idx)
    | none => false

/-- The units of a copy. -/
def copyUnits (s : State) (c : Copy) : Nat := if c.sub.isSome then 1 else subsPerIu s

/-- A copy loses the place it was packed to, and is packed again: it counts as copied out of its source once (R207, R217, R314, R339,
R342). -/
def unplaceCopy (s : State) (c : Copy) : State :=
  let s := modSb s c.sb fun b => { b with copied := b.copied - copyUnits s c }
  let s := s.onPath fun p => { p with copies := p.copies.map fun x => if x.id = c.id then { x with place := none } else x }
  match c.place.bind fun pl => findSb s pl.sb, c.place with
  | some b, some pl =>
    let is := if c.sub.isSome then [c.psub] else List.range (subsPerIu s)
    reallocated (if b.use = .hostRu then claimAgain s b (programmedUnits s b pl is) else s) b
  | _, _ => s

def unplaceCopies (s : State) (l : List Copy) : State := l.foldl unplaceCopy s

/-- staged_units: units of every flacon that is not FREE (R144). -/
def stagedUnits (s : State) : Nat := sumOf (fun (e : Nat × Flacon) => e.2.units) s.path.flacons

/-- Units in FREE flacons (R144). -/
def flaconFree (s : State) : Nat := 65536 - 16 * s.path.flacons.length

/-- The lowest FREE flacon number. -/
def firstFreeFrom (t : Tbl Flacon) : Nat → Nat → Nat
  | 0, i => i
  | n + 1, i => if t.any fun e => decide (e.1 = i) then firstFreeFrom t n (i + 1) else i

def firstFree (s : State) : Nat := firstFreeFrom s.path.flacons s.path.flacons.length 0

end Sys2Proof.Machine
end

