-- ==== Sys2Proof/Machine/UpkeepOps.lean ====
section
/-! DEFINITION. Operations of media upkeep: erase-count figures and spares (R345, R357, R358, R362), entry into PRESERVE
and DRYDOWN (R359, R363), taking blocks (R214), forming super-blocks (R298 to R300, R390), member losses (R313 to R316),
and releasing super-blocks (R330). -/
namespace Sys2Proof.Machine

/-! ### Figures -/

/-- Blocks of journal super-blocks: die and block. -/
def journalBlocks (s : State) : List Nat :=
  (s.media.sbs.filter fun b => b.use = .journal).flatMap fun b =>
    (List.range b.blocks.length).map fun i => blockKey (sbDie s b (i / diesPerChan s) (i % diesPerChan s)) (nth 0 b.blocks i)

/-- Blocks counted for the spread: good blocks of the erased, dirty and in-use pools, without checkpoint and delta-log
blocks and blocks on lost members (R345). -/
def countedBlocks (s : State) : List Block :=
  let skip := journalBlocks s
  ((allDies s).filter fun d => !dieLost s d).flatMap fun d =>
    ((List.range s.geo.blocksPerDie).filter fun b => !decide (blockKey d b ∈ skip)).filterMap fun b =>
      let x := getBlock s d b
      match x.pool with
      | .erased | .dirty | .inUse => some x
      | _ => none

def eraseCounts (s : State) : List Nat := (countedBlocks s).map (·.erases)
def eraseMax (s : State) : Nat := maxOf (eraseCounts s)
def eraseMin (s : State) : Nat := ((eraseCounts s).min?).getD 0

/-- Mean erase count (R358, R362). -/
def eraseMean (s : State) : Nat :=
  let l := eraseCounts s
  if l.isEmpty then 0 else l.sum / l.length

/-- The mean erase count reaches x / 100 (R358). -/
def meanReaches (s : State) (x : Nat) : Bool :=
  !(eraseCounts s).isEmpty && decide (x * (eraseCounts s).length ≤ 100 * (eraseCounts s).sum)

/-- The spread of erase counts (R345). -/
def eraseSpread (s : State) : Nat := eraseMax s - eraseMin s

/-- Good blocks, not retired, on dies not failed, of channels not failed (R357). -/
def goodBlocks (s : State) : Nat :=
  let dies := (allDies s).filter fun d => !dieLost s d
  let retired := (s.media.blocks.filter fun e => decide (e.1 / 1048576 ∈ dies) && decide (e.2.pool = .retired)).length
  dies.length * s.geo.blocksPerDie - retired

/-- Map entries of the drive (R176). -/
def mapEntries (s : State) : Nat := driveSegs s * perSeg s

/-- Map segments of a checkpoint set (R398). -/
def mapSegments (s : State) : Nat := ceilDiv (mapEntries s) 6553600

/-- Checkpoint segments of a set: map, 64 overlay, T0 and T1 (R398). -/
def segmentCount (s : State) : Nat := mapSegments s + 66

/-- The reserve of R647; 32.015625 MiB is 2,049 / 64. -/
def reserveOf (s : State) : Nat :=
  let n := segmentCount s
  let journal := ceilDiv ((2 * n * 2049 + 64 * (2 * n + 2)) * 1048576) (64 * sbUser s 0)
  let refuge := ceilDiv (2 * s.policy.refugeDies * (chansOn s).length) (18 * diesPerChan s)
  journal + refuge + 65

/-- spare_equiv (R357). -/
def spareEquiv (s : State) : Int :=
  ((goodBlocks s / (18 * diesPerChan s) : Nat) : Int) - ((ceilDiv s.image.ident.userCapacity (sbUser s (nativeMode s)) + s.upkeep.reserve : Nat) : Int)

/-- Channels that are not failed. -/
def chansGood (s : State) : Nat := ((chansOn s).filter fun c => !chanFailed s c).length

/-- A condition of R358 holds: spares, R300, or mean wear. -/
def preserveCond (s : State) : Bool :=
  decide (spareEquiv s < s.policy.spareMin) || decide (chansGood s < 18)
    || (decide (s.policy.preserveWear ≠ 0) && meanReaches s (s.policy.preserveWear * s.geo.peRated))

/-! ### Entry into DRYDOWN and PRESERVE -/

/-- Staged data waits to be packed. -/
def packLeft (s : State) : Bool :=
  s.path.flacons.any fun e => match e.2.st with
    | .packed | .programmed | .safe => false
    | _ => true

/-- Close every stripe that holds data, and every open super-block but those of the journal (R329, R363). -/
def closeAll (s : State) : State :=
  let s := (s.media.sbs.map (·.num)).foldl (fun s n => closeStripes s n fun _ => true) s
  ((s.media.sbs.filter fun b => decide (b.st = .isOpen) && decide (b.use ≠ .journal)).map (·.num)).foldl (fun s n => closeSb s n none) s

/-- Step 3 of DRYDOWN entry (R363), once the staged writes are packed, so that they reach Sealed in what is closed (DEDUCED, log entry 88). -/
def drydownSeal (s : State) : State :=
  if s.mediaMode = 2 ∧ s.upkeep.drydownEntry ∧ !s.hk.halt ∧ !packLeft s then closeAll s else s

/-- Steps 2 and 3 of DRYDOWN entry (R363): copies whose programs have not begun are dropped. One that is packed counts as begun (DESIGN
CHOICE, log entry 87). -/
def drydownClose (s : State) : State := drydownSeal (s.onPath fun p => { p with copies := p.copies.filter fun c => c.place.isSome })

/-- Enter DRYDOWN (R363 steps 1 to 3; the cursor follows when every staged write is Sealed). Steps 2 to 4 wait for the
end of a halt (R364). -/
def enterDrydown (s : State) : State :=
  let s := putAnchor { s with mediaMode := 2 } fun a => { a with mediaMode := 2 }
  let s := s.onUpkeep fun u => { u with drydownEntry := true, cursorState := 1 }
  if s.hk.halt then s else drydownClose s

/-- Writes that wait for admission, or are fetched and not admitted, of a port complete with Namespace Is Write Protected
(R359). -/
def refuseWaitingWrites (s : State) : State :=
  (ports s).foldl (fun s p => ((s.port p).cmds.filter fun c => decide (c.stage = .waiting)).foldl (fun s c =>
    match c.entry.op with
    | .write .. | .writeZeroes .. | .deallocate .. => ioDone s p c.sq c.entry.cid .nsWriteProtected
    | _ => s) s) s

/-- Evaluate R358 and enter PRESERVE, and DRYDOWN behind it where drydown_auto is 1 (R358, R359, R363, R65). -/
def checkPreserve (s : State) : State :=
  if decide (s.mediaMode = 0) && s.upkeep.spareSet && preserveCond s then
    let t := putAnchor { s with mediaMode := 1 } fun a => { a with mediaMode := 1 }
    let t := refuseWaitingWrites (pmeOnChange s t)
    if s.policy.drydownAuto = 1 then enterDrydown t else t
  else s

/-! ### Taking blocks -/

/-- Blocks of a die that can be taken. -/
def takeable (s : State) (die : Nat) : List (Nat × Block) :=
  (List.range s.geo.blocksPerDie).filterMap fun b =>
    let x := getBlock s die b
    if isFreePool x.pool then some (b, x) else none

/-- Collection and rebuild destinations take the most worn block, every other use the least worn; ties go to the lower
block (R214). -/
def takesMostWorn (u : SbUse) : Bool :=
  match u with
  | .collection | .rebuildDest => true
  | _ => false

/-- The block a use takes from a die (R214). -/
def chooseBlock (s : State) (die : Nat) (u : SbUse) : Option (Nat × Block) :=
  minBy (fun x => (if takesMostWorn u then 16777216 - x.2.erases else x.2.erases) * 1048576 + x.1) (takeable s die)

/-- Class of the erase and the margin check of a taken block (R214, R243). -/
def eraseClass (u : SbUse) : Nat := if u = .refuge then 1 else 9

/-- Take a block for a use: move it to its pool and queue its erase, or its margin check if it is erased already (R214,
R247, R390). -/
def takeBlock (s : State) (die : Nat) (u : SbUse) : State × Option Nat :=
  match chooseBlock s die u with
  | none => (s, none)
  | some (b, x) =>
    let pool : Pool := if u = .refuge then .refuge else .inUse
    let s := jot s (.blockPool die b pool)
    let s := modBlock s die b fun y => { y with pool := pool }
    let k : OpKind := if x.pool = .erased ∧ !x.unclean then .marginCheck b u false else .erase b u false
    (queueOp s die k (eraseClass u), some b)

/-- The metering of R144 starts its counters at 0 each time free_blocks falls below gc_urgent, and ends when it is reached
again (R338). -/
def checkUrgent (s : State) : State :=
  let low := decide (freeBlocks s < s.policy.gcUrgent)
  s.onUpkeep fun u =>
    if low && !u.urgent then { u with urgent := true, gcEarned := 0, hostAdmitted := 0 }
    else if !low && u.urgent then { u with urgent := false } else u

/-! ### Forming super-blocks -/

/-- A channel is eligible for a new super-block (R298). -/
def chanEligible (s : State) (ch : Nat) : Bool :=
  chanOn s ch && !chanFailed s ch && (diesOf s ch).all fun d => !(getDie s d).isFailed && !(takeable s d).isEmpty

/-- Open super-blocks that include a channel (key 2 of R299). One that is closing takes no more data and does not count (DESIGN CHOICE, log entry
84). -/
def openOn (s : State) (ch : Nat) : Nat :=
  (s.media.sbs.filter fun b => decide (b.st = .isOpen) && decide (ch ∈ b.chans)).length

/-- The keys of R299 as one number. -/
def chanKey (s : State) (picked : List Nat) (ch : Nat) : Nat :=
  let k1 := if (getChan s ch).st = .active then 0 else 1
  let k3 := (picked.filter fun c => groupOf c = groupOf ch).length
  ((k1 * 65536 + openOn s ch) * 32 + k3) * 32 + (ch + 32 - s.media.selPtr) % 32

/-- Pick channels one at a time (R299). -/
def pickChans (s : State) : Nat → List Nat → List Nat
  | 0, picked => picked
  | n + 1, picked =>
    match minBy (chanKey s picked) (((List.range 32).filter (chanEligible s)).filter fun c => !decide (c ∈ picked)) with
    | none => picked
    | some c => pickChans s n (picked ++ [c])

/-- The lowest super-block number not in use (R168). -/
def freeSbNum (s : State) : Option Nat := (List.range (nSb s)).find? fun n => !(s.media.sbs.any fun b => b.num = n)

/-- Cell mode of a use: SLC for the SLC cache and the journal, native otherwise (R201, R210, R401). -/
def useMode (s : State) (u : SbUse) : Nat :=
  match u with
  | .slc | .journal | .refuge => 0
  | _ => nativeMode s

/-- Order number of a use, as SB_FORM records it (R215, R390). -/
def useOrder (u : SbUse) : Nat :=
  match u with
  | .refuge => 1
  | .rebuildDest => 2
  | .journal => 3
  | .collection => 4
  | .hostRu => 5
  | .slc => 6

/-- R216: uses 5 and 6 never bring free_blocks below place_floor. -/
def formationAllowed (s : State) (u : SbUse) : Bool :=
  match u with
  | .hostRu | .slc => decide (s.policy.placeFloor < freeBlocks s)
  | _ => true

/-- Take one block on every die of the chosen channels, in member slot and die slot order. -/
def takeAll (s : State) (u : SbUse) : List Nat → State × List Nat
  | [] => (s, [])
  | die :: ds =>
    let (s, b) := takeBlock s die u
    let (s, bs) := takeAll s u ds
    (s, b.getD 0 :: bs)

/-- Read-level tracker entry of a block group (R272). -/
def rltIndex (s : State) (sb idx : Nat) : Nat := sb * (18 * diesPerChan s) + idx

/-- An RLT entry as at formation: the image's defaults for the cell mode (R273). -/
def rltFresh (s : State) (mode : Nat) : RltEntry :=
  let off := if mode = 2 then s.geo.defQlc else if mode = 1 then s.geo.defTlc ++ List.replicate 8 0
    else s.geo.defSlc :: List.replicate 14 0
  { off := off, acc := List.replicate 15 0 }

/-- A signed number as an unsigned one of w bits. -/
def ofSigned (w : Nat) (x : Int) : Nat := (x % ((2 ^ w : Nat) : Int)).toNat

/-- Sixteen bits as a signed number. -/
def signed16 (l : List Byte) : Int := (BitVec.ofNat 16 (leNat l)).toInt

/-- The 64 bytes of an entry of the read-level tracker, which fill one DRAM burst (R272). -/
def rltBytes (e : RltEntry) : List Byte :=
  ((List.range 15).map fun k => BitVec.ofNat 8 (ofSigned 8 (nth 0 e.off k)))
    ++ [BitVec.ofNat 8 (ofSigned 8 (e.progTemp.getD (-128)))]
    ++ ((List.range 15).flatMap fun k => leBytes 2 (ofSigned 16 (nth 0 e.acc k)))
    ++ leBytes 2 e.samples ++ leBytes 1 e.iterAvg ++ leBytes 1 e.failAvg ++ leBytes 1 (b2n e.learned + 2 * b2n e.fromRetry) ++ [0]
    ++ leBytes 4 e.updated ++ leBytes 2 e.hardFail ++ List.replicate 6 0

/-- The entry that 64 bytes hold (R272). -/
def rltOfBytes (l : List Byte) : RltEntry :=
  let num := fun (o n : Nat) => leNat ((l.drop o).take n)
  { off := (List.range 15).map fun k => byteInt (nth 0 l k)
    progTemp := if nth 0 l 15 = 0x80 then none else some (byteInt (nth 0 l 15))
    acc := (List.range 15).map fun k => signed16 ((l.drop (16 + 2 * k)).take 2)
    samples := num 46 2, iterAvg := num 48 1, failAvg := num 49 1, learned := (num 50 1).testBit 0, fromRetry := (num 50 1).testBit 1
    updated := num 52 4, hardFail := num 56 2 }

def getRlt (s : State) (b : SuperBlock) (idx : Nat) : RltEntry := tget (rltFresh s b.mode) s.media.rlt (rltIndex s b.num idx)
def putRlt (s : State) (b : SuperBlock) (idx : Nat) (e : RltEntry) : State :=
  s.onMedia fun m => { m with rlt := tput (rltFresh s b.mode) m.rlt (rltIndex s b.num idx) e }

/-- The entry that a sense of a block group uses, read as its burst (R278). Checkpoint and delta-log blocks are read at the image's SLC
default offsets (R274). -/
def readRlt (s : State) (b : SuperBlock) (idx : Nat) : RltEntry :=
  if b.use = .journal then rltFresh s 0 else rltOfBytes (rltBytes (getRlt s b idx))

/-- Form a super-block for a use and handle (R166, R215, R299, R300, R390). Nothing happens while it cannot be formed. -/
def formSb (s : State) (u : SbUse) (handle : Nat) : State :=
  let chans := pickChans s 18 []
  let cache := slcCacheSize s
  match freeSbNum s with
  | none => s
  | some num =>
    if chansGood s < 18 ∨ chans.length < 18 ∨ formationAllowed s u = false ∨ s.journal.anchor.clean ∨ !mediaLive s then s
    else
      let sorted := (List.range 32).filter fun c => decide (c ∈ chans)
      let dies := sorted.flatMap fun c => diesOf s c
      let (s, blocks) := takeAll s u dies
      let mode := useMode s u
      let serial := s.media.sbSerial + 1
      let s := jot s (.sbForm num serial (useOrder u) mode handle)
      let s := s.onMedia fun m => { m with
        sbSerial := serial, selPtr := (m.selPtr + 1) % 32
        rlt := m.rlt.filter fun e => decide (e.1 / (18 * diesPerChan s) ≠ num)
        sbs := m.sbs ++ [{ num := num, serial := serial, use := u, mode := mode, handle := handle, chans := sorted, blocks := blocks,
                           openedAt := s.now, toErase := List.range blocks.length }] }
      let s := s.onUpkeep fun x => { x with slcCache := cache }
      let s := checkUrgent s
      if u = .journal then deltaProgram (putAnchor s fun a => { a with sbs := a.sbs ++ [num] }) else s

/-! ### Release -/

/-- Stands in a super-block's list for a block that recovery took out of it (R403). -/
def noBlock : Nat := 1048575

/-- Where a block of a released super-block goes: the retired pool after a failure or at the retirement count, no pool on
a lost member, else the dirty pool (R330, R343). -/
def releaseBlock (s : State) (b : SuperBlock) (idx : Nat) : State :=
  let die := sbDie s b (idx / diesPerChan s) (idx % diesPerChan s)
  let blk := nth 0 b.blocks idx
  let x := getBlock s die blk
  if decide (idx ∈ b.lost) || decide (blk = noBlock) then s
  else
    let pool : Pool := if x.marked ∨ s.policy.peRetire * s.geo.peRated ≤ 100 * x.erases then .retired else .dirty
    modBlock (jot s (.blockPool die blk pool)) die blk fun y => { y with pool := pool, marked := false }

/-- A staged version, or a copy packed into it, still refers to the super-block, or a stripe of it is not complete. -/
def sbReferenced (s : State) (b : SuperBlock) : Bool :=
  (s.path.flacons.any fun e => match e.2.place with
    | some pl => decide (pl.sb = b.num)
    | none => false)
  || (s.path.copies.any fun c => c.place.elim false fun pl => decide (pl.sb = b.num))
  || (s.media.stripes.any fun t => decide (t.sb = b.num) && !stripeDone s t)

/-- Release a closed super-block that holds nothing valid and that no read pins (R330, R339, R401); copies from it still under way are
stale (R334). -/
def releaseSb (s : State) (num : Nat) : State :=
  match findSb s num with
  | none => s
  | some b =>
    let urgentNow := decide (freeBlocks s < s.policy.gcUrgent)
    let s := (List.range b.blocks.length).foldl (fun s i => releaseBlock s b i) s
    let s := s.onMedia fun m => { m with
      sbs := m.sbs.filter fun x => x.num ≠ num, stripes := m.stripes.filter fun t => t.sb ≠ num }
    let s := s.onPath fun p => { p with
      claimed := p.claimed - (b.claimUnits - b.copied)
      copies := p.copies.map fun c => if c.sb = num then { c with dead := true } else c }
    s.onUpkeep fun u => { u with
      gcEarned := if b.victim ∧ b.mode ≠ 0 ∧ urgentNow then u.gcEarned + (ruUnits s - b.copied) else u.gcEarned
      relocate := u.relocate.filter fun x => x.1 ≠ num
      class1 := u.class1.filter (· ≠ num), class2 := u.class2.filter (· ≠ num)
      wearing := if u.wearing = some num then none else u.wearing }

/-! ### Losses -/

/-- A super-block's lost members after a die or channel has failed (R313): new bits of the loss map, with S_deg at the
first bit. -/
def markLost (s : State) (b : SuperBlock) : SuperBlock :=
  let bits := (List.range (18 * diesPerChan s)).filter fun i =>
    dieLost s (sbDie s b (i / diesPerChan s) (i % diesPerChan s)) || decide (i ∈ b.lost)
  if bits.isEmpty then b else { b with lost := bits, sDeg := some (b.sDeg.getD (s.path.nextSeq - 1)) }

/-- The members of stripe k that hold an IU slot's sub-unit are lost in a broken stripe (R316). -/
def subBroken (s : State) (b : SuperBlock) (slot psub : Nat) : Bool :=
  let k := slot / iusPerStripe s
  decide (stripeState s b k = 3) && decide (memberSlot s k (subElem s slot psub).1 ∈ lostMembers s b k)

/-- IUs with a codeword on a lost member of a broken stripe: map index and, for an overlay sub-unit, its number (R316). -/
def brokenIus (s : State) : List (Nat × Option Nat) :=
  let of := fun (pa psub : Nat) => match findSb s (pa / slotsS s) with
    | none => false
    | some b => subBroken s b (pa % slotsS s) psub
  (s.path.map.filterMap fun e => if e.2.valid ∧ (List.range (subsPerIu s)).any (of e.2.pa) then some (e.1, none) else none)
    ++ (s.path.ovl.filterMap fun e => if !e.held ∧ !e.trimmed ∧ of e.pa e.psub then some (e.mapIndex, some e.sub) else none)

/-- Poison every IU of a list (R316, R351). -/
def poisonAll (s : State) (cause : Nat) (l : List (Nat × Option Nat)) : State :=
  l.foldl (fun s x => match mapOwner s x.1 with
    | some (n, iu) => poisonIu s n iu cause 0 x.2
    | none => s) s

/-- State of the stripe that holds the IU slot of a physical IU address. -/
def stateAt (s : State) (pa : Nat) : Nat :=
  match findSb s (pa / slotsS s) with
  | none => 0
  | some b => stripeState s b (pa % slotsS s / iusPerStripe s)

/-- A stripe that holds valid data is exposed-2 or broken (R326, R327). -/
def anyExposed2 (s : State) : Bool :=
  (s.path.map.any fun e => e.2.valid && decide (2 ≤ stateAt s e.2.pa))
    || s.path.ovl.any fun e => !e.held && !e.trimmed && decide (2 ≤ stateAt s e.pa)

/-- Valid data lies in an exposed-2 or broken stripe: bit 2 is set, and the first such stripe is noticed (R326, R327). -/
def noteExposed (s : State) : State :=
  if anyExposed2 s then
    let s := s.onUpkeep fun u => { u with degraded := true }
    if s.upkeep.exposedNoticed then s else notice (s.onUpkeep fun u => { u with exposedNoticed := true }) 0xC6
  else s

/-- A die or a channel is lost: loss maps, S_deg, open super-blocks, flacons, broken stripes, notices (R257, R313 to R316,
R326, R327, R358). -/
def memberLoss (s : State) : State :=
  let old := s
  let s := s.onMedia fun m => { m with sbs := m.sbs.map (markLost s) }
  let hit := (old.media.sbs.filter fun b => decide ((markLost old b).lost ≠ b.lost)).map (·.num)
  let s := hit.foldl (fun s n => match findSb s n with
    | some b =>
      let s := if b.st = .isOpen then closeUnit (if b.use = .hostRu then fdpEvent s 6 b.handle else s) n none else s
      let s := unplaceCopies s (b.lost.flatMap fun i => copiesOn s n i)
      (b.lost.flatMap fun i => flaconsOn s n i).dedup.foldl repack s
    | none => s) s
  let s := s.onUpkeep fun u => { u with lastLossMin := powerOnMin s }
  let s := poisonAll s 5 (brokenIus s)
  let s := noteExposed (notice s 0xC6)
  let s := if chansGood s < 18 ∧ 18 ≤ chansGood old then notice s 0xC6 else s
  checkUrgent (checkPreserve s)

end Sys2Proof.Machine
end

