-- ==== Sys2Proof/Machine/PowerOps.lean ====
section
/-! DEFINITION. Power-state selection (R92, R94, R95), and the closings that FUA writes and Flushes ask for (R150). -/
namespace Sys2Proof.Machine

/-- The power state the drive takes: the lower-numbered of the selections of the ports whose link is up; with both links
down it stays (R95, R103). -/
def derivePs (s : State) : Nat :=
  let sel := fun (p : Port) => if linkIsDown p then none else some p.selPs
  match sel s.portA, sel s.portB with
  | some a, some b => min a b
  | some a, none => a
  | none, some b => b
  | none, none => s.misc.psExiting.getD s.misc.drivePs

/-- Entry into a deeper state begins; PS4 closes open stripes (R92, R150, R159). -/
def beginEntry (s : State) (t : Nat) : State :=
  let s := s.onMisc fun m => { m with drivePs := t, psEntering := some t, psExiting := none }
  if t = 4 then closeUpTo s (s.path.nextSeq - 1) else s

/-- Take the state that R95 derives. A change to a deeper state starts an entry, under whose budget an operational state runs at once;
leaving a state starts an exit, after the entry under way (R92, R94, R95, R97, R159). -/
def takePs (s : State) : State :=
  let t := derivePs s
  let cur := s.misc.drivePs
  if t = s.misc.psExiting.getD cur then s
  else if cur < t then beginEntry s t
  else if s.misc.psEntering.isSome then s
  else s.onMisc fun m => { m with psExiting := if t = cur then none else some t }

/-- in_transition (HFEx_PSTATE): an entry or an exit is under way. -/
def inTransition (s : State) : Bool := s.misc.psEntering.isSome || s.misc.psExiting.isSome

/-- Every staged write is to be Sealed: an entry into PS4, a shutdown or an NVM subsystem reset is under way (R92, R150, R414,
R568). -/
def sealsAll (s : State) : Bool :=
  decide (s.misc.psEntering = some 4) || (!s.fh.latch && (decide ((s.port s.own.owner).shst = 1) || decide (s.run = .subsystemReset)))

/-- The highest number that a waiting Flush or FUA write, or a state entry, needs Sealed (R150, R151, R153). -/
def closingGoal (s : State) : Nat :=
  if sealsAll s then s.path.nextSeq - 1
  else maxOf ((s.portA.cmds ++ s.portB.cmds).filterMap fun c =>
    match c.entry.op with
    | .flush => if c.stage = .running then c.snapshot else none
    | _ => if c.prot && c.fua then c.seq else none)

/-- Close the stripes that waiting Flushes and FUA writes depend on (R150). -/
def closeIfDue (s : State) : State :=
  if s.path.horizon < closingGoal s then closeUpTo s (closingGoal s) else s

end Sys2Proof.Machine
end

