-- ==== Sys2Proof/Machine/StageOps.lean ====
section
/-! DEFINITION. Staging: the states of flacons before they are packed (R140, R141), ending a write before it is Protected
(R76, R140, R156, R160), the failure of a merge read (R196, R198), and becoming Protected (R147). -/
namespace Sys2Proof.Machine

/-- State of a flacon that is not packed: that of its least advanced sub-unit (R140, R141). -/
def stagingState (f : Flacon) : FlaconState :=
  if f.subs.all (·.prot) then .ready
  else if f.subs.all (·.comm) then .committed
  else if f.subs.any fun x => x.filled || x.host.isSome then .filling
  else .allotted

/-- A flacon not yet packed takes the state and the units of its sub-units; without any it is FREE again (R140, R146). -/
def restage (s : State) (i : Nat) : State :=
  modFlacon s i fun f =>
    if f.subs.isEmpty then {}
    else match f.st with
      | .free | .allotted | .filling | .committed | .ready => { f with st := stagingState f, units := f.subs.length }
      | _ => f

/-- Numbers of the flacons that hold a sub-unit of a write not yet Protected. -/
def flaconsOf (s : State) (w : PortId × Nat × Nat) : List Nat :=
  (s.path.flacons.filter fun e => e.2.subs.any fun x => decide (x.writer = some w)).map (·.1)

def modSubs (s : State) (w : PortId × Nat × Nat) (f : FSub → FSub) : State :=
  s.onPath fun p => { p with flacons := p.flacons.map fun e =>
    (e.1, { e.2 with subs := e.2.subs.map fun x => if x.writer = some w then f x else x }) }

/-- Overlay reservations of a write that nothing needs any more. -/
def releasePlans (s : State) (c : OutCmd) : State :=
  match findNs s c.entry.nsid with
  | none => s
  | some n => c.plans.foldl (fun s x => if x.kind = .overlay then ovlRelease s n x.iu x.subs else s) s

/-- A codeword leaves its cluster: its queues and its decoders (R263, R264). -/
def leaveCluster (s : State) (j : CwJob) : State :=
  modCluster s (groupOf (dieChan j.die)) fun c => { c with
    hardQ := c.hardQ.filter (· ≠ j.id), softQ := c.softQ.filter (· ≠ j.id)
    hardDec := c.hardDec.filter fun d => d.job ≠ j.id, softDec := c.softDec.filter fun d => d.job ≠ j.id }

/-- Reads and merge reads of a command are abandoned. -/
def dropJobs (s : State) (p : PortId) (sq cid : Nat) : State :=
  let serves := fun (j : CwJob) => match j.purpose with
    | .host a b c _ _ | .merge a b c _ _ => decide (a = p) && decide (b = sq) && decide (c = cid)
    | _ => false
  let gone := s.path.jobs.filter serves
  let ids := gone.map (·.id)
  let kid := fun (j : CwJob) => match j.purpose with
    | .member q _ => decide (q ∈ ids)
    | _ => false
  let all := gone ++ s.path.jobs.filter kid
  let buf := (gone.filter fun j => j.hasBuf).length
  let out := fun (s : State) (j : CwJob) => leaveCluster (modSb s j.sb fun b => { b with pins := b.pins - 1 }) j
  let s := all.foldl out s
  let nums := all.map (·.id)
  let s := s.onPath fun x => { x with jobs := x.jobs.filter fun j => !decide (j.id ∈ nums) }
  s.onMedia fun m => { m with recon := m.recon - buf }

/-- Flacons from which outstanding reads have selected the version of a number, one for each sub-unit. -/
def selectedFrom (s : State) (n : Nat) : List Nat :=
  (s.portA.cmds ++ s.portB.cmds).flatMap fun c => c.subs.filterMap fun x => match x.st with
    | .staged f q => if q = n then some f else none
    | _ => none

/-- A number retires: a read that has selected its version, and not yet moved its data, waits and selects again, and pins the flacon no
more (R135, R136, R137; DEDUCED, log entry 73). -/
def unselect (s : State) (n : Nat) : State :=
  let s := (selectedFrom s n).foldl (fun s f => modFlacon s f fun y => { y with pins := y.pins - 1 }) s
  let back := fun (x : SubRead) => match x.st with
    | .staged _ q => if q = n then { x with st := .waiting n } else x
    | _ => x
  s.onBoth fun p => { p with cmds := p.cmds.map fun c => { c with subs := c.subs.map back } }

/-- Reads that selected the write's version select again. -/
def unselectOf (s : State) (c : OutCmd) : State :=
  match c.seq with
  | some n => unselect s n
  | none => s

/-- Discard a write that is not Protected: its flacons return, its credits are given back, its number retires (R76, R140,
R156). Its completion is the caller's. -/
def discardWrite (s : State) (c : OutCmd) : State :=
  let w := (c.port, c.sq, c.entry.cid)
  let fs := flaconsOf s w
  let s := unselectOf (dropJobs s c.port c.sq c.entry.cid) c
  let s := s.onPath fun p => { p with
    flacons := p.flacons.map fun e => (e.1, { e.2 with subs := e.2.subs.filter fun x => decide (x.writer ≠ some w) })
    trims := p.trims.filter fun t => !(decide (some t.seq = c.seq))
    claimed := if c.stage = .admitted ∨ c.stage = .running then p.claimed - c.need else p.claimed }
  let s := modCmd (fs.foldl restage s) c.port c.sq c.entry.cid fun x => { x with plans := [] }
  let s := releasePlans s c
  match c.seq with
  | some n => advanceHorizon (retireSeq s n)
  | none => s

/-- End a write with a status before it is Protected. -/
def failWrite (s : State) (c : OutCmd) (st : Status) : State := ioDone (discardWrite s c) c.port c.sq c.entry.cid st

/-- Every staged sub-unit of the write is in a committed flacon (R147). -/
def allCommitted (s : State) (w : PortId × Nat × Nat) : Bool :=
  s.path.flacons.all fun e => e.2.subs.all fun x => !decide (x.writer = some w) || x.comm

/-- The write is Protected: its flacons become READY, its completion is posted, or with FUA waits for the horizon (R74,
R79, R147, R151, R373). -/
def protectWrite (s : State) (c : OutCmd) : State :=
  let w := (c.port, c.sq, c.entry.cid)
  let fs := flaconsOf s w
  let n := c.seq.getD 0
  let s := modSubs s w fun x => { x with prot := true, writer := none }
  let s := protectSeq (fs.foldl restage s) n
  if c.fua then
    advanceHorizon (closeIfDue (modCmd s c.port c.sq c.entry.cid fun x => { x with prot := true }))
  else advanceHorizon (ioDone s c.port c.sq c.entry.cid .success (BitVec.ofNat 32 n))

/-- Trims of a number that are not in the ring yet (R149). -/
def trimsLeft (s : State) (n : Option Nat) : Bool := s.path.trims.any fun t => decide (some t.seq = n)

/-- Protect the write if it can be: its data is committed, and the records of what it trims are in the ring, so that its
completion never runs ahead of what survives a power loss (R147, R149). -/
def protectIfDone (s : State) (p : PortId) (sq cid : Nat) : State :=
  match findCmd s p sq cid with
  | none => s
  | some c =>
    if c.stage = .running ∧ c.seq.isSome ∧ !c.prot ∧ allCommitted s (p, sq, cid) ∧ !trimsLeft s c.seq then protectWrite s c else s

/-- Apply a version without data (R149, R186, R198). -/
def trimNow (s : State) (t : TrimVer) : State :=
  let s := s.onPath fun p => { p with trims := p.trims.filter fun x => x.id ≠ t.id }
  match findNs s t.nsid with
  | none => s
  | some n =>
    let s := if t.stale then s
      else if t.whole then applyWhole s n t.iu t.seq none
      else t.subs.foldl (fun s i => applySub s n t.iu i t.seq true 0 0) s
    forgetApplied s n t.iu

/-- The write that has a number, if it is outstanding. -/
def cmdOfSeq (s : State) (n : Nat) : Option OutCmd := (s.portA.cmds ++ s.portB.cmds).find? fun c => c.seq = some n

/-- The data of each write in the flacon is placed: its part of the flacon is committed (R140). -/
def commitParts (s : State) (i : Nat) : State :=
  let f := getFlacon s i
  let full := fun (x : FSub) => f.subs.all fun y => decide (y.writer ≠ x.writer) || y.filled
  restage (modFlacon s i fun f => { f with subs := f.subs.map fun x => if full x then { x with comm := true } else x }) i

/-- Take a free value for data the spec leaves open. -/
def freeBlkOf (s : State) : State × Blk := ({ s with freeCtr := s.freeCtr + 1 }, Config.freeBlk s.freeCtr)

/-- Room in the probe buckets for the sub-units of a plan that have no entry, reserved or in use (R193). -/
def probeRoom (s : State) (mi : Nat) (subs : List Nat) : Bool :=
  decide (ovlInProbe s mi + (subs.filter fun i => !(s.path.ovl.any fun e => decide (e.mapIndex = mi) && decide (e.sub = i))).length ≤ 64)

/-- A merge read is uncorrectable: the write's sub-units of this IU go to the overlay, ignoring the fill limit; those of a
Write Zeroes or Deallocate become trimmed entries. Without room the command completes with Write Fault (R196, R198). -/
def mergeFailed (s : State) (n : Namespace) (c : OutCmd) (iu : Nat) : State :=
  let w := (c.port, c.sq, c.entry.cid)
  let mi := mapIndex s n iu
  match c.plans.find? fun x => x.iu = iu ∧ x.kind = .merge with
  | none => s
  | some pl =>
    if !probeRoom s mi pl.subs then failWrite s c .writeFault
    else
      let s := pl.subs.foldl (fun s i => ovlReserve s mi i) s
      let data := match c.entry.op with
        | .write .. => true
        | _ => false
      let whole := fun (x : FSub) => decide (x.mask = 255)
      let stays := fun (x : FSub) => decide (x.sub ∈ pl.subs) && (data || !whole x)
      let mine : List FSub := (s.path.flacons.flatMap fun e => e.2.subs).filter fun x => decide (x.writer = some w) && decide (x.iu = iu)
      let kept : List Nat := (mine.filter stays).map fun x => x.sub
      let fs := flaconsOf s w
      let conv := fun (x : FSub) => if x.writer = some w ∧ x.iu = iu then (if stays x then some { x with kind := 1 } else none) else some x
      let s := s.onPath fun p => { p with
        flacons := p.flacons.map fun e => (e.1, { e.2 with subs := e.2.subs.filterMap conv })
        claimed := p.claimed - (subsPerIu s - kept.length) }
      let s := fs.foldl restage s
      let s := modCmd s c.port c.sq c.entry.cid fun x => { x with
        need := x.need - (subsPerIu s - kept.length)
        plans := x.plans.map fun y => if y.iu = iu then { y with kind := .overlay } else y }
      if data then s
      else
        let subs : List Nat := pl.subs.filter fun i => !decide (i ∈ kept)
        let s := s.onPath fun p => { p with
          trimNext := p.trimNext + 1
          trims := p.trims ++ [{ id := p.trimNext, seq := c.seq.getD 0, nsid := n.nsid, iu := iu, subs := subs, whole := false }] }
        protectIfDone s c.port c.sq c.entry.cid

end Sys2Proof.Machine
end

