-- ==== Sys2Proof/Machine/ReadOps.lean ====
section
/-! DEFINITION. Operations of the read path: offsets and run-ahead (R272 to R282), codeword jobs and the retry order
(R283 to R286), degraded reads and reconstruction (R306 to R311), and the delivery of what they give (R183, R195, R332). -/
namespace Sys2Proof.Machine

/-! ### Offsets -/

/-- t_term of reference k: the entry's temperature term at t_read (R275). -/
def tTerm (g : Geometry) (e : RltEntry) (tRead : Option Int) (k : Nat) : Int :=
  let dt : Int := match e.progTemp, tRead with
    | some p, some t => t - p
    | _, _ => 0
  truncDiv ((nth {} g.refs k).tc * dt) 16

/-- Offset of reference k for a sense (R275). -/
def senseOffset (g : Geometry) (e : RltEntry) (tRead : Option Int) (k z : Nat) : Int :=
  clampInt g.vrefMin g.vrefMax (nth 0 e.off k + nth 0 g.rltZone z + tTerm g e tRead k)

/-- Zone of a wordline of a plane (R271's read-level tracker section: wordline × 4 div W). -/
def zoneOf (s : State) (mode q : Nat) : Nat := wlOf mode q % s.geo.wordlines * 4 / s.geo.wordlines

/-- Offset of a retry-table sense: the entry's offset with the t_term of R275 added (R283 step 4). -/
def retryOffset (g : Geometry) (e : RltEntry) (tRead : Option Int) (k entry : Nat) : Int :=
  clampInt g.vrefMin g.vrefMax (nth 0 (nth [] g.retryTable entry) k + tTerm g e tRead k)

/-- Number of references of a mode. -/
def refCount (mode : Nat) : Nat := if mode = 2 then 15 else if mode = 1 then 7 else 1

/-- References that the page at position q is sensed with (R584's page field). -/
def refsOfPage (s : State) (mode q : Nat) : List Nat :=
  if mode = 0 then [0] else (List.range (refCount mode)).filter fun k => decide ((nth {} s.geo.refs k).page = q % ppwOf mode)

/-- Reads queued for a die. -/
def readsQueued (s : State) (die : Nat) : Nat := ((getDie s die).queue.filter fun o => isRead o.kind).length

/-- A read that is no prefetch is issued as run-ahead (R279). -/
def runAheadFor (s : State) (e : RltEntry) (die : Nat) : Bool :=
  let p := s.policy
  let wants := decide (p.raFail ≤ e.failAvg) || decide (4 * p.raIters ≤ e.iterAvg)
    || match e.progTemp, chanTemp s (dieChan die) with
      | some pt, some t => decide ((p.raDeltaT : Int) ≤ |t - pt|)
      | _, _ => false
  wants && !(decide (driveState s = 1)) && !decide (p.raQueueMax < readsQueued s die) && !decide (p.raQueueMax = 0)

/-! ### Jobs -/

def findJob (s : State) (id : Nat) : Option CwJob := s.path.jobs.find? fun j => j.id = id
def modJob (s : State) (id : Nat) (f : CwJob → CwJob) : State :=
  s.onPath fun p => { p with jobs := p.jobs.map fun j => if j.id = id then f j else j }
def dropJob (s : State) (id : Nat) : State := s.onPath fun p => { p with jobs := p.jobs.filter fun j => j.id ≠ id }

/-- Jobs of one page. -/
def samePage (a b : CwJob) : Bool := decide (a.die = b.die) && decide (a.block = b.block) && decide (a.pos = b.pos)

def isPrefetch (u : Purpose) : Bool :=
  match u with
  | .prefetch .. => true
  | _ => false

/-- Queue a sense of a page. One sense serves the page (R229): where the same sense waits already it rises to the higher of the two classes
(R243), and where, for a sense of the retry order, it is under way, nothing is queued. -/
def queueSense (s : State) (die block pos soft : Nat) (retry : Option Nat) (cls : Nat) : State :=
  let same := fun (o : DieOp) => decide (o.kind = .sense block pos soft retry)
  let runs := (decide (soft ≠ 0) || retry.isSome) && ((getDie s die).busy.elim false same)
  if runs then s
  else if (getDie s die).queue.any same then
    modDie s die fun d => { d with queue := d.queue.map fun o => if same o then { o with cls := min o.cls cls } else o }
  else queueOp s die (.sense block pos soft retry) cls

/-- Take the soft senses and the retry senses of a job's page off its die (R281, R284). -/
def dropSenses (s : State) (j : CwJob) : State :=
  dropOps s j.die fun o => match o.kind with
    | .sense b q soft retry => decide (b = j.block) && decide (q = j.pos) && (decide (0 < soft) || retry.isSome)
    | _ => false

/-- Pin and unpin a super-block (R137). -/
def pinSb (s : State) (sb : Nat) : State := modSb s sb fun b => { b with pins := b.pins + 1 }
def unpinSb (s : State) (sb : Nat) : State := modSb s sb fun b => { b with pins := b.pins - 1 }

/-- A member's die is failed, its channel is failed, or its sequencer is in RESET (R307). -/
def memberDown (s : State) (b : SuperBlock) (k j : Nat) : Bool :=
  let die := sbDie s b (memberSlot s k j) (k % diesPerChan s)
  dieLost s die || decide ((getChan s (dieChan die)).st = .reset)

/-- Issue a codeword read for member j, codeword cw of stripe k (R229): its sense is queued, or it goes straight to
step 5 where its member is unavailable (R28, R307). The super-block is pinned (R137). -/
def issueRead (s : State) (b : SuperBlock) (k j cw : Nat) (purpose : Purpose) (expect : Option Expect) (cls : Nat) : State × Nat :=
  let d := k % diesPerChan s
  let q := k / diesPerChan s
  let m := memberSlot s k j
  let die := sbDie s b m d
  let block := sbBlock s b m d
  let id := s.path.jobNext
  let down := memberDown s b k j
  let job : CwJob := { id := id, purpose := purpose, sb := b.num, k := k, member := j, cw := cw, die := die, block := block, pos := q,
                       expect := expect, cls := cls, step := if down then 5 else 1, arrived := s.path.columnNext }
  let s := s.onPath fun p => { p with jobNext := id + 1, jobs := p.jobs ++ [job], columnNext := p.columnNext + b2n down }
  let s := pinSb s b.num
  (if down then s else queueSense s die block q 0 none cls, id)

/-- Read the sub-unit `psub` of the IU slot of a physical IU address (R175, R183). -/
def readAt (s : State) (pa psub : Nat) (purpose : Purpose) (expect : Option Expect) (cls : Nat) : State × Option Nat :=
  match findSb s (pa / slotsS s) with
  | none => (s, none)
  | some b =>
    let slot := pa % slotsS s
    let (j, cw) := subElem s slot psub
    let (s, id) := issueRead s b (slot / iusPerStripe s) j cw purpose expect cls
    (s, some id)

/-! ### Delivery -/

/-- The namespace's key. -/
def nsKey (s : State) (nsid : Nat) : BitVec 512 := (findNs s nsid).elim 0 (·.key)

/-- Plaintext of a sub-unit (R24, R629). -/
def plainOf (s : State) (nsid iu sub : Nat) (b : Blk) : Blk := secDecrypt (nsKey s nsid) (tweakOf s iu sub) b

/-- Set where a sub-unit of a read stands. -/
def setSub (s : State) (p : PortId) (sq cid iu sub : Nat) (st : SubState) : State :=
  modCmd s p sq cid fun c => { c with subs := c.subs.map fun x => if x.iu = iu ∧ x.sub = sub then { x with st := st } else x }

/-- Every sub-unit of the read has its outcome. -/
def readReady (c : OutCmd) : Bool :=
  c.subs.all fun x => match x.st with
    | .done _ | .lost | .staged .. => true
    | _ => false

/-- Unpin the flacons that a read's staged sub-units pin (R137). -/
def unpinSubs (s : State) (c : OutCmd) : State :=
  c.subs.foldl (fun s x => match x.st with
    | .staged f _ => modFlacon s f fun y => { y with pins := y.pins - 1 }
    | _ => s) s

/-- Content of a sub-unit of a read: staged data is decrypted into the transfer buffers (R24, R27). -/
def subContent (s : State) (nsid : Nat) (x : SubRead) : Option (Nat × Nat × Blk) :=
  match x.st with
  | .done b => some (x.iu, x.sub, b)
  | .staged f n => ((getFlacon s f).subs.find? fun y => y.nsid = nsid ∧ y.iu = x.iu ∧ y.sub = x.sub ∧ y.seq = n).map fun y =>
      (x.iu, x.sub, plainOf s nsid x.iu x.sub y.data)
  | _ => none

/-- Complete a read whose sub-units all have their outcome: the data of a Read goes to the host, a Verify moves none
(R74, R78, R137, R183, R283). -/
def finishRead (s : State) (p : PortId) (sq cid : Nat) : State :=
  match findCmd s p sq cid with
  | none => s
  | some c =>
    if !readReady c || decide (c.stage ≠ .running) then s
    else
      let bad := c.subs.any fun x => decide (x.st = .lost)
      let data := c.subs.filterMap (subContent s c.entry.nsid)
      let s := unpinSubs s c
      let s := match c.entry.op with
        | .read .. => s.onPort p fun pt => { pt with readData := data }
        | _ => s
      ioDone s p sq cid (if bad then .unrecoveredReadError else .success)

/-- The bits of a sub-unit that a mask of 512-byte pieces names. -/
def maskBits (mask : Nat) : Blk :=
  (List.range 8).foldl (fun (m : Blk) i => if mask.testBit i then m ||| (BitVec.ofNat 32768 (2 ^ 4096 - 1) <<< (4096 * i)) else m) 0

/-- Blend old content with the write's pieces of a sub-unit (R139, R195). -/
def blend (old host : Blk) (mask : Nat) : Blk := (old &&& ~~~(maskBits mask)) ||| (host &&& maskBits mask)

/-- Complete a staged sub-unit once what it needs is there: the write's bytes, and the old content where they do not cover
it; then it is encrypted (R24, R139, R195). -/
def settleSub (s : State) (x : FSub) : FSub :=
  let needOld := decide (x.mask ≠ 255)
  let needHost := decide (x.mask ≠ 0)
  if x.filled || (needOld && x.old.isNone) || (needHost && x.host.isNone) then x
  else
    let b := if x.mask = 255 then x.host.getD 0 else blend (x.old.getD 0) (x.host.getD 0) x.mask
    { x with filled := true, old := none, host := none, waits := none
             data := secEncrypt (nsKey s x.nsid) (tweakOf s x.iu x.sub) b }

/-- Give the old content of a sub-unit to the staged version of a write that merges it. -/
def giveOld (s : State) (nsid iu sub seq : Nat) (b : Blk) : State :=
  let upd := fun (x : FSub) =>
    if x.nsid = nsid ∧ x.iu = iu ∧ x.sub = sub ∧ x.seq = seq then settleSub s { x with old := some b, waits := none } else x
  s.onPath fun p => { p with flacons := p.flacons.map fun e => (e.1, { e.2 with subs := e.2.subs.map upd }) }

/-- Give a copy one of its sub-units, with what its sillage entry says of number and handle; a reconstructed codeword says
neither (R320, R332). -/
def giveCopy (s : State) (id sub : Nat) (entry : BitVec 128) (b : Blk) : State :=
  let seq := entrySeq entry
  s.onPath fun p => { p with copies := p.copies.map fun c =>
    if c.id = id then
      { c with got := c.got ++ [(sub, b)], need := c.need.filter (· ≠ sub), seq := max c.seq seq
               ruh := if c.ruh = 0xFF then entryRuh entry else c.ruh, rebuilt := c.rebuilt || decide (seq = 0) }
    else c }

/-- End a job: unpin its super-block. -/
def endJob (s : State) (j : CwJob) : State :=
  leaveCluster (dropJob (unpinSb s j.sb) j.id) j

/-- Note how a codeword of a page that patrol scrub reads came out: the step of R283 that gave it (6: none) and its iterations (R349). -/
def noteOutcome (s : State) (page cw step iters : Nat) : State :=
  s.onUpkeep fun u => { u with scrubReads := u.scrubReads.map fun r =>
    if r.id = page then { r with outs := r.outs ++ [(cw, step, iters)] } else r }

/-- Deliver a decoded or reconstructed codeword to whom the read serves (R311). -/
def deliver (s : State) (j : CwJob) (entry : BitVec 128) (b : Blk) : State :=
  let s := endJob s j
  match j.purpose with
  | .host p sq cid iu sub =>
    match findCmd s p sq cid with
    | none => s
    | some c => finishRead (setSub s p sq cid iu sub (.done (plainOf s c.entry.nsid iu sub b))) p sq cid
  | .merge p sq cid iu sub =>
    match findCmd s p sq cid with
    | none => s
    | some c => giveOld s c.entry.nsid iu sub (c.seq.getD 0) (plainOf s c.entry.nsid iu sub b)
  | .copy id sub => giveCopy s id sub entry b
  | .prefetch buf sub =>
    -- data that arrives after the counter has changed is discarded (R291)
    let fresh := fun (x : RaBuf) => (findNs s x.nsid).elim false fun n => decide (getVer s (mapIndex s n x.iu) = x.ver)
    let put := fun (x : RaBuf) => if x.id ≠ buf then some x
      else if fresh x then some { x with got := x.got ++ [(sub, plainOf s x.nsid x.iu sub b)] } else none
    s.onPath fun p => { p with bufs := p.bufs.filterMap put }
  | .member parent m => modJob s parent fun x => { x with got := x.got ++ [(m, entry, b)] }
  | .scrub page cw => noteOutcome s page cw j.step j.iters

/-- Cause of a lost IU by the kind of copy (R336, R352). -/
def copyCause (k : CopyKind) : Nat :=
  match k with
  | .scrub => 2
  | .rebuild => 4
  | _ => 3

/-! ### Degraded reads -/

/-- The first 16-member set of R308: every available data member, then P in preference to Q, as many as are missing. -/
def memberPlan (unavailable : List Nat) : Option (List Nat) :=
  let data := (List.range 16).filter fun j => !decide (j ∈ unavailable)
  let pars := [16, 17].filter fun j => !decide (j ∈ unavailable)
  let miss := 16 - data.length
  if pars.length < miss then none else some (data ++ pars.take miss)

/-- Content of an element codeword that is not read from the media: still in WAS (its page is not programmed), in the
accumulator (R309), or filler on a failed block (R341). -/
def heldMember (s : State) (b : SuperBlock) (k j cw : Nat) : Option (BitVec 128 × Blk) :=
  if b.fillersOn.any fun x => decide (x.1 = k) && decide (x.2 = j) then some (fillerEntry, 0)
  else match findStripe s b.num k with
    | none => none
    | some t =>
      if j = 16 then (if !slotOpen s t then none else some (parityEntry (nth 0 t.pId cw), nth 0 t.p cw))
      else if j = 17 then (if !slotOpen s t then none else some (parityEntry (nth 0 t.qId cw), nth 0 t.q cw))
      else
        let done := tget (0, 0) b.passes (memberSlot s k j * diesPerChan s + k % diesPerChan s)
        if wlOf b.mode (k / diesPerChan s) < done.2 then none
        else (tget none t.elems j).map fun e => (nth fillerEntry e.entries cw, nth 0 e.data cw)

/-- An element on a failed block that is unavailable: data packed but not paired-page safe, or parity not programmed. Filler there is
taken as filler bytes (R341, R342). -/
def failedMember (s : State) (b : SuperBlock) (k j : Nat) : Bool :=
  let idx := blockIdx s k (memberSlot s k j)
  onFailed b idx && !(b.fillersOn.any fun x => decide (x.1 = k) && decide (x.2 = j))
    && (if j < 16 then !wlSafe s b.mode (tget (0, 0) b.passes idx) (wlOf b.mode (k / diesPerChan s)) else !lastPassed s b k (memberSlot s k j))

/-- Members of a stripe that are unavailable for a column now, other than by decoding (R307, R341, R342): on a failed die or channel or
in block reset and not held by WAS, or on a failed block. -/
def downMembers (s : State) (b : SuperBlock) (k cw : Nat) : List Nat :=
  (List.range 18).filter fun j => failedMember s b k j || ((heldMember s b k j cw).isNone && memberDown s b k j)

/-- Members of the column whose channel is only in RESET (R312: the read waits for them). -/
def resettingMembers (s : State) (b : SuperBlock) (k : Nat) : List Nat :=
  (List.range 18).filter fun j =>
    let die := sbDie s b (memberSlot s k j) (k % diesPerChan s)
    !dieLost s die && decide ((getChan s (dieChan die)).st = .reset)

/-- Issue the member reads a degraded read still needs (R308, R309). -/
def issueMembers (s : State) (j : CwJob) (b : SuperBlock) (ms : List Nat) : State :=
  ms.foldl (fun s m =>
    match findJob s j.id with
    | none => s
    | some cur =>
      if cur.got.any (fun g => decide (g.1 = m)) || s.path.jobs.any fun x => decide (x.purpose = .member j.id m) then s
      else match heldMember s b j.k m j.cw with
        | some (e, d) => modJob s j.id fun x => { x with got := x.got ++ [(m, e, d)] }
        | none => (issueRead s b j.k m j.cw (.member j.id m) none j.cls).1) s

/-- Member reads that served a column are abandoned. -/
def dropMembers (s : State) (id : Nat) : State :=
  (s.path.jobs.filter fun x => match x.purpose with
    | .member q _ => decide (q = id)
    | _ => false).foldl endJob s

/-- Fail a read that step 5 cannot serve: step 6 of R283. -/
def loseJob (s : State) (j : CwJob) : State :=
  let s := endJob s j
  let s := s.onMedia fun m => { m with recon := m.recon - b2n j.hasBuf }
  let s := s.onUpkeep fun u => { u with columnsLost := u.columnsLost + 1 }
  let s := dropMembers s j.id
  let ovl := fun (e : Expect) => if e.kind = 1 then some e.sub else none
  match j.purpose, j.expect with
  | .host p sq cid iu sub, some e =>
    match findCmd s p sq cid, findNs s e.nsid with
    | some _, some n => finishRead (setSub (poisonIu s n e.iu 1 0 (ovl e)) p sq cid iu sub .lost) p sq cid
    | _, some n => poisonIu s n e.iu 1 0 (ovl e)
    | _, none => s
  | .merge p sq cid iu sub, some e =>
    match findNs s e.nsid with
    | none => s
    | some n =>
      -- a base that was not yet lost is lost now; the write's sub-units of the IU go to the overlay (R196)
      let s := poisonIu s n e.iu 3 0 (ovl e)
      match findCmd s p sq cid with
      | some c =>
        let s := mergeFailed s n c iu
        -- the rest of a sub-unit covered in part: the spec states no content (log entry 2)
        let (s, b) := freeBlkOf s
        giveOld s n.nsid iu sub (c.seq.getD 0) b
      | none => s
  | .copy id _, some e =>
    match findNs s e.nsid, s.path.copies.find? fun c => c.id = id with
    | some n, some c =>
      let s := poisonIu s n e.iu (copyCause c.kind) 0 (ovl e)
      s.onPath fun p => { p with copies := p.copies.map fun x => if x.id = id then { x with dead := true } else x }
    | _, _ => s
  | .scrub page cw, some e =>
    -- unrecoverable in patrol scrub: cause 2 (R349)
    match findNs s e.nsid with
    | some n => noteOutcome (poisonIu s n e.iu 2 0 (ovl e)) page cw 6 0
    | none => noteOutcome s page cw 6 0
  | .prefetch buf _, _ => s.onPath fun p => { p with bufs := p.bufs.filter fun x => x.id ≠ buf }
  | _, _ => s

/-- Members unavailable for the column of a job (R307): its own, those whose codeword has failed steps 1 to 4, and those that are down now
and have not been read. -/
def columnDown (s : State) (b : SuperBlock) (j : CwJob) : List Nat :=
  let down := (downMembers s b j.k j.cw).filter fun m => !(j.got.any fun g => decide (g.1 = m))
  (addOnce j.member (j.unavailable ++ down)).dedup

/-- The block reset that sent a read to step 5 has ended, and the column cannot be reconstructed: the member is read again (R312). -/
def readAgain (s : State) (j : CwJob) : State :=
  let s := (dropMembers s j.id).onMedia fun m => { m with recon := m.recon - b2n j.hasBuf }
  let s := modJob s j.id fun x => { x with step := 1, hasBuf := false, got := [], sensed := none, softSenses := 0, queued := false, failed := false }
  queueSense s j.die j.block j.pos 0 none j.cls

/-- Begin or continue the reconstruction of a column (R307 to R310). It waits while a member it needs is in block reset, and reads that
member, or its own, again afterwards (R312). -/
def beginStep5 (s : State) (id : Nat) : State :=
  match findJob s id with
  | none => s
  | some j =>
    match findSb s j.sb with
    | none => s
    | some b =>
      match memberPlan (columnDown s b j) with
      | some ms => issueMembers s j b ms
      | none =>
        let wait := resettingMembers s b j.k
        if !decide (j.member ∈ j.unavailable) && !memberDown s b j.k j.member then readAgain s j
        else if (memberPlan ((columnDown s b j).filter fun m => decide (m ∈ j.unavailable) || !decide (m ∈ wait))).isSome then s
        else loseJob s j

/-- Jobs of step 5 that wait for a reconstruction buffer: host reads first, then in arrival order (R310). -/
def nextWaitingColumn (s : State) : Option CwJob :=
  minBy (fun j => (if j.cls = 3 then 0 else 1) * 4294967296 + j.arrived)
    (s.path.jobs.filter fun j => decide (j.step = 5) && !j.hasBuf && match j.purpose with
      | .member .. | .prefetch .. => false
      | _ => true)

/-- A column takes a free reconstruction buffer when it stands next, and its member reads begin (R310). -/
def takeBuffer (s : State) (id : Nat) : State :=
  if s.media.recon < 64 ∧ (nextWaitingColumn s).map (·.id) = some id then
    beginStep5 (modJob (s.onMedia fun m => { m with recon := m.recon + 1 }) id fun x => { x with hasBuf := true }) id
  else s

/-- Waiting columns take the buffers that are free (R310). -/
def feedColumns : Nat → State → State
  | 0, s => s
  | n + 1, s =>
    match (if s.media.recon < 64 then nextWaitingColumn s else none) with
    | some j => feedColumns n (takeBuffer s j.id)
    | none => s

/-- A codeword joins the columns of step 5 (R283, R310). -/
def joinColumns (s : State) (j : CwJob) : State :=
  let s := modCluster s (groupOf (dieChan j.die)) fun c => { c with toAccord := satAdd 65535 c.toAccord 1 }
  let s := modJob s j.id fun x => { x with step := 5, queued := false, failed := false, arrived := s.path.columnNext }
  takeBuffer (s.onPath fun p => { p with columnNext := p.columnNext + 1 }) j.id

/-- Send a job to step 5 (R283, R285). `own`: its codeword has failed steps 1 to 4; else its channel is being reset or has failed (R28,
R255). A member read never takes step 5: the member becomes unavailable (R308). A prefetch stops (R286). A codeword that patrol scrub reads
and that nothing valid points to is not reconstructed (R349). -/
def toStep5 (s : State) (j : CwJob) (own : Bool := true) : State :=
  let s := leaveCluster s j
  match j.purpose with
  | .member parent m =>
    let s := endJob s j
    beginStep5 (if own then modJob s parent fun x => { x with unavailable := addOnce m x.unavailable } else s) parent
  | .prefetch buf _ => (endJob s j).onPath fun p => { p with bufs := p.bufs.filter fun x => x.id ≠ buf }
  | .scrub page cw =>
    if j.expect.isNone then noteOutcome (endJob s j) page cw (if own then 5 else 1) 0
    else joinColumns (if own then modJob s j.id fun x => { x with unavailable := addOnce j.member x.unavailable } else s) j
  | _ => joinColumns (if own then modJob s j.id fun x => { x with unavailable := addOnce j.member x.unavailable } else s) j

/-! ### Queues and decoders of a cluster -/

/-- Decoders of a cluster: six hard, two soft (R260). -/
def decoderCount (soft : Bool) : Nat := if soft then 2 else 6

/-- Order in which a queue is served: codewords of host reads and of their member reads first, then by arrival (R263). -/
def decodeKey (s : State) (q : List Nat) (id : Nat) : Nat :=
  (match findJob s id with
    | some j => if j.cls = 3 ∧ !isPrefetch j.purpose then 0 else 4294967296
    | none => 0) + q.idxOf id

/-- The codeword that stands first in a queue goes to the first free decoder of its kind (R263). -/
def takeCodeword (g : Nat) (soft : Bool) (s : State) : State :=
  let c := getCluster s g
  let q := if soft then c.softQ else c.hardQ
  let dec := if soft then c.softDec else c.hardDec
  match (if c.st = .reset ∨ decoderCount soft ≤ dec.length then none else minBy (decodeKey s q) q) with
  | none => s
  | some id => modCluster s g fun c =>
    if soft then { c with softQ := c.softQ.filter (· ≠ id), softDec := c.softDec ++ [{ job := id, since := s.now }] }
    else { c with hardQ := c.hardQ.filter (· ≠ id), hardDec := c.hardDec ++ [{ job := id, since := s.now }] }

/-- The free decoders of a cluster take what waits (R260, R263). -/
def feedDecoders (s : State) (g : Nat) : State :=
  (List.range 6).foldl (fun s _ => takeCodeword g true (takeCodeword g false s)) s

/-- A job whose sense can be queued for decoding takes its place in the cluster's queue, and a free decoder takes it (R263). -/
def queueDecode (s : State) (j : CwJob) (soft : Bool) : State :=
  let g := groupOf (dieChan j.die)
  let c := getCluster s g
  if j.queued then s
  else if soft then
    if c.softQ.length < 32 then
      feedDecoders (modJob (modCluster s g fun x => { x with softQ := x.softQ ++ [j.id] }) j.id fun x => { x with queued := true }) g
    else s
  else
    if c.hardQ.length < 256 then
      feedDecoders (modJob (modCluster s g fun x => { x with hardQ := x.hardQ ++ [j.id] }) j.id fun x => { x with queued := true }) g
    else s

/-- The soft senses that the job's step decodes with are there (R283). -/
def softReady (j : CwJob) : Bool := (decide (j.step = 2) && decide (2 ≤ j.softSenses)) || (decide (j.step = 3) && decide (4 ≤ j.softSenses))

/-- Queue a job for the decode of its step where its data is there (R263, R283). -/
def queueIfReady (s : State) (j : CwJob) : State :=
  if j.sensed.isNone ∨ j.decoded.isSome ∨ j.failed then s
  else if j.step = 1 ∨ j.step = 4 then queueDecode s j false
  else if softReady j then queueDecode s j true
  else s

/-- Jobs of a group whose data the sequencers hold because a queue was full (R263). -/
def refillQueues (s : State) (g : Nat) : State :=
  (s.path.jobs.filter fun j => decide (groupOf (dieChan j.die) = g) && !j.queued).foldl queueIfReady s

/-- Number of entries of the retry table that step 4 uses (R283, R292). -/
def retryLimit (s : State) : Nat := min s.policy.retrySteps s.geo.retryCount

/-- A codeword's decode has failed in its step. The time limit of its page runs from the page's first step 1 failure (R283, R284). -/
def markFailed (s : State) (j : CwJob) : State :=
  let at' := ((s.path.jobs.filterMap fun x => if samePage x j then x.failedAt else none).head?).getD s.now
  modJob s j.id fun x => { x with failed := true, failedAt := some at' }

/-- Queue the soft senses of a level that the job still lacks (R281, R283). -/
def senseSoft (s : State) (j : CwJob) (level : Nat) : State :=
  (([2 * level - 1, 2 * level]).filter fun k => decide (j.softSenses < k)).foldl (fun s k => queueSense s j.die j.block j.pos k none j.cls) s

/-- The next step after a failure (R283): soft senses of level 1 or 2, the retry table, or step 5. Soft data that run-ahead has sensed is
used (R281). -/
def escalate (s : State) (j : CwJob) : State :=
  let upd := fun (st : Nat) (r : Nat) => modJob s j.id fun x =>
    { x with step := st, retryIdx := r, failed := false, runAhead := false, sensed := if st = 4 then none else x.sensed }
  match j.step with
    | 1 =>
      let s := senseSoft (upd 2 0) j 1
      (findJob s j.id).elim s (queueIfReady s)
    | 2 => senseSoft (upd 3 0) j 2
    | 3 => if retryLimit s = 0 then toStep5 s j else queueSense (upd 4 0) j.die j.block j.pos 0 (some 0) j.cls
    | _ =>
      if j.retryIdx + 1 < retryLimit s then
        queueSense (upd 4 (j.retryIdx + 1)) j.die j.block j.pos 0 (some (j.retryIdx + 1)) j.cls
      else toStep5 s j

/-- Another codeword of the page has been sensed for the same step, and its decode has not ended: the failed ones wait for it, since they
escalate together (R283). -/
def pageUndecided (s : State) (j : CwJob) : Bool :=
  s.path.jobs.any fun x => samePage x j && decide (x.step = j.step) && decide (x.retryIdx = j.retryIdx) && !x.failed && x.decoded.isNone
    && x.sensed.isSome

/-- Failed codewords whose page has no decode left in their step escalate, together (R283). -/
def escalateReady (s : State) : State :=
  (s.path.jobs.filter fun j => j.failed && !pageUndecided s j).foldl (fun s j => (findJob s j.id).elim s (escalate s)) s

end Sys2Proof.Machine
end

