-- ==== Sys2Proof/Machine/CopyOps.lean ====
section
/-! DEFINITION. Copies of upkeep and rebuild: when upkeep may work (R92, R321, R337, R338, R365, R414, R489), the valid units of a
super-block (R187), its sources (R199, R211, R317, R331, R346, R349), the order in which uses take blocks (R203, R215), gathering and
packing (R320, R332, R333), and applying (R200, R318, R334). -/
namespace Sys2Proof.Machine

/-! ### When upkeep may work -/

/-- Upkeep may read: the drive runs, is not halted, not in DRYDOWN, not in PS3 or PS4, and not cleanly shut down (R92, R365,
R414, R489). -/
def upkeepRuns (s : State) : Bool :=
  mediaLive s && decide (s.run = .running) && decide (s.mediaMode ≠ 2) && !s.hk.halt && !s.journal.anchor.clean && decide (s.misc.drivePs < 3)

/-- free_blocks is below gc_urgent (R338). -/
def gcUrgentNow (s : State) : Bool := decide (freeBlocks s < s.policy.gcUrgent)

/-! ### Valid units -/

/-- A valid unit of a super-block: a whole IU at a physical IU address, or one overlay sub-unit at a place of it (R187, R332). -/
structure SrcUnit where
  pa : Nat
  psub : Nat
  mi : Nat
  sub : Option Nat
  deriving DecidableEq, Repr

/-- The valid units of a super-block (R187). -/
def sbUnits (s : State) (sb : Nat) : List SrcUnit :=
  let base := fun (e : Nat × MapEntry) => if e.2.valid ∧ e.2.pa / slotsS s = sb then some (⟨e.2.pa, 0, e.1, none⟩ : SrcUnit) else none
  let ovl := fun (e : OvlEntry) =>
    if !e.held ∧ !e.trimmed ∧ e.pa / slotsS s = sb then some (⟨e.pa, e.psub, e.mapIndex, some e.sub⟩ : SrcUnit) else none
  s.path.map.filterMap base ++ s.path.ovl.filterMap ovl

/-- A copy of the unit is under way. -/
def inCopy (s : State) (u : SrcUnit) : Bool :=
  s.path.copies.any fun c => !c.dead && decide (c.pa = u.pa) && decide (c.sub = u.sub) && match mapOwner s u.mi with
    | some (n, iu) => decide (c.nsid = n.nsid) && decide (c.iu = iu)
    | none => false

/-- Order in which units are read: by place. -/
def unitKey (u : SrcUnit) : Nat := u.pa * 16 + u.psub

/-- Stripe of a unit, and members that hold its codewords. -/
def unitStripe (s : State) (u : SrcUnit) : Nat := u.pa % slotsS s / iusPerStripe s
def unitOn (s : State) (u : SrcUnit) (j : Nat) : Bool :=
  match u.sub with
  | some _ => decide ((subElem s (u.pa % slotsS s) u.psub).1 = j)
  | none => (List.range (subsPerIu s)).any fun i => decide ((subElem s (u.pa % slotsS s) i).1 = j)

/-- Units that rebuild has still to move, with their super-blocks (R317). -/
def rebuildUnits (s : State) : List (SuperBlock × SrcUnit) :=
  (s.media.sbs.filter fun b => !b.lost.isEmpty && decide (b.use ≠ .journal)).flatMap fun b =>
    ((sbUnits s b.num).filter fun u => decide (0 < stripeState s b (unitStripe s u))).map fun u => (b, u)

/-- Rebuild still has to move a unit of the super-block (R317, R331). -/
def rebuildNeeds (s : State) (b : SuperBlock) : Bool :=
  !b.lost.isEmpty && (sbUnits s b.num).any fun u => decide (0 < stripeState s b (unitStripe s u))

/-- Rebuild may run (R300, R321). -/
def rebuildRuns (s : State) : Bool := upkeepRuns s && decide (18 ≤ chansGood s) && rebuildMay s

/-! ### What is a source of copies -/

/-- The victim that collection works on while the drive is idle: one at a time, of several left over from the foreground the first
in the list of super-blocks (R337; DESIGN CHOICE, log entry 77). -/
def idleVictim (s : State) : Option SuperBlock := s.media.sbs.find? fun b => b.victim && decide (b.use ≠ .slc)

/-- Collection may read from a victim now: in the foreground, or while the drive is idle below gc_bg_target from the one it works on
(R337, R338). -/
def collectionRuns (s : State) (b : SuperBlock) : Bool :=
  gcUrgentNow s || (s.upkeep.idle && decide (s.mediaMode = 0) && decide (freeBlocks s < s.policy.gcBgTarget)
    && (idleVictim s).elim false fun x => decide (x.num = b.num))

/-- Super-blocks in SLC mode outnumber the cache, as the last allocation left it (R209, R211). -/
def slcOver (s : State) : Bool := decide (s.upkeep.slcCache < slcCount s)

/-- The kind of copy that a super-block is a source of now (R211, R331, R346, R349). -/
def copyKindOf (s : State) (b : SuperBlock) : Option CopyKind :=
  if b.victim && decide (b.use = .slc) then (if s.upkeep.idle || slcOver s then some .slcFold else none)
  else if b.victim then (if collectionRuns s b then some .collect else none)
  else if s.upkeep.wearing = some b.num then (if s.mediaMode = 0 && !gcUrgentNow s then some .wear else none)
  else if s.upkeep.relocate.any fun x => decide (x.1 = b.num) then some .scrub
  else none

/-- A unit is queued for relocation (R324, R349). -/
def toRelocate (s : State) (sb : Nat) (u : SrcUnit) : Bool :=
  s.upkeep.relocate.any fun x =>
    decide (x.1 = sb) && decide (x.2.1 = unitStripe s u) && (decide (18 ≤ x.2.2) || unitOn s u x.2.2)

/-! ### Copies: packing and applying -/

/-- The use of the destination of a copy (R204, R211, R332). -/
def copyUse (k : CopyKind) : SbUse :=
  match k with
  | .rebuild => .rebuildDest
  | .slcFold => .hostRu
  | _ => .collection

/-- Where a copy goes: the use of its destination, and the handle, which is its source's for a fold of the SLC cache (R211). -/
def copyGroup (s : State) (c : Copy) : SbUse × Nat :=
  (copyUse c.kind, if c.kind = .slcFold then (findSb s c.sb).elim c.ruh (·.handle) else 0xFF)

/-- The open destination super-block of a group of copies (R203, R204, R211). -/
def groupDest (s : State) (g : SbUse × Nat) : Option SuperBlock := sbWithRoom s g.1 g.2 1

/-- A copy is to be packed there. -/
def groupWaits (s : State) (g : SbUse × Nat) : Bool := s.path.copies.any fun c => !c.dead && c.place.isNone && decide (copyGroup s c = g)

/-! ### Blocks in the order of the uses -/

/-- A use of order 2 to 4 wants blocks: a rebuild destination, a checkpoint or delta-log super-block, a collection super-block (R215). -/
def wantsBlocks (s : State) (u : SbUse) : Bool :=
  match u with
  | .rebuildDest => s.upkeep.rebuilding && (groupDest s (.rebuildDest, 0xFF)).isNone
  | .journal => !(s.media.sbs.any fun b => decide (b.use = .journal) && decide (b.st = .isOpen))
  | .collection => groupWaits s (.collection, 0xFF) && (groupDest s (.collection, 0xFF)).isNone
  | _ => false

/-- Uses that stand before a use in the order of R215 are served first. A refuge replacement takes its blocks as its set is released
(R377). -/
def formBefore (s : State) (u : SbUse) : State :=
  [SbUse.rebuildDest, .journal, .collection].foldl (fun s v =>
    if useOrder v < useOrder u ∧ wantsBlocks s v then formSb s v 0xFF else s) s

/-- Form the successor of a handle whose unit has less than one eighth of RUNS left (R203). -/
def formSuccessor (s : State) (sb : Nat) : State :=
  match findSb s sb with
  | none => s
  | some b =>
    let others := s.media.sbs.any fun x => decide (x.use = .hostRu) && decide (x.handle = b.handle) && decide (x.st = .isOpen) && decide (x.num ≠ sb)
    if b.use = .hostRu ∧ sbRoom s b * 8 < ruUnits s ∧ !others then formSb (formBefore s .hostRu) .hostRu b.handle else s

/-- S_deg stands in for the number of a copy none of whose codewords survives (R320). -/
def copyDeg (s : State) (c : Copy) : Nat := if c.seq = 0 then ((findSb s c.sb).bind (·.sDeg)).getD 0 else c.seq

/-- Everything of the copy has been read, and it is not stale; one that carries S_deg waits for the horizon (R320). -/
def copyReady (s : State) (c : Copy) : Bool :=
  c.need.isEmpty && !c.dead && c.place.isNone && (decide (c.seq ≠ 0) || decide (copyDeg s c ≤ s.path.horizon))

/-- Where neither a surviving codeword nor S_deg gives a number, the spec states none: a free value (log entry 2). -/
def numberCopy (s : State) (c : Copy) : State :=
  let n := if copyDeg s c = 0 then (Config.freeReg (2 * s.freeCtr)).toNat + 1 else copyDeg s c
  let s := if copyDeg s c = 0 then { s with freeCtr := s.freeCtr + 1 } else s
  s.onPath fun p => { p with copies := p.copies.map fun x => if x.id = c.id then { x with seq := n } else x }

/-- Number every copy that is ready to be packed. -/
def numberCopies (s : State) : State := (s.path.copies.filter (copyReady s)).foldl numberCopy s

/-- The codewords of a whole-IU copy, with the sillage entries they keep (R332). -/
def copyWords (s : State) (c : Copy) : List (BitVec 128 × Blk) :=
  (List.range (subsPerIu s)).map fun i =>
    (packEntry c.seq c.iu i 0 c.nsid c.ruh, ((c.got.find? fun g => g.1 = i).map (·.2)).getD 0)

/-- Note that a copy has been placed, and count it against its victim (R339). -/
def placeCopy (s : State) (id : Nat) (pl : Place) (psub : Nat) : State :=
  match s.path.copies.find? fun c => c.id = id with
  | none => s
  | some c =>
    let s := modSb s c.sb fun b => { b with copied := b.copied + copyUnits s c }
    s.onPath fun p => { p with copies := p.copies.map fun x => if x.id = id then { x with place := some pl, psub := psub } else x }

/-- Pack one whole-IU copy into one slot of its destination (R332). -/
def packWhole (s : State) (c : Copy) : State :=
  match groupDest s (copyGroup s c) with
  | none => s
  | some b =>
    match packSlot s b.num (copyWords s c) false with
    | none => s
    | some (s, slot) => formSuccessor (placeCopy s c.id { sb := b.num, slots := [slot] } 0) b.num

/-- Pack whole-IU copies that are complete (R332). -/
def packWholeCopies (s : State) : State := (s.path.copies.filter fun c => c.sub.isNone && copyReady s c).foldl packWhole s

/-- Overlay sub-units of a group that wait to be gathered into a slot, in the order they were read (R332). -/
def gathered (s : State) (g : SbUse × Nat) : List Copy :=
  s.path.copies.filter fun c => c.sub.isSome && decide (copyGroup s c = g) && copyReady s c

/-- A source super-block still has an overlay sub-unit for the group that no copy carries. -/
def feedsMore (s : State) (g : SbUse × Nat) (b : SuperBlock) : Bool :=
  match (if upkeepRuns s then copyKindOf s b else none) with
  | none => false
  | some k => decide (copyUse k = g.1) && (decide (k ≠ .slcFold) || decide (b.handle = g.2))
      && (sbUnits s b.num).any fun u => u.sub.isSome && !inCopy s u && (decide (k ≠ .scrub) || toRelocate s b.num u)

/-- The copy work that feeds a destination has a further overlay sub-unit waiting: one being read, or one still to be read (R332). -/
def moreToGather (s : State) (g : SbUse × Nat) : Bool :=
  (s.path.copies.any fun c => c.sub.isSome && decide (copyGroup s c = g) && !c.dead && c.place.isNone && !copyReady s c)
    || s.media.sbs.any (feedsMore s g)
    || (decide (g.1 = .rebuildDest) && rebuildRuns s && (rebuildUnits s).any fun x => x.2.sub.isSome && !inCopy s x.2)

/-- A gathered sub-unit as it is packed: its sillage entry names it and keeps seq, nsid and ruh (R332). -/
def gatherWord (c : Copy) : BitVec 128 × Blk :=
  (packEntry c.seq c.iu (c.sub.getD 0) 1 c.nsid c.ruh, (c.got.head?.map (·.2)).getD 0)

/-- Pack the gathered sub-units of a group into one slot: a full slot, or a last one completed with filler codewords (R332). none where
there is nothing to pack, or no place. -/
def gatherSlot (s : State) (g : SbUse × Nat) : Option State :=
  let l := (gathered s g).take (subsPerIu s)
  if l.isEmpty || (decide (l.length < subsPerIu s) && moreToGather s g) then none
  else match groupDest s g with
    | none => none
    | some b =>
      match packSlot s b.num (l.map gatherWord) false with
      | none => none
      | some (s, slot) =>
        let placed := ((List.range l.length).zip l).foldl (fun s x => placeCopy s x.2.id { sb := b.num, slots := [slot] } x.1) s
        some (formSuccessor placed b.num)

/-- Pack the gathered sub-units of a group slot by slot (R332). -/
def packGathered (g : SbUse × Nat) : Nat → State → State
  | 0, s => s
  | n + 1, s => match gatherSlot s g with
    | none => s
    | some t => packGathered g n t

/-- The map or the overlay still points to the copy's source (R318, R334). -/
def sourceHolds (s : State) (c : Copy) : Bool :=
  match findNs s c.nsid with
  | none => false
  | some n =>
    let mi := mapIndex s n c.iu
    match c.sub with
    | none => (getMap s mi).valid && decide ((getMap s mi).pa = c.pa)
    | some sub => (ovlFind s mi sub).elim false fun o => !o.trimmed && decide (o.pa = c.pa)

/-- A copy that waited for the horizon to reach S_deg is not made if its source has been replaced meanwhile (R320). -/
def notMade (s : State) (c : Copy) : Bool :=
  decide (c.seq = 0) && decide (c.kind ≠ .fold) && copyReady s c && !sourceHolds s c

/-- Copies that are not packed and never will be are forgotten. -/
def dropDead (s : State) : State :=
  s.onPath fun p => { p with copies := p.copies.filter fun c => !(c.place.isNone && (c.dead || notMade s c)) }

/-- Pack what copies have read (R332, R333). -/
def packCopies (s : State) : State :=
  let s := dropDead s
  if s.journal.anchor.clean then s
  else
    let s := packWholeCopies (numberCopies s)
    ((s.path.copies.filter fun c => c.sub.isSome).map (copyGroup s)).dedup.foldl (fun s g => packGathered g s.path.copies.length s) s

/-- Apply a copy whose wordline is safe: only if the map or the overlay still points to its source (R200, R318, R334,
R335). -/
def applyCopy (s : State) (c : Copy) (pl : Place) : State :=
  let pa := paOf s pl.sb (nth 0 pl.slots 0)
  match findNs s c.nsid with
  | none => s
  | some n =>
    let mi := mapIndex s n c.iu
    if c.kind = .fold then (List.range (subsPerIu s)).foldl (fun s i => ovlRemove s n c.iu i c.seq) (setBase s mi (some pa) c.seq)
    else if !sourceHolds s c then s
    else
      let s := match c.sub with
        | some sub => ovlPlace s mi sub false pa c.psub c.seq
        | none => setBase s mi (some pa) c.seq
      if c.kind = .rebuild then s.onUpkeep fun u => { u with rebuildMoved := u.rebuildMoved + copyUnits s c } else s

/-- Apply the copies that have become paired-page safe, and forget them (R334). -/
def applyCopies (s : State) : State :=
  s.path.copies.foldl (fun s c => match c.place with
    | some pl =>
      if placeDone s pl = 2 then
        let s := if c.dead then s else applyCopy s c pl
        s.onPath fun p => { p with copies := p.copies.filter fun x => x.id ≠ c.id }
      else s
    | none => s) s

/-! ### Exposure and the end of rebuild -/

/-- Rebuild is complete once no exposed or broken stripe holds valid data: bit 2 of the critical warning clears, and the notice is made
(R322, R326, R327). -/
def endRebuild (s : State) : State :=
  if (s.upkeep.rebuilding ∨ s.upkeep.degraded) ∧ rebuildUnits s = [] then
    notice (s.onUpkeep fun u => { u with rebuilding := false, degraded := false, exposedNoticed := false }) 0xC6
  else s

/-- After versions and copies have been applied, where members are lost (R322, R326, R327). -/
def judgeExposure (s : State) : State := if s.media.sbs.any fun b => !b.lost.isEmpty then endRebuild (noteExposed s) else s

/-! ### What patrol scrub does with a page -/

/-- Queue the valid units of a page, or of a whole stripe (member 18), for relocation, unless the whole super-block is to be collected (R349,
R350). -/
def queueRelocation (s : State) (sb k m : Nat) : State :=
  if sb ∈ s.upkeep.class2 then s
  else s.onUpkeep fun u => { u with relocate := if (sb, k, m) ∈ u.relocate then u.relocate else u.relocate ++ [(sb, k, m)] }

/-- A checkpoint or delta-log page that needs step 2 or later is written again (R349, R402). -/
def rewriteSystem (s : State) (x : Bool × Nat) : State :=
  if x.1 then s.onUpkeep fun u => { u with segAgain := addOnce x.2 u.segAgain }
  else deltaProgram (s.onUpkeep fun u => { u with chunkAgain := addOnce x.2 u.chunkAgain })

/-- Act on a page whose four codewords have their outcomes (R349). What is unrecoverable has been poisoned as it was lost. -/
def scrubPage (s : State) (r : ScrubRead) : State :=
  match r.system with
  | some x => if r.outs.any fun o => decide (2 ≤ o.2.1) then rewriteSystem s x else s
  | none =>
    if r.outs.any fun o => decide (5 ≤ o.2.1) then queueRelocation s r.sb r.k 18
    else if r.outs.any fun o => decide (2 ≤ o.2.1) || decide (s.policy.scrubRefreshIters ≤ o.2.2) then queueRelocation s r.sb r.k r.member
    else s

/-- Act on every page that scrub has read (R349). -/
def finishScrubs (s : State) : State :=
  let done := s.upkeep.scrubReads.filter fun r => decide (4 ≤ r.outs.length)
  done.foldl scrubPage (s.onUpkeep fun u => { u with scrubReads := u.scrubReads.filter fun r => !decide (4 ≤ r.outs.length) })

end Sys2Proof.Machine
end

