-- ==== Sys2Proof/Machine/Dies.lean ====
section
/-! DEFINITION. The dies: starting array operations and their grants (R243 to R246, R252, R494), program passes and what
they complete (R238 to R242, R305, R334), failures (R341, R342, R344), and erases with their margin check, suspension and
resumption (R247 to R250, R404). -/
namespace Sys2Proof.Machine

/-! ### Starting operations -/

/-- The first pass of a wordline fixes its program temperature, time and epoch; the first of a block group gives RLT its
prog_temp (R236, R273, R395). -/
def markFirstPass (s : State) (die : Nat) (k : OpKind) : State :=
  match k with
  | .coarse sb idx | .program sb idx =>
    let t := chanTemp s (dieChan die)
    let m : Int × Nat × Nat := ((t.map (clampInt (-128) 127)).getD (-128), powerOnMin s, mapEpoch s)
    let s := modSb s sb fun b => { b with marks := tput none b.marks idx (some m) }
    match findSb s sb with
    | none => s
    | some b =>
      if (tget (0, 0) b.passes idx).1 = 0 then
        putRlt s b idx { getRlt s b idx with progTemp := t.map (clampInt (-128) 127) }
      else s
  | _ => s

/-- A sense applies the offsets of R275, or of the retry entry, as RLT's entry stands at its issue (R278); a checkpoint or delta-log block is
sensed at the image's SLC default offset (R274). -/
def markSense (s : State) (die : Nat) (k : OpKind) : State :=
  match k with
  | .sense block pos soft retry =>
    let t := chanTemp s (dieChan die)
    let upd := fun (j : CwJob) =>
      if j.die = die ∧ j.block = block ∧ j.pos = pos then
        match findSb s j.sb with
        | none => j
        | some b =>
          let e := readRlt s b (blockIdx s j.k (memberSlot s j.k j.member))
          let delta : Int := match soft with
            | 0 => 0
            | 1 => s.image.ldpc.softDelta
            | 2 => -s.image.ldpc.softDelta
            | 3 => 2 * s.image.ldpc.softDelta
            | _ => -(2 * s.image.ldpc.softDelta)
          let offs := (List.range (refCount b.mode)).map fun k => delta + match retry with
            | none => if b.use = .journal then nth 0 e.off k else senseOffset s.geo e t k (zoneOf s b.mode pos)
            | some r => retryOffset s.geo e t k r
          { j with offsets := offs, tRead := t }
      else j
    s.onPath fun p => { p with jobs := p.jobs.map upd }
  | _ => s

/-- A job that the hard sense of its page now starting serves as run-ahead, if the read is one (R279). -/
def aheadJob (die block pos : Nat) (j : CwJob) : Bool :=
  decide (j.die = die) && decide (j.block = block) && decide (j.pos = pos) && decide (j.step = 1) && j.sensed.isNone && !isPrefetch j.purpose

/-- A hard sense starts: its read is issued as run-ahead where R279 says so, and counted. -/
def markRunAhead (s : State) (die : Nat) (k : OpKind) : State :=
  match k with
  | .sense block pos 0 none =>
    match s.path.jobs.find? (aheadJob die block pos) with
    | none => s
    | some j =>
      match findSb s j.sb with
      | none => s
      | some b =>
        if runAheadFor s (readRlt s b (blockIdx s j.k (memberSlot s j.k j.member))) die then
          let s := s.onPath fun p => { p with jobs := p.jobs.map fun j => if aheadJob die block pos j then { j with runAhead := true } else j }
          modCluster s (groupOf (dieChan die)) fun c => { c with raReads := satAdd 65535 c.raReads 1 }
        else s
  | _ => s

/-- A queue of the cluster is full: no new sense starts for the group (R263). -/
def groupFull (s : State) (ch : Nat) : Bool :=
  decide (256 ≤ (getCluster s (groupOf ch)).hardQ.length) || decide (32 ≤ (getCluster s (groupOf ch)).softQ.length)

/-- The moment of R250 has come: enough reads served, no read queued, or a class 4 operation waits. -/
def resumeDue (s : State) (d : Die) : Bool :=
  decide (s.policy.eraseSuspendReads ≤ d.served) || !(d.queue.any fun o => isRead o.kind) || (d.queue.any fun o => decide (clsOf s o = 4))
    || s.hk.halt || entersLow s

/-- A suspended erase is to be resumed before any other operation starts, but for the soft senses of a run-ahead read, which the die is not
released before (R243, R250, R280). -/
def resumeFirst (s : State) (d : Die) (o : DieOp) : Bool := d.susp.isSome && resumeDue s d && !o.ahead

/-- The die's next operation may start: its sequencer is ACTIVE, the die works and is free, the pause is over, and the
cluster takes its data, and no suspended erase comes first (R243, R250, R252, R263). -/
def canStart (s : State) (die : Nat) (o : DieOp) : Bool :=
  mediaLive s && decide ((getChan s (dieChan die)).st = .active) && !(getDie s die).isFailed && (getDie s die).busy.isNone
    && pauseOver s (dieChan die) o.cls && !(isRead o.kind && groupFull s (dieChan die)) && !resumeFirst s (getDie s die) o

/-- A die is free and an operation is queued: the one that stands highest takes its grant or asks for one, and starts
with it (R243 to R246). -/
def startOp (s : State) (die : Nat) : State :=
  match nextOp s (getDie s die) with
  | none => s
  | some o =>
    if !canStart s die o then s
    else if o.cls = 1 ∨ o.granted then markRunAhead (markSense (markFirstPass (beginOp s die o) die o.kind) die o.kind) die o.kind
    else if die ∈ s.hk.waiting then s
    else s.onHk fun h => { h with waiting := h.waiting ++ [die] }

/-- A request can be granted: it fits the budget, or nothing is in use and the budget is not 0 (R493). -/
def grantFits (s : State) (o : DieOp) : Bool :=
  decide (s.hk.inUse + opWeight s o.kind ≤ budget s) || (decide (s.hk.inUse = 0) && decide (0 < budget s))

/-- The waiting request to be granted next: class order of R243 and R244, then arrival, requests of one class ordered by
the rotating pointer of R461 over 32 channels (R494). -/
def nextGrant (s : State) : Option (Nat × DieOp) :=
  let cand := s.hk.waiting.filterMap fun die => (nextOp s (getDie s die)).map fun o => (die, o)
  minBy (fun x => (opRank s (getDie s x.1) x.2 * 4294967296 + s.hk.waiting.idxOf x.1) * 32 + (dieChan x.1 + 32 - s.hk.grantPtr) % 32) cand

/-- The governor decides one waiting request (R493, R494). -/
def grantOne (s : State) : State :=
  match nextGrant s with
  | none => s.onHk fun h => { h with waiting := [] }
  | some (die, o) =>
    if grantFits s o then
      let s := s.onHk fun h => { h with
        inUse := h.inUse + opWeight s o.kind, activeDies := addOnce die h.activeDies
        waiting := h.waiting.filter (· ≠ die), grantPtr := (dieChan die + 1) % 32 }
      let s := modDie s die fun d => { d with queue := d.queue.map fun x => if x = o then { x with granted := true } else x }
      startOp s die
    else s.onHk fun h => { h with waits := satAdd 65535 h.waits 1 }

/-- The die reports ready: its operation ends and its grant returns (R246). -/
def finishOp (s : State) (die : Nat) (o : DieOp) : State := returnGrant (modDie s die fun d => { d with busy := none }) die o

/-! ### Programs -/

/-- Program the pages of a wordline with its last pass, or leave it without readable data after a coarse pass (R238,
R240, R241). -/
def programPages (s : State) (b : SuperBlock) (idx wl : Nat) (last : Bool) : State :=
  let m := idx / diesPerChan s
  let d := idx % diesPerChan s
  (List.range (ppwOf b.mode)).foldl (fun s i =>
    let q := wl * ppwOf b.mode + i
    let key := pageKey (sbDie s b m d) (sbBlock s b m d) q
    match findStripe s b.num (q * diesPerChan s + d) with
    | none => s
    | some t =>
      let pg : Page := if last then pageImage s b m d q t else { cws := [] }
      s.onMedia fun x => { x with pages := tput none x.pages key (some pg) }) s

/-- Codewords of a wordline that hold IU data, in the IU slots that pass a test (claimed of R217, byte 136 of R605). -/
def wlUnitsIn (s : State) (b : SuperBlock) (idx wl : Nat) (f : Nat → Bool) : Nat :=
  let m := idx / diesPerChan s
  let d := idx % diesPerChan s
  sumOf (fun i => match findStripe s b.num ((wl * ppwOf b.mode + i) * diesPerChan s + d) with
    | none => 0
    | some t =>
      let j := slotMember s t.k m
      match tget none t.elems j with
      | some e => if f (t.k * iusPerStripe s + j / elemsPerIu s) then (e.entries.filter fun x => decide (entryKind x ≤ 1)).length else 0
      | none => 0) (List.range (ppwOf b.mode))

def wlUnits (s : State) (b : SuperBlock) (idx wl : Nat) : Nat := wlUnitsIn s b idx wl fun _ => true

/-- A flacon is packed into an IU slot of a super-block. -/
def flaconSlot (s : State) (sb slot : Nat) : Bool :=
  s.path.flacons.any fun e => e.2.place.elim false fun pl => decide (pl.sb = sb) && decide (slot ∈ pl.slots)

/-- Units programmed into a reclaim unit are no longer claimed; nor is what a flacon packs into a collection super-block in its stead
(R217, R360; DEDUCED, log entry 67). `n` is 1 for a last pass. -/
def unclaim (s : State) (b : SuperBlock) (idx wl n : Nat) : State :=
  let k := match b.use with
    | .hostRu => wlUnits s b idx wl
    | .collection => wlUnitsIn s b idx wl (flaconSlot s b.num)
    | _ => 0
  s.onPath fun p => { p with claimed := p.claimed - n * k }

/-- Forget the stripes that are complete, and let the filler stripes of closings take the freed slots first (R305). -/
def settleStripes (s : State) : State :=
  let s := s.onMedia fun m => { m with stripes := m.stripes.filter fun t => !stripeDone s t }
  s.media.sbs.foldl (fun s b =>
    if b.fillWait.isEmpty then s
    else
      let s := addFillers s b.num b.fillWait
      modSb s b.num fun x => if x.st = .closing ∧ x.fillWait.isEmpty then { x with st := .closed } else x) s

/-- A program pass has completed on block idx of a super-block (R148, R239, R240, R305, R326, R327, R334). -/
def passDone (s : State) (sb idx : Nat) (coarse last : Bool) : State :=
  match findSb s sb with
  | none => s
  | some b =>
    let done := tget (0, 0) b.passes idx
    let s := programPages s b idx (if last then done.2 else done.1) last
    let units := if last then wlUnits s b idx done.2 else 0
    let s := modSb s sb fun x => { x with passes := tput (0, 0) x.passes idx (done.1 + b2n coarse, done.2 + b2n last) }
    let s := unclaim s b idx done.2 (b2n last)
    let s := if b.use = .slc then modSb s sb fun x => { x with claimUnits := x.claimUnits + units } else s
    let s := if b.mode ≠ 0 then s.onUpkeep fun u => { u with mediaUnits := u.mediaUnits + units } else s
    let s := queueProgram s sb (idx / diesPerChan s) (idx % diesPerChan s) (decide (b.st = .closing))
    let s := refreshFlacons s sb
    let s := applyCopies (settleStripes s)
    judgeExposure (packCopies (advanceHorizon s))

/-! ### Failures and erases -/

/-- A block of a super-block takes no more programs and the super-block is closed; flacons and copies with data on the
block that is not safe are packed again (R242, R256, R341, R342). `marked`: the block is marked for retirement. -/
def failBlock (s : State) (sb idx : Nat) (marked : Bool) : State :=
  match findSb s sb with
  | none => s
  | some b =>
    let die := sbDie s b (idx / diesPerChan s) (idx % diesPerChan s)
    let qf := (nextPass b idx).2 * ppwOf b.mode
    let s := if marked then
        let s := modBlock s die (nth 0 b.blocks idx) fun x => { x with marked := true }
        s.onUpkeep fun u => { u with class1 := addOnce sb u.class1 }
      else s
    let s := modSb s sb fun x => { x with failed := x.failed ++ [(idx, qf)] }
    let s := unplaceCopies s (copiesOn s sb idx)
    let s := (flaconsOn s sb idx).foldl repack s
    let s := if b.use = .hostRu ∧ b.st = .isOpen then fdpEvent s 6 b.handle else s
    packCopies (closeUnit s sb (some qf))

/-- A block of a super-block is ready: its first program is queued, and chunks that waited for a journal super-block are programmed (R214,
R397). -/
def readyMember (s : State) (sb i : Nat) : State :=
  match findSb s sb with
  | none => s
  | some b => if b.use = .journal then deltaProgram s else queueProgram s sb (i / diesPerChan s) (i % diesPerChan s) false

/-- An erase, or a margin check, of a block has ended well: the block is ready for its use (R214, R377). -/
def blockReady (s : State) (die block : Nat) (u : SbUse) : State :=
  if u = .refuge then
    s.onJournal fun j => { j with
      setA := { j.setA with toErase := j.setA.toErase.filter (· ≠ (die, block)) }
      setB := { j.setB with toErase := j.setB.toErase.filter (· ≠ (die, block)) } }
  else
    s.media.sbs.foldl (fun s b =>
      (b.toErase.filter fun i => decide (sbDie s b (i / diesPerChan s) (i % diesPerChan s) = die) && decide (nth 0 b.blocks i = block)).foldl
        (fun s i => readyMember (modSb s b.num fun x => { x with toErase := x.toErase.filter (· ≠ i) }) b.num i) s) s

/-- An allocation that cannot use a block takes the next block of the die (R256, R344, R404). -/
def replaceBlock (s : State) (die block : Nat) (u : SbUse) : State :=
  let (s, nb) := takeBlock s die u
  let s := checkUrgent s
  match nb with
  | none => s
  | some b' =>
    if u = .refuge then
      let swap := fun (l : List (Nat × Nat)) => l.map fun x => if x = (die, block) then (die, b') else x
      s.onJournal fun j => { j with setA := { j.setA with blocks := swap j.setA.blocks, toErase := swap j.setA.toErase }
                                    setB := { j.setB with blocks := swap j.setB.blocks, toErase := swap j.setB.toErase } }
    else
      let pick := fun (b : SuperBlock) (i : Nat) =>
        if i ∈ b.toErase ∧ sbDie s b (i / diesPerChan s) (i % diesPerChan s) = die ∧ nth 0 b.blocks i = block then b' else nth 0 b.blocks i
      s.onMedia fun m => { m with sbs := m.sbs.map fun b => { b with blocks := (List.range b.blocks.length).map (pick b) } }

/-- Retire a block (R242, R344, R404) and evaluate R358. -/
def retireBlock (s : State) (die block : Nat) : State :=
  checkPreserve (modBlock (jot s (.blockPool die block .retired)) die block fun x => { x with pool := .retired })

/-- MT/s of a rate code of the timing section (R259, R585). -/
def rateMts (code : Nat) : Nat := nth 10 [10, 400, 800, 1200, 1600, 2400, 2800, 3200, 3600] code

/-- n_r and refuge_cover of a set in the erased state (R378). -/
def refugeCoverOf (s : State) : Nat × Nat :=
  let t := s.image.timing
  let perCh := min s.policy.refugeDies (rateMts t.rate * t.tProgSlc / (s.geo.planes * 18432))
  let nR := min 128 (perCh * chansGood s)
  let ops := (8000 - t.tRst - 400) / t.tProgSlc
  (nR, min 65536 ((nR * ops * s.geo.planes * 16384 - 6324224) / 4096))

/-- Recompute refuge_cover and n_r, and arm PLS (R378, R384): on a new drive once both sets have been erased and checked (R377, R646). A
set whose blocks are all erased and checked is in the erased state. -/
def refreshRefuge (s : State) : State :=
  let up := fun (x : RefugeSet) =>
    if x.st = .releasing ∧ x.toErase = [] ∧ x.blocks ≠ [] then { x with st := .erased, isNew := false } else x
  let s := s.onJournal fun j => { j with setA := up j.setA, setB := up j.setB }
  let ready := (decide (s.journal.setA.st = .erased) || decide (s.journal.setB.st = .erased)) && !s.journal.setA.isNew && !s.journal.setB.isNew
  let c := refugeCoverOf s
  s.onJournal fun j => { j with
    nR := if ready then c.1 else 0, cover := if ready then c.2 else 0
    pls := if j.pls ≤ 1 then (if ready ∧ s.run = .running then 1 else j.pls) else j.pls }

/-- The erase-margin check of a block: passed, or erased once more, or retired (R404). -/
def marginResult (s : State) (die block : Nat) (u : SbUse) (again fails : Bool) : State :=
  if !fails then refreshRefuge (blockReady s die block u)
  else if again then retireBlock (replaceBlock s die block u) die block
  else queueOp s die (.erase block u true) (eraseClass u)

/-! ### Meanings -/

/-- ARRAY_OPERATION_START (R243). -/
def execArrayOperationStart (die : Nat) (s : State) : Host.Outcome State Fault Refusal := .next (startOp s die)

/-- DIE_ACTIVITY_GRANT (R494). -/
def execDieActivityGrant (s : State) : Host.Outcome State Fault Refusal := .next (grantOne s)

/-- PROGRAM_PASS_COMPLETE (R239). -/
def programPass (s : State) (die : Nat) : State :=
  match (getDie s die).busy with
  | none => s
  | some o =>
    match o.kind with
    | .coarse sb idx => passDone (finishOp s die o) sb idx true false
    | .fine sb idx => passDone (finishOp s die o) sb idx false true
    | .program sb idx => passDone (finishOp s die o) sb idx true true
    | _ => s

def execProgramPassComplete (die : Nat) (s : State) : Host.Outcome State Fault Refusal := .next (programPass s die)

/-- PROGRAM_FAILURE (R341). -/
def programFails (s : State) (die : Nat) : State :=
  match (getDie s die).busy with
  | none => s
  | some o =>
    match o.kind with
    | .coarse sb idx | .fine sb idx | .program sb idx => failBlock (finishOp s die o) sb idx true
    | _ => s

def execProgramFailure (die : Nat) (s : State) : Host.Outcome State Fault Refusal := .next (programFails s die)

/-- Pages of a block vanish with its erase. -/
def erasePages (s : State) (die block : Nat) : State :=
  s.onMedia fun m => { m with pages := m.pages.filter fun e => decide (e.1 / 65536 ≠ blockKey die block) }

/-- ERASE_COMPLETE (R247): the end record, the erase count, and the margin check of R404 that follows, whose senses are queued in the class
of the erase (R214, R243). The end of a margin check comes by the same command. -/
def eraseDone (s : State) (die : Nat) (marginFails : Bool) : State :=
  match (getDie s die).busy with
  | none => s
  | some o =>
    match o.kind with
    | .erase b u again =>
      let s := finishOp s die o
      let n := (getBlock s die b).erases + 1
      let s := jot s (.eraseEnd die b n)
      let s := modBlock (erasePages s die b) die b fun x => { x with erases := n, unclean := false }
      checkPreserve (queueOp s die (.marginCheck b u again) (eraseClass u))
    | .marginCheck b u again => checkPreserve (marginResult (finishOp s die o) die b u again marginFails)
    | _ => s

def execEraseComplete (die : Nat) (marginFails : Bool) (s : State) : Host.Outcome State Fault Refusal :=
  .next (eraseDone s die marginFails)

/-- ERASE_FAILURE (R344). -/
def eraseFails (s : State) (die : Nat) : State :=
  match (getDie s die).busy with
  | none => s
  | some o =>
    match o.kind with
    | .erase b u _ => retireBlock (replaceBlock (finishOp s die o) die b u) die b
    | _ => s

def execEraseFailure (die : Nat) (s : State) : Host.Outcome State Fault Refusal := .next (eraseFails s die)

/-- A class 3 read is queued, an erase runs, and it may be suspended (R249). An unclean block's erase is not (R403). -/
def suspendable (s : State) (d : Die) : Bool :=
  match d.busy with
  | some o =>
    match o.kind with
    | .erase _ _ _ => decide (d.runFrom + s.policy.eraseResumeMin ≤ s.now) && decide (d.suspends < s.policy.eraseSuspendMax)
        && !(d.queue.any fun x => decide (clsOf s x = 4)) && !entersLow s && !s.hk.halt
    | _ => false
  | none => false

def hostReadQueued (d : Die) : Bool := d.queue.any fun o => decide (o.cls = 3) && isRead o.kind

/-- The class 3 reads of a die wait for its erase; each is counted once (R249, R259). -/
def countWaits (s : State) (die : Nat) : State :=
  let new := fun (o : DieOp) => decide (o.cls = 3) && isRead o.kind && !o.waited
  let n := ((getDie s die).queue.filter new).length
  let s := modDie s die fun d => { d with queue := d.queue.map fun o => if new o then { o with waited := true } else o }
  modChan s (dieChan die) fun c => { c with suspendRefused := satAdd 65535 c.suspendRefused n }

/-- ERASE_SUSPEND (R249): the erase is suspended and returns its grant, or the reads wait and are counted. -/
def suspendErase (s : State) (die : Nat) : State :=
  let d := getDie s die
  if !hostReadQueued d then s
  else match d.busy with
    | none => s
    | some o =>
      match o.kind with
      | .erase b _ _ =>
        if suspendable s d && !(getBlock s die b).unclean then
          let s := returnGrant s die o
          let s := modDie s die fun d => { d with busy := none, susp := some { o with granted := false }, suspends := d.suspends + 1, served := 0 }
          modChan s (dieChan die) fun c => { c with suspends := satAdd 65535 c.suspends 1 }
        else countWaits s die
      | _ => s

def execEraseSuspend (die : Nat) (s : State) : Host.Outcome State Fault Refusal := .next (suspendErase s die)

/-- ERASE_RESUME (R250): an array operation under R252, with a grant of its own (R493). -/
def resumeErase (s : State) (die : Nat) : State :=
  let d := getDie s die
  match d.susp with
  | none => s
  | some o =>
    if !d.busy.isNone || !resumeDue s d || d.queue.any (·.ahead) || !pauseOver s (dieChan die) 2 || !grantFits s o then s
    else
      let s := s.onHk fun h => { h with inUse := h.inUse + opWeight s o.kind, activeDies := addOnce die h.activeDies }
      let s := modDie s die fun d => { d with busy := some { o with granted := true }, susp := none, runFrom := s.now, served := 0 }
      modChan s (dieChan die) fun c => { c with lastStart := some s.now }

def execEraseResume (die : Nat) (s : State) : Host.Outcome State Fault Refusal := .next (resumeErase s die)

end Sys2Proof.Machine
end

