-- ==== Sys2Proof/Machine/Reads.lean ====
section
/-! DEFINITION. The read path's commands: the end of a sense (R228, R229, R280), of a decode (R234, R262, R276, R277,
R283, R285), the recovery budget (R284), reconstruction (R306 to R311), and prefetching (R288). -/
namespace Sys2Proof.Machine

/-! ### Whole pages -/

/-- The four codewords of an element's page, descrambled; none where one of them does not decode. -/
def pageWords (s : State) (b : SuperBlock) (k j : Nat) : Option (List CwBits) :=
  let d := k % diesPerChan s
  let q := k / diesPerChan s
  let m := memberSlot s k j
  let die := sbDie s b m d
  let block := sbBlock s b m d
  match (if block = noBlock then none else tget none s.media.pages (pageKey die block q)) with
  | none => none
  | some p =>
    let vs := (List.range 4).map fun c => scramble die block q c (nth erasedCw p.cws c)
    if p.cws.length = 4 && vs.all (ldpcCheck s.image.ldpc) then some vs else none

/-- Checks of R234 that a decoded page fails: its crc, its tag. -/
def crcFails (vs : List CwBits) : Bool := !crcGood (pageRecord vs)
def tagFails (s : State) (vs : List CwBits) : Bool := !tagGood s.sec.mdk (pageRecord vs)

/-- Count sillage tag check failures (SEC_TAG). -/
def countTags (s : State) (n : Nat) : State := s.onSec fun x => { x with tagFail := satAdd 4294967295 x.tagFail n }

/-! ### Senses -/

/-- A codeword as it stands on the media; a page never programmed is erased (R228). -/
def pageCw (s : State) (die block pos cw : Nat) : CwBits :=
  match tget none s.media.pages (pageKey die block pos) with
  | some p => nth erasedCw p.cws cw
  | none => erasedCw

/-- A job waits for a hard sense, and was there when the sense began; in steps 2 and 3 it does where its data was lost (R264). -/
def wantsHard (die block pos : Nat) (retry : Option Nat) (j : CwJob) : Bool :=
  decide (j.die = die) && decide (j.block = block) && decide (j.pos = pos) && j.sensed.isNone && !j.offsets.isEmpty && match retry with
    | none => decide (j.step ≤ 3)
    | some r => decide (j.step = 4) && decide (j.retryIdx = r)

/-- A job takes a soft sense: in steps 2 and 3, or ahead of them. -/
def wantsSoft (die block pos soft : Nat) (j : CwJob) : Bool :=
  decide (j.die = die) && decide (j.block = block) && decide (j.pos = pos) && j.sensed.isSome && j.decoded.isNone
    && decide (j.softSenses + 1 = soft)
    && (decide (j.step = 3) || (decide (soft ≤ 2) && (decide (j.step = 2) || (decide (j.step = 1) && j.runAhead))))

/-- The limit of R284 has passed for a job in steps 2 to 4, or about to enter them. -/
def budgetOver (s : State) (j : CwJob) : Bool :=
  ((decide (2 ≤ j.step) && decide (j.step ≤ 4)) || j.failed) && j.decoded.isNone && match j.failedAt with
    | some t => elapsed s t s.policy.readRecoverBudget
    | none => false

def isScrub (u : Purpose) : Bool :=
  match u with
  | .scrub .. => true
  | _ => false

/-- A hard sense reaches one job: an erased codeword goes to step 5, any other is descrambled and queued (R227, R228,
R285). An erased page that patrol scrub reads, and where nothing is expected, is no failure (R349). -/
def hardSensed (s : State) (errs : List CwBits) (j : CwJob) : State :=
  let raw := pageCw s j.die j.block j.pos j.cw ^^^ nth 0 errs j.cw
  if isErasedCw raw then toStep5 s j (!(j.expect.isNone && isScrub j.purpose))
  else
    let s := modJob s j.id fun x => { x with sensed := some (scramble j.die j.block j.pos j.cw raw) }
    (findJob s j.id).elim s (queueIfReady s)

/-- A soft sense reaches one job. -/
def softSensed (s : State) (us : Nat) (j : CwJob) : State :=
  let s := modJob s j.id fun x => { x with softSenses := x.softSenses + 1, softUs := x.softUs + us }
  (findJob s j.id).elim s (queueIfReady s)

/-- The two level-1 soft senses of a run-ahead read follow its hard sense at once, in class 3; the die is not released before them (R243,
R280). -/
def queueRunAhead (s : State) (die block pos : Nat) (o : DieOp) : State :=
  let op := fun (k : Nat) => ({ kind := .sense block pos k none, cls := 3, queuedAt := o.queuedAt, ahead := true } : DieOp)
  modDie s die fun d => { d with queue := op 1 :: op 2 :: d.queue }

/-- Soft senses of run-ahead that nobody uses (R281, R282). -/
def dropSoft (s : State) (g n us : Nat) : State :=
  modCluster s g fun c => { c with raDropped := satAdd 65535 c.raDropped n, raDieUs := satAdd 4294967295 c.raDieUs us }

/-- A read that checks the tag of its page: rebuild and patrol scrub (R234). -/
def checksTag (s : State) (j : CwJob) : Bool :=
  match j.purpose with
  | .copy id _ => s.path.copies.any fun c => decide (c.id = id) && decide (c.kind = .rebuild)
  | .scrub .. => true
  | _ => false

/-- Hand over the decoded codewords of pages: at once, or once all four of the page are decoded and the page's CRC (and for
a rebuild or scrub read its tag) has been checked (R234, R235). The tag covers the record that all four codewords carry (R230, R231). -/
def releaseDecoded (s : State) : State :=
  s.path.jobs.foldl (fun s j0 =>
    match findJob s j0.id with
    | none => s
    | some j =>
      match (if j.step < 5 then j.decoded else none) with
      | none => s
      | some v =>
        let mates := s.path.jobs.filter fun x => samePage x j && decide (x.step < 5)
        let four := (List.range 4).filterMap fun c => mates.find? fun x => x.cw = c
        if four.length < 4 then deliver s j (cwEntry v) (cwData v)
        else if four.any fun x => x.decoded.isNone then s
        else
          let page := pageRecord (four.map fun x => x.decoded.getD 0)
          let tagBad := mates.any (checksTag s) && !tagGood s.sec.mdk page
          let s := if tagBad then countTags s 1 else s
          (mates.filter fun x => x.decoded.isSome).foldl (fun s x =>
            if crcGood page && !(tagBad && checksTag s x) then deliver s x (cwEntry (x.decoded.getD 0)) (cwData (x.decoded.getD 0))
            else toStep5 (modJob s x.id fun y => { y with decoded := none }) { x with decoded := none }) s) s

/-- What has been read has its effects: decoded pages are handed over, the failed codewords of a page escalate together (R283), free
reconstruction buffers are taken (R310), pages that patrol scrub has read are acted on (R349), and copies that have all their data are packed
(R332). -/
def settleReads (s : State) : State :=
  packCopies (finishScrubs (feedColumns 64 (escalateReady (releaseDecoded s))))

/-- The sense of a die has ended: its codewords go to the cluster (R228, R229, R263, R280 to R282). At a sense boundary the
jobs whose budget is over go to step 5 (R284). -/
def senseEnd (s : State) (die : Nat) (errs : List CwBits) : State :=
  match (getDie s die).busy with
  | none => s
  | some o =>
    match o.kind with
    | .sense block pos soft retry =>
      let us := s.now - (getDie s die).runFrom
      let s := finishOp s die o
      let here := s.path.jobs.filter fun j => decide (j.die = die) && decide (j.block = block) && decide (j.pos = pos)
      let late := here.filter (budgetOver s)
      let s := late.foldl (fun s j => toStep5 (dropSenses s j) j) s
      let s :=
        if soft = 0 then
          let l := s.path.jobs.filter (wantsHard die block pos retry)
          let s := if l.any (·.runAhead) then queueRunAhead s die block pos o else s
          l.foldl (fun s j => hardSensed s errs j) s
        else
          let l := s.path.jobs.filter (wantsSoft die block pos soft)
          if l.isEmpty && o.ahead then dropSoft s (groupOf (dieChan die)) 1 us
          else l.foldl (fun s j => softSensed s us j) s
      settleReads s
    | _ => s

/-- SENSE_COMPLETE (R229). -/
def execSenseComplete (die : Nat) (errs : List CwBits) (s : State) : Host.Outcome State Fault Refusal :=
  .next (senseEnd s die errs)

/-! ### Decodes -/

/-- The entry that decoded is the one the map or the overlay expects (R234). -/
def entryExpected (x : Option Expect) (e : BitVec 128) : Bool :=
  match x with
  | none => true
  | some w => decide (entryNsid e = w.nsid) && decide (entryIu e = w.iu) && decide (entrySub e = w.sub) && decide (entryKind e = w.kind)

/-- Excess of ones in the sensed hard-decision bits over the decoded bits, both as they stand on the page (R276; DEDUCED,
log entry 11). -/
def imbalance (j : CwJob) (est : CwBits) : Int :=
  let on := fun (v : CwBits) => (onesCount (scramble j.die j.block j.pos j.cw v) : Int)
  match j.sensed with
  | some v => on v - on est
  | none => 0

/-- A learned offset is a signed byte (R272). Beyond its limits the spec states no result: a free value (DESIGN CHOICE, log entry 80). -/
def offByte (x : Int) : Int := if -128 ≤ x ∧ x ≤ 127 then x else (Config.freeOff x).toInt

/-- One step of the offsets at the end of a batch (R276). -/
def rltStep (thresh : Int) (now : Nat) (e : RltEntry) : RltEntry :=
  let off := (List.range 15).map fun k =>
    let mean := truncDiv (nth 0 e.acc k) e.samples
    let o := nth 0 e.off k
    offByte (if thresh ≤ mean then o - 1 else if mean ≤ -thresh then o + 1 else o)
  { e with off := off, acc := List.replicate 15 0, samples := 0, learned := true, updated := now }

/-- The update rule after a successful decode at the offsets of R275 (R276). -/
def rltUpdate (g : Geometry) (p : Policy) (now : Nat) (refs : List Nat) (imb : Int) (iters : Nat) (hardFailed : Bool)
    (e : RltEntry) : RltEntry :=
  let acc := (List.range 15).map fun k =>
    if k ∈ refs then sat16 (nth 0 e.acc k + (nth {} g.refs k).pol * imb) else nth 0 e.acc k
  let towards := fun (x : Nat) (y : Int) => ((x : Int) + truncDiv (y - x) 8).toNat
  let e := { e with acc := acc, samples := e.samples + 1, iterAvg := towards e.iterAvg (4 * iters)
                    failAvg := towards e.failAvg (if hardFailed then 255 else 0) }
  if p.rltBatch ≤ e.samples then rltStep p.rltThresh now e else e

/-- Offsets that a success in step 4 leaves: the retry entry's less the t_term of the RLT entry (R275, R277). -/
def rltFromRetry (g : Geometry) (j : CwJob) (mode : Nat) (e : RltEntry) : RltEntry :=
  let off := (List.range 15).map fun k =>
    if k < refCount mode then offByte (nth 0 (nth [] g.retryTable j.retryIdx) k - tTerm g e j.tRead k) else 0
  { e with off := off, acc := List.replicate 15 0, samples := 0, fromRetry := true }

/-- prog_temp of a group that knows none, from the decoded page's sillage (record byte 23, in codeword 0; R236, R274). -/
def rltTemp (j : CwJob) (est : CwBits) (e : RltEntry) : RltEntry :=
  let t := byteInt (nth 0 (cwMeta est) 23)
  if e.progTemp.isNone ∧ j.cw = 0 ∧ t ≠ -128 then { e with progTemp := some t } else e

/-- The super-block of a job and its block group, where RLT keeps an entry for it: checkpoint and delta-log blocks have none (R272, R274). -/
def rltGroup (s : State) (j : CwJob) : Option (SuperBlock × Nat) :=
  ((findSb s j.sb).filter fun b => decide (b.use ≠ .journal)).map fun b => (b, blockIdx s j.k (memberSlot s j.k j.member))

/-- RLT after a successful decode (R274, R276, R277). -/
def rltSuccess (s : State) (j : CwJob) (est : CwBits) (iters : Nat) : State :=
  match rltGroup s j with
  | none => s
  | some (b, idx) =>
    let e := rltTemp j est (getRlt s b idx)
    let soft := decide (j.step = 2) || decide (j.step = 3)
    let e := if j.step = 4 then rltFromRetry s.geo j b.mode e
      else rltUpdate s.geo s.policy (powerOnMin s) (refsOfPage s b.mode j.pos) (imbalance j est)
        (if soft then s.image.ldpc.hardIterMax else iters) soft e
    putRlt s b idx e

/-- A hard decoding failure (R277, R293). -/
def hardFailed (s : State) (j : CwJob) : State :=
  let s := modCluster s (groupOf (dieChan j.die)) fun c => { c with hardFail := satAdd 65535 c.hardFail 1 }
  match rltGroup s j with
  | none => s
  | some (b, idx) =>
    let e := getRlt s b idx
    putRlt s b idx { e with hardFail := satAdd 65535 e.hardFail 1 }

/-- A hard success of a run-ahead page: with its last codeword, and where none of them has failed, the soft senses still queued are not issued,
and those done are discarded (R281, R282). -/
def endRunAhead (s : State) (j : CwJob) : State :=
  if !j.runAhead || decide (j.step ≠ 1) then s
  else if s.path.jobs.any fun x => samePage x j && decide (x.id ≠ j.id) && x.runAhead && x.decoded.isNone then s
  else
    let s := dropOps s j.die fun o => o.ahead && (decide (o.kind = .sense j.block j.pos 1 none) || decide (o.kind = .sense j.block j.pos 2 none))
    if j.softSenses = 0 then s else dropSoft s (groupOf (dieChan j.die)) j.softSenses j.softUs

/-- A decoder gives its codeword up, and takes the next (R262, R263). -/
def leaveDecoder (s : State) (j : CwJob) : State :=
  feedDecoders (modJob (leaveCluster s j) j.id fun x => { x with queued := false }) (groupOf (dieChan j.die))

/-- The codeword is in a decoder of its cluster, which is not in reset (R260, R264). -/
def inDecoder (s : State) (j : CwJob) : Bool :=
  let c := getCluster s (groupOf (dieChan j.die))
  decide (c.st ≠ .reset) && (c.hardDec ++ c.softDec).any fun d => decide (d.job = j.id)

/-- The decode was soft: steps 2 and 3 (R283). -/
def softStep (j : CwJob) : Bool := decide (j.step = 2) || decide (j.step = 3)

/-- The estimate satisfies every check within the iterations allowed (R262). -/
def decodeChecks (s : State) (j : CwJob) (r : DecodeResult) : Bool :=
  decide (r.iters ≤ if softStep j then s.image.ldpc.softIterMax else s.image.ldpc.hardIterMax) && ldpcCheck s.image.ldpc r.estimate

/-- A codeword decoded to the entry that was expected: RLT and the counters take it, and the job holds it (R234, R276). -/
def decodeOk (s : State) (j : CwJob) (r : DecodeResult) : State :=
  let s := rltSuccess s j r.estimate r.iters
  let s := modCluster s (groupOf (dieChan j.die)) fun c =>
    if softStep j then { c with softOk := satAdd 65535 c.softOk 1 }
    else if j.step = 4 then { c with retryOk := satAdd 65535 c.retryOk 1 } else c
  endRunAhead (modJob s j.id fun x => { x with decoded := some r.estimate, iters := r.iters }) j

/-- A decoding failure: counted where it is a hard one; a codeword that decoded to another entry goes to step 5, a prefetch stops, any other
takes the next step with the failed codewords of its page (R234, R283, R286). -/
def decodeFail (s : State) (j : CwJob) (checks : Bool) : State :=
  let s := if softStep j then s else hardFailed s j
  if checks || isPrefetch j.purpose then toStep5 s j else markFailed s j

/-- A decoder has finished with a job (R234, R262, R283, R285). -/
def decodeEnd (s : State) (id : Nat) (r : DecodeResult) : State :=
  match findJob s id with
  | none => s
  | some j =>
    if !inDecoder s j then s
    else
      let s := leaveDecoder s j
      let s := if decodeChecks s j r && entryExpected j.expect (cwEntry r.estimate) then decodeOk s j r
        else decodeFail s j (decodeChecks s j r)
      refillQueues (settleReads s) (groupOf (dieChan j.die))

/-- DECODE_COMPLETE (R262). -/
def execDecodeComplete (job : Nat) (r : DecodeResult) (s : State) : Host.Outcome State Fault Refusal :=
  .next (decodeEnd s job r)

/-- The recovery budget of a page is over: its codewords in steps 2 to 4 go to step 5, at once or, while a sense of the page
runs, at its end (R284). -/
def budgetEnd (s : State) (id : Nat) : State :=
  match findJob s id with
  | none => s
  | some j =>
    let running := match (getDie s j.die).busy with
      | some o =>
        match o.kind with
        | .sense b q _ _ => decide (b = j.block) && decide (q = j.pos)
        | _ => false
      | none => false
    if !budgetOver s j || running then s
    else settleReads ((s.path.jobs.filter fun x => samePage x j && budgetOver s x).foldl (fun s x => toStep5 s x) (dropSenses s j))

/-- READ_RECOVER_BUDGET_EXPIRY (R284). -/
def execReadRecoverBudgetExpiry (job : Nat) (s : State) : Host.Outcome State Fault Refusal := .next (budgetEnd s job)

/-! ### Reconstruction -/

/-- The column of a job from the members read: its user data and identity word (R301, R306). -/
def rebuildColumn (j : CwJob) (ms : List Nat) : Option (Blk × BitVec 32) :=
  let have' := j.got.filter fun g => decide (g.1 ∈ ms)
  let data := have'.filter fun g => decide (g.1 < 16)
  let missing := (List.range 16).filter fun x => !(data.any fun g => decide (g.1 = x))
  let par := fun (n : Nat) => have'.find? fun g => g.1 = n
  let parId := fun (g : Nat × BitVec 128 × Blk) => BitVec.ofNat 32 (entryIu g.2.1)
  let d := reconstruct (data.map fun g => (g.1, g.2.2)) ((par 16).map (·.2.2)) ((par 17).map (·.2.2)) missing
  let i := reconstruct (data.map fun g => (g.1, identityWord g.2.1)) ((par 16).map parId) ((par 17).map parId) missing
  match d, i with
  | some d, some i =>
    match d.find? (fun x => x.1 = j.member), i.find? (fun x => x.1 = j.member) with
    | some x, some y => some (x.2, y.2)
    | _, _ => none
  | _, _ => none

/-- The column is complete: compare the identity word, and deliver or give up (R235, R311). -/
def finishColumn (s : State) (j : CwJob) (ms : List Nat) : State :=
  match rebuildColumn j ms, j.expect with
  | some (b, idw), some e =>
    let entry := packEntry 0 e.iu e.sub e.kind e.nsid 0xFF
    if idw = identityWord entry then
      let s := s.onUpkeep fun u => { u with columnsRebuilt := u.columnsRebuilt + 1 }
      (deliver s j entry b).onMedia fun m => { m with recon := m.recon - b2n j.hasBuf }
    else loseJob s j
  | _, _ => loseJob s j

/-- Work on a job of step 5: it takes a reconstruction buffer, asks for the members it lacks, or is computed once they are
there (R306 to R312). -/
def reconstructJob (s : State) (id : Nat) : State :=
  match findJob s id with
  | none => s
  | some j =>
    if j.step ≠ 5 then s
    else if !j.hasBuf then takeBuffer s id
    else
      match (findSb s j.sb).bind fun b => memberPlan (columnDown s b j) with
      | none => beginStep5 s id
      | some ms => if ms.all fun m => j.got.any fun g => decide (g.1 = m) then finishColumn s j ms else beginStep5 s id

/-- RECONSTRUCTION (R306). -/
def execReconstruction (job : Nat) (s : State) : Host.Outcome State Fault Refusal :=
  .next (settleReads (reconstructJob s job))

/-! ### Prefetch -/

/-- Reads queued for a die that are not prefetches. -/
def demandReads (s : State) (die : Nat) : Nat :=
  ((getDie s die).queue.filter fun o => match o.kind with
    | .sense b q _ _ => s.path.jobs.any fun j => decide (j.die = die) && decide (j.block = b) && decide (j.pos = q) && !isPrefetch j.purpose
    | _ => false).length

/-- Free read-ahead buffers, those of the least recently extended stream first, until one more IU fits (R289). -/
def makeRoom (s : State) (p : PortId) : Nat → State
  | 0 => s
  | n + 1 =>
    if (s.path.bufs.length + 1) * iuBytes s ≤ s.policy.readaheadBuf * 1048576 then s
    else
      match minBy (·.usedAt) s.path.bufs with
      | none => s
      | some b => makeRoom (s.onPath fun x => { x with bufs := x.bufs.filter fun y => y.id ≠ b.id }) p n

/-- Look an IU up and queue its prefetch senses (R288, R290). Sub-units that read as zeros need none. -/
def prefetchIu (s : State) (p : PortId) (stream : Nat) (used : Nat) (n : Namespace) (iu : Nat) : State :=
  let mi := mapIndex s n iu
  let s := makeRoom s p s.path.bufs.length
  if s.policy.readaheadBuf * 1048576 < (s.path.bufs.length + 1) * iuBytes s then s
  else
    let id := s.path.bufNext
    let buf : RaBuf := { id := id, nsid := n.nsid, iu := iu, ver := getVer s mi, stream := stream, port := p, usedAt := used }
    let s := s.onPath fun x => { x with bufNext := id + 1, bufs := x.bufs ++ [buf] }
    (List.range (subsPerIu s)).foldl (fun s sub =>
      match selMap s mi sub with
      | .media pa psub kind => (readAt s pa psub (.prefetch id sub) (some { nsid := n.nsid, iu := iu, sub := sub, kind := kind }) 3).1
      | _ => s.onPath fun x => { x with bufs := x.bufs.map fun y => if y.id = id then { y with got := y.got ++ [(sub, 0)] } else y }) s

/-- Prefetch for a sequential stream: the next whole IU it has not looked up, up to readahead_depth ahead (R287, R288). -/
def prefetchNext (s : State) (p : PortId) (stream : Nat) : State :=
  match (s.port p).streams[stream]? with
  | none => s
  | some t =>
    match findNs s t.nsid with
    | none => s
    | some n =>
      let last := t.lastLba / lbasPerIu s n
      let iu := max t.nextIu (last + 1)
      let mi := mapIndex s n iu
      let dies := ((List.range (subsPerIu s)).filterMap fun sub => match selMap s mi sub with
        | .media pa psub _ => (findSb s (pa / slotsS s)).map fun b =>
            let slot := pa % slotsS s
            let k := slot / iusPerStripe s
            sbDie s b (memberSlot s k (subElem s slot psub).1) (k % diesPerChan s)
        | _ => none).dedup
      if t.extensions < 2 ∨ last + s.policy.readaheadDepth < iu ∨ n.nsze / lbasPerIu s n ≤ iu ∨ dies.any fun d => 2 ≤ demandReads s d then s
      else
        let s := s.onPort p fun pt => { pt with streams := setNth pt.streams stream fun x => { x with nextIu := iu + 1 } }
        let staged := (List.range (subsPerIu s)).any fun sub =>
          !(stagedSubs s n.nsid iu sub).isEmpty || !(stagedTrims s n.nsid iu sub).isEmpty
        if staged || !(getMap s mi).valid then s else prefetchIu s p stream t.usedAt n iu

/-- PREFETCH (R288). -/
def execPrefetch (p : PortId) (stream : Nat) (s : State) : Host.Outcome State Fault Refusal := .next (prefetchNext s p stream)

end Sys2Proof.Machine
end

