-- ==== Sys2Proof/Machine/Io.lean ====
section
/-! DEFINITION. I/O commands from their fetch to their completion: port order and slots (R68 to R72, R94, R130), MAP's
acceptance (R131, R132, R75, R290), reads (R134 to R137, R183, R287, R291), writes and their admission (R144, R193 to R198),
Flush and Seal (R152, R153), staging, packing and applying (R138, R140 to R143, R147, R190, R202, R203, R210, R360). -/
namespace Sys2Proof.Machine

/-! ### Fetching -/

/-- Pool slots held by a port (R68). -/
def slotsOf (pt : Port) : Nat := pt.cmds.length

/-- The port may take one more slot: all 16,384 in single x4 mode; in dual x2 mode 4,096 guaranteed, at most 12,288, and
8,192 shared (R68). -/
def slotFree (s : State) (p : PortId) : Bool :=
  if !s.boot.strapPort then decide (slotsOf s.portA < 16384)
  else
    let n := slotsOf (s.port p)
    decide (n < 4096) || (decide (n < 12288) && decide ((slotsOf s.portA - 4096) + (slotsOf s.portB - 4096) < 8192))

/-- The port fetches I/O commands: the link is clocked, its controller is enabled and ready, and nothing has stopped it (R30, R163,
R499, R524, R566). -/
def mayFetch (s : State) (p : PortId) : Bool :=
  let pt := s.port p
  pt.refclk && pt.fetching && pt.ccEn && pt.rdy && !pt.cfs && (decide (s.sec.sanStep = 0) || s.sec.sanRerun) && (decide (s.run = .running) || decide (s.run = .recovery))

/-- The next of some queues after a pointer, in round robin order (R71). -/
def rrNext (ptr : Nat) (l : List Sq) : Option Sq := minBy (fun q => (q.id + 65535 - ptr) % 65536) l

/-- Weight of a class in the Arbitration feature: high, medium, low (R71; the feature's bits are the base specification's,
log entry 3). -/
def wrrWeight (arb i : Nat) : Nat := field arb (31 - 8 * i) (24 - 8 * i) + 1

/-- A fetch from the queue is free of a weight, or its class has a credit left. -/
def creditLeft (pt : Port) (q : Sq) : Bool :=
  decide (pt.ccAms = 0) || decide (q.prio = 0) || decide (0 < nth 0 pt.wrrLeft (q.prio - 1))

/-- Each command fetched takes one credit of its class (R71; PRESUMED, log entry 25). -/
def takeCredit (q : Sq) (pt : Port) : Port :=
  if pt.ccAms = 0 ∨ q.prio = 0 then pt else { pt with wrrLeft := setNth pt.wrrLeft (q.prio - 1) (· - 1) }

/-- Choose a submission queue and account for it: a burst under way goes on while its class has credits, else round robin, or weighted
round robin with urgent class (R71). -/
def chooseSq (pt : Port) : Option (Sq × Port) :=
  let ready := pt.sqs.filter fun q => !q.entries.isEmpty
  let arb := tget 0 pt.features 1
  let burst := if field arb 2 0 = 7 then 65536 else 2 ^ field arb 2 0
  let take := fun (q : Sq) (pt : Port) => (q, takeCredit q { pt with rrPtr := q.id, curSq := q.id, burstLeft := burst - 1 })
  match ready.find? fun q => q.id = pt.curSq ∧ 0 < pt.burstLeft ∧ creditLeft pt q with
  | some q => some (q, takeCredit q { pt with burstLeft := pt.burstLeft - 1 })
  | none =>
    if pt.ccAms = 0 then (rrNext pt.rrPtr ready).map fun q => take q pt
    else match rrNext pt.rrPtr (ready.filter fun q => q.prio = 0) with
      | some q => some (take q pt)
      | none =>
        let cls := fun (i : Nat) => ready.filter fun q => decide (q.prio = i + 1)
        let full := (List.range 3).map (wrrWeight arb)
        let left := if (List.range 3).any fun i => !(cls i).isEmpty && decide (0 < nth 0 pt.wrrLeft i) then pt.wrrLeft else full
        match (List.range 3).find? fun i => !(cls i).isEmpty && decide (0 < nth 0 left i) with
        | none => none
        | some i => (rrNext pt.rrPtr (cls i)).map fun q => take q { pt with wrrLeft := left }

/-- I/O commands cannot run yet: recovery has not ended, or a Sanitize runs again after a reset (R566, R635). -/
def notReady (s : State) : Bool := decide (s.run = .recovery) || s.sec.sanRerun

/-- A port's selection returns to its last operational state when a command is fetched in PS3 or PS4 (R94). -/
def wakePs (s : State) (p : PortId) : State :=
  if 3 ≤ s.misc.drivePs then takePs (s.onPort p fun pt => if 3 ≤ pt.selPs then { pt with selPs := pt.lastOpPs } else pt) else s

/-- What the link has replayed and corrected by FEC since the last fetch is for the world outside to say: HFEx_LINKERR counts a number of
each that nothing constrains (R97; log entry 70). -/
def linkErrors (s : State) (p : PortId) : State :=
  let k := s.freeCtr
  ({ s with freeCtr := k + 1 }).onPort p fun pt => { pt with
    replayCount := satAdd 65535 pt.replayCount (Config.freeReg (2 * k)).toNat
    fecCorrected := satAdd 65535 pt.fecCorrected (Config.freeReg (2 * k + 1)).toNat }

/-- Fetch one submission entry and fix its place in port order; commands that cannot be executed complete (R70, R72, R78,
R130, R566). -/
def fetchOne (s : State) (p : PortId) : State :=
  if !mayFetch s p || !slotFree s p then s
  else match chooseSq (s.port p) with
    | none => s
    | some (q, pt) =>
      match q.entries with
      | [] => s
      | e :: rest =>
        let c : OutCmd := { port := p, sq := q.id, entry := e, stage := .fetched }
        let popped := fun (x : Sq) => if x.id = q.id then { x with entries := rest } else x
        let pt := { pt with sqs := pt.sqs.map popped }
        let pt := { pt with cmds := pt.cmds ++ [c], peak := max pt.peak (pt.cmds.length + 1) }
        let s := linkErrors (s.onPort p fun _ => pt) p
        let s := (s.onUpkeep fun u => { u with idle := false }).onMisc fun m => { m with lastIo := some s.now }
        let s := wakePs s p
        if notReady s then ioEnd s c .namespaceNotReady
        else match e.ptr, e.op with
          | .sglOther, _ => ioEnd s c .sglTypeInvalid
          | _, .unsupported _ => ioDone s p q.id e.cid .invalidOpcode
          | _, .dsmOther => ioDone s p q.id e.cid .success
          | _, _ => s

/-- COMMAND_FETCH (R130). -/
def execCommandFetch (p : PortId) (s : State) : Host.Outcome State Fault Refusal := .next (fetchOne s p)

/-! ### What a command covers -/

/-- Pieces of the 4 KiB unit `g` of a namespace that a range of LBAs covers, as a mask of 512-byte pieces. -/
def unitMask (n : Namespace) (r : Nat × Nat) (g : Nat) : Nat :=
  if n.flbas = 1 then sumOf (fun i => if r.1 ≤ 8 * g + i ∧ 8 * g + i < r.1 + r.2 then 2 ^ i else 0) (List.range 8)
  else if r.1 ≤ g ∧ g < r.1 + r.2 then 255 else 0

/-- The 4 KiB units of a range. -/
def unitsOf (n : Namespace) (r : Nat × Nat) : List Nat :=
  if r.2 = 0 then []
  else
    let first := r.1 / lbasPerSub n
    (List.range ((r.1 + r.2 - 1) / lbasPerSub n + 1 - first)).map (· + first)

/-- Each IU that ranges cover, with its covered sub-units and their masks, in LBA order. -/
def coverOf (s : State) (n : Namespace) (rs : List (Nat × Nat)) : List (Nat × List (Nat × Nat)) :=
  let units := (rs.flatMap (unitsOf n)).foldr addRising []
  let ius := (units.map (· / subsPerIu s)).dedup
  ius.map fun iu => (iu, (units.filter fun g => decide (g / subsPerIu s = iu)).map fun g =>
    (g % subsPerIu s, rs.foldl (fun m r => m ||| unitMask n r g) 0))

/-- LBA ranges of an operation. -/
def rangesOf (o : IoOp) : List (Nat × Nat) :=
  match o with
  | .read a k | .write a k _ _ | .writeZeroes a k _ _ | .verify a k => [(a, k)]
  | .deallocate rs => rs
  | _ => []

/-- A map-changing command (R75). -/
def isWriteOp (o : IoOp) : Bool :=
  match o with
  | .write .. | .writeZeroes .. | .deallocate .. => true
  | _ => false

/-- A Write carries data of the host; a Write Zeroes and a Deallocate do not. -/
def hasData (o : IoOp) : Bool :=
  match o with
  | .write .. => true
  | _ => false

/-- Namespace and range checks of an I/O command (R67; statuses of the base specification). -/
def rangeCheck (s : State) (e : IoEntry) : Namespace ⊕ Status :=
  match findNs s e.nsid with
  | none => .inr .invalidNamespace
  | some n =>
    let big := match e.op with
      | .read _ k | .write _ k _ _ => decide (2097152 < k * lbaBytes n)
      | _ => false
    if !n.attached then .inr .invalidNamespace
    else if big then .inr .invalidField
    else if (rangesOf e.op).any fun r => decide (n.nsze < r.1 + r.2) then .inr .lbaOutOfRange
    else .inl n

/-! ### Deciding a write -/

/-- The treatment of one IU, with the overlay entries it reserves (R193, R198). none: Write Fault. -/
def decideIu (s : State) (n : Namespace) (data : Bool) (x : Nat × List (Nat × Nat)) : Option (State × IuPlan) :=
  let mi := mapIndex s n x.1
  let subs := x.2.map (·.1)
  let whole := decide (subs.length = subsPerIu s) && (data || x.2.all fun y => decide (y.2 = 255))
  let newSubs := subs.filter fun i => !(s.path.ovl.any fun e => decide (e.mapIndex = mi) && decide (e.sub = i))
  let room := decide (ovlInProbe s mi + newSubs.length ≤ 64)
  let limit := 134217728 * s.policy.overlayFillLimit / 100
  let bad := (getMap s mi).poisoned
  if whole then some (s, { iu := x.1, subs := subs, kind := if data then .whole else .trim })
  else if room && (decide (s.path.ovl.length + newSubs.length ≤ limit) || bad) then
    some (subs.foldl (fun s i => ovlReserve s mi i) s, { iu := x.1, subs := subs, kind := .overlay })
  else if bad then none
  else some (s, { iu := x.1, subs := subs, kind := .merge })

/-- The treatment of every IU of a write, one after another in LBA order (R193). -/
def decideAll (n : Namespace) (data : Bool) : State → List (Nat × List (Nat × Nat)) → Option (State × List IuPlan)
  | s, [] => some (s, [])
  | s, x :: xs =>
    match decideIu s n data x with
    | none => none
    | some (s, pl) =>
      match decideAll n data s xs with
      | none => none
      | some (s, pls) => some (s, pl :: pls)

/-- Units of one IU: a whole or merge IU its size, an overlay IU one for each sub-unit with data (R144, R194, R198). -/
def planUnits (s : State) (data : Bool) (pl : IuPlan) (cov : List (Nat × Nat)) : Nat :=
  match pl.kind with
  | .whole | .merge => subsPerIu s
  | .overlay => if data then pl.subs.length else (cov.filter fun y => decide (y.2 ≠ 255)).length
  | .trim => 0

/-- need(w) (R144). -/
def needOf (s : State) (data : Bool) (pls : List IuPlan) (cov : List (Nat × List (Nat × Nat))) : Nat :=
  ((pls.zip cov).map fun x => planUnits s data x.1 x.2.2).sum

/-- gc_allow (R144). -/
def gcAllow (s : State) : Nat :=
  if s.policy.gcUrgent ≤ freeBlocks s then 65536 else s.upkeep.gcEarned + s.policy.admitFloat - s.upkeep.hostAdmitted

/-- avail (R144). -/
def admitAvail (s : State) : Nat :=
  min (min (flaconFree s) (s.journal.cover - stagedUnits s)) (min (placeFree s) (gcAllow s))

/-- Reclaim unit handle of a write: the internal handle while FDP is disabled, else an entry of the namespace's list, the
first without a directive (R86, R202). none: an index outside the list. -/
def handleOf (s : State) (n : Namespace) (o : IoOp) : Option Nat :=
  if !s.path.fdp then some 254
  else match o with
    | .write _ _ _ (some i) => n.handles[i]?
    | _ => some (nth 0 n.handles 0)

/-- The first command of a port that MAP has not accepted; commands held by a handover stand aside (R131, R133, R117). -/
def nextInOrder (s : State) (p : PortId) : Option OutCmd :=
  (s.port p).cmds.find? fun c => decide (c.stage = .fetched) || decide (c.stage = .waiting) || decide (c.stage = .admitted)

/-- It is the command's turn. -/
def isTurn (s : State) (c : OutCmd) : Bool :=
  match nextInOrder s c.port with
  | some d => sameCmd c.sq c.entry.cid d
  | none => false

/-! ### Allotting flacons -/

/-- An overlay flacon of a handle that has room and whose data is not yet complete (R140, R141, R190). -/
def openOverlay (s : State) (h : Nat) : Option Nat :=
  (s.path.flacons.find? fun e =>
    (match e.2.st with
      | .allotted | .filling => true
      | _ => false)
    && decide (e.2.handle = h) && decide (e.2.subs.length < 16) && e.2.subs.all fun x => decide (x.kind = 1)).map (·.1)

/-- Put one overlay sub-unit into staging. -/
def allotOverlay (s : State) (h : Nat) (x : FSub) : State :=
  let i := (openOverlay s h).getD (firstFree s)
  restage (modFlacon s i fun f => { f with handle := h, st := if f.subs.isEmpty then .allotted else f.st, subs := f.subs ++ [x] }) i

/-- Put whole IUs into fresh flacons, as many to a flacon as it holds (R141). -/
def allotWhole (h : Nat) (perFlacon : Nat) : Nat → State → List (List FSub) → State
  | 0, s, _ => s
  | n + 1, s, ius =>
    match ius.take perFlacon with
    | [] => s
    | l =>
      let i := firstFree s
      let f : Flacon := { st := .allotted, handle := h, subs := l.flatten, units := l.flatten.length }
      allotWhole h perFlacon n (modFlacon s i fun _ => f) (ius.drop perFlacon)

/-- Staged sub-units of one IU of a write (R139, R194 to R198). Zeros of a Write Zeroes stand in for host data. -/
def stageIu (s : State) (n : Namespace) (w : PortId × Nat × Nat) (data : Bool) (pl : IuPlan) (cov : List (Nat × Nat)) : List FSub :=
  let mk := fun (i mask kind : Nat) =>
    ({ nsid := n.nsid, iu := pl.iu, sub := i, seq := 0, kind := kind, data := 0, filled := false, mask := mask
       host := if data then none else some 0, writer := some w } : FSub)
  let maskOf := fun (i : Nat) => ((cov.find? fun y => y.1 = i).map (·.2)).getD 0
  match pl.kind with
  | .whole | .merge => (List.range (subsPerIu s)).map fun i => mk i (maskOf i) 0
  | .overlay => (pl.subs.filter fun i => data || decide (maskOf i ≠ 255)).map fun i => mk i (maskOf i) 1
  | .trim => []

/-- Flacons a write takes beyond those it can share. -/
def flaconsNeeded (s : State) (h : Nat) (staged : List (List FSub)) : Nat :=
  let whole := (staged.filter fun l => l.any fun x => decide (x.kind = 0)).length
  let ovl := (staged.flatten.filter fun x => decide (x.kind = 1)).length
  let room := match openOverlay s h with
    | some i => 16 - (getFlacon s i).subs.length
    | none => 0
  ceilDiv whole (16 / subsPerIu s) + ceilDiv (ovl - room) 16

/-- Admit a write whose turn it is, if its need fits: it takes its units, its overlay entries and its flacons; a set clean
flag is cleared first (R144, R193, R414, R567). -/
def admitWrite (s : State) (c : OutCmd) : State :=
  let s := checkUrgent s
  match rangeCheck s c.entry with
  | .inr st => ioDone s c.port c.sq c.entry.cid st
  | .inl n =>
    let data := hasData c.entry.op
    let cov := coverOf s n (rangesOf c.entry.op)
    match decideAll n data s cov, handleOf s n c.entry.op with
    | none, _ => ioDone s c.port c.sq c.entry.cid .writeFault
    | _, none => ioDone s c.port c.sq c.entry.cid .invalidField
    | some (t, pls), some h =>
      let need := needOf s data pls cov
      let w := (c.port, c.sq, c.entry.cid)
      let staged := (pls.zip cov).map fun x => stageIu s n w data x.1 x.2.2
      if (0 < need ∧ (admitAvail s < need ∨ 4096 < s.path.flacons.length + flaconsNeeded s h staged)) then
        modCmd s c.port c.sq c.entry.cid fun x => { x with stage := .waiting, plans := pls, need := need }
      else
        let t := if t.journal.anchor.clean then putAnchor t fun a => { a with clean := false } else t
        let t := t.onUpkeep fun u => { u with
          hostAdmitted := if u.urgent then u.hostAdmitted + need else u.hostAdmitted, hostUnits := u.hostUnits + need }
        let t := t.onPath fun x => { x with claimed := x.claimed + need }
        let whole := staged.filter fun l => l.any fun x => decide (x.kind = 0)
        let t := allotWhole h (16 / subsPerIu s) whole.length t whole
        let t := (staged.flatten.filter fun x => decide (x.kind = 1)).foldl (fun t x => allotOverlay t h x) t
        modCmd t c.port c.sq c.entry.cid fun x => { x with stage := .admitted, plans := pls, need := need }

/-- WRITE_ADMISSION (R144). -/
def admitNext (s : State) (p : PortId) : State :=
  match nextInOrder s p with
  | none => s
  | some c => if c.stage = .waiting then admitWrite s c else s

def execWriteAdmission (p : PortId) (s : State) : Host.Outcome State Fault Refusal := .next (admitNext s p)

/-- Evaluate a fetched map-changing command: held in a handover, refused from the observer and in PRESERVE and DRYDOWN,
checked, and decided; it then waits for admission credits (R72, R79, R80, R86, R99, R101, R117, R133, R193, R359, R373). -/
def startWrite (s : State) (c : OutCmd) (fua : Bool) : State :=
  let id := c.entry.cid
  if c.stage ≠ .fetched then s
  else if s.own.phase = .handover then modCmd s c.port c.sq id fun x => { x with stage := .held }
  else if !isOwner s c.port || decide (s.mediaMode ≠ 0) then ioDone s c.port c.sq id .nsWriteProtected
  else match rangeCheck s c.entry with
    | .inr st => ioDone s c.port c.sq id st
    | .inl n =>
      match handleOf s n c.entry.op with
      | none => fdpEvent (ioDone s c.port c.sq id .invalidField) 4 0
      | some _ =>
        let data := hasData c.entry.op
        let cov := coverOf s n (rangesOf c.entry.op)
        let s := modCmd s c.port c.sq id fun x => { x with fua := fua || s.path.vwcOff || !s.hk.holdupReady }
        match decideAll n data s cov with
        | none => if isTurn s c then ioDone s c.port c.sq id .writeFault
            else modCmd s c.port c.sq id fun x => { x with stage := .waiting }
        | some (_, pls) =>
          modCmd s c.port c.sq id fun x => { x with stage := .waiting, plans := pls, need := needOf s data pls cov }

/-- WRITE (R193). -/
def runWrite (s : State) (p : PortId) (sq cid : Nat) : State :=
  match findCmd s p sq cid with
  | none => s
  | some c =>
    match c.entry.op with
    | .write _ _ fua _ => startWrite s c fua
    | _ => s

def execWrite (p : PortId) (sq cid : Nat) (s : State) : Host.Outcome State Fault Refusal := .next (runWrite s p sq cid)

/-- Admit a command without data at once where it is its turn and it takes no credit units (R149, R198). -/
def admitIfFree (s : State) (p : PortId) (sq cid : Nat) : State :=
  match findCmd s p sq cid with
  | none => s
  | some c => if c.stage = .waiting ∧ c.need = 0 ∧ isTurn s c then admitWrite s c else s

/-- WRITE_ZEROES (R149, R186, R198): it trims, whichever its Deallocate bit is (DEDUCED, log entry 69). -/
def runWriteZeroes (s : State) (p : PortId) (sq cid : Nat) : State :=
  match findCmd s p sq cid with
  | none => s
  | some c =>
    match c.entry.op with
    | .writeZeroes _ _ _ fua => admitIfFree (startWrite s c fua) p sq cid
    | _ => s

def execWriteZeroes (p : PortId) (sq cid : Nat) (s : State) : Host.Outcome State Fault Refusal :=
  .next (runWriteZeroes s p sq cid)

/-- DATASET_MANAGEMENT_DEALLOCATE (R149). -/
def runDeallocate (s : State) (p : PortId) (sq cid : Nat) : State :=
  match findCmd s p sq cid with
  | none => s
  | some c =>
    match c.entry.op with
    | .deallocate _ => admitIfFree (startWrite s c false) p sq cid
    | _ => s

def execDatasetManagementDeallocate (p : PortId) (sq cid : Nat) (s : State) : Host.Outcome State Fault Refusal :=
  .next (runDeallocate s p sq cid)

/-! ### Acceptance by MAP -/

/-- The old content that one staged sub-unit needs, as of the number before the write's (R134, R139, R195, R197). -/
def fetchOld (s : State) (c : OutCmd) (n : Namespace) (seq : Nat) (x : FSub) : State :=
  let give := fun (s : State) (b : Blk) => giveOld s n.nsid x.iu x.sub seq b
  match selectSub s n x.iu x.sub (seq - 1) with
  | .zeros => give s 0
  | .staged f q =>
    match (getFlacon s f).subs.find? fun y => y.nsid = n.nsid ∧ y.iu = x.iu ∧ y.sub = x.sub ∧ y.seq = q with
    | some y => give s (plainOf s n.nsid x.iu x.sub y.data)
    | none => give s 0
  | .pending q => modSubs s (c.port, c.sq, c.entry.cid) fun y =>
      if y.iu = x.iu ∧ y.sub = x.sub then { y with waits := some q } else y
  | .media pa psub kind =>
    (readAt s pa psub (.merge c.port c.sq c.entry.cid x.iu x.sub) (some { nsid := n.nsid, iu := x.iu, sub := x.sub, kind := kind }) 3).1
  | .poisoned =>
    -- the base is lost: the write's sub-units go to the overlay (R196); the rest of a sub-unit has no stated content
    let s := mergeFailed s n c x.iu
    let (s, b) := freeBlkOf s
    give s b

/-- Settle the staged sub-units of a write that need nothing more, and fetch the old content of the others. -/
def fetchOlds (s : State) (c : OutCmd) (n : Namespace) (seq : Nat) : State :=
  let w := (c.port, c.sq, c.entry.cid)
  let s := modSubs s w (settleSub s)
  let wait := (s.path.flacons.flatMap fun e => e.2.subs).filter fun x =>
    decide (x.writer = some w) && !x.filled && x.old.isNone && decide (x.mask ≠ 255)
  wait.foldl (fun s x => fetchOld s c n seq x) s

/-- The trims that a Write Zeroes or a Deallocate stages (R149, R198). -/
def stageTrims (s : State) (c : OutCmd) (n : Namespace) (seq : Nat) : State :=
  let cov := coverOf s n (rangesOf c.entry.op)
  (c.plans.zip cov).foldl (fun s x =>
    let part := x.2.2.filterMap fun y => if y.2 = 255 then some y.1 else none
    let add := fun (whole : Bool) (subs : List Nat) => s.onPath fun p => { p with
      trimNext := p.trimNext + 1
      trims := p.trims ++ [{ id := p.trimNext, seq := seq, nsid := n.nsid, iu := x.1.iu, subs := subs, whole := whole }] }
    match x.1.kind with
    | .trim => add true x.1.subs
    | .overlay => if part.isEmpty then s else add false part
    | _ => s) s

/-- MAP accepts a map-changing command: it receives its number, the version counters of its IUs rise, and its versions enter
the staging index (R75, R131, R149, R290). One that stages no data is Protected at once. -/
def acceptWrite (s : State) (c : OutCmd) : State :=
  match findNs s c.entry.nsid with
  | none => failWrite s c .invalidNamespace
  | some n =>
    let (s, seq) := assignSeq s c.port
    let s := modCmd s c.port c.sq c.entry.cid fun x => { x with stage := .running, seq := some seq }
    let s := modSubs s (c.port, c.sq, c.entry.cid) fun x => { x with seq := seq }
    let s := c.plans.foldl (fun s x => bumpVer s (mapIndex s n x.iu)) s
    let s := if hasData c.entry.op then s else stageTrims s c n seq
    protectIfDone (fetchOlds s { c with stage := .running, seq := some seq } n seq) c.port c.sq c.entry.cid

/-- Sub-units that a read or a verify covers: IU and sub-unit. -/
def subsOf (s : State) (n : Namespace) (o : IoOp) : List (Nat × Nat) :=
  (coverOf s n (rangesOf o)).flatMap fun x => x.2.map fun y => (x.1, y.1)

/-- Read-ahead buffers that are current as MAP accepts a read and hold all that it needs of their IU (R291). One whose data has not all
arrived is of no use to the read (DESIGN CHOICE, log entry 74). -/
def usableBufs (s : State) (n : Namespace) (subs : List (Nat × Nat)) : List RaBuf :=
  s.path.bufs.filter fun b =>
    decide (b.nsid = n.nsid) && decide (getVer s (mapIndex s n b.iu) = b.ver)
      && subs.all fun x => decide (x.1 ≠ b.iu) || b.got.any fun g => decide (g.1 = x.2)

/-- Sub-units of a read that the usable buffers serve. -/
def bufferHits (usable : List RaBuf) (subs : List (Nat × Nat)) : List SubRead :=
  subs.filterMap fun x =>
    match usable.find? fun b => b.iu = x.1 with
    | none => none
    | some b => (b.got.find? fun g => g.1 = x.2).map fun g => ⟨x.1, x.2, .done g.2⟩

/-- Every other buffer of an IU that is read is discarded (R291). -/
def dropBufs (s : State) (n : Namespace) (subs : List (Nat × Nat)) (usable : List RaBuf) : State :=
  s.onPath fun p => { p with bufs := p.bufs.filter fun b =>
    !(decide (b.nsid = n.nsid) && subs.any fun x => decide (x.1 = b.iu)) || usable.any fun u => decide (u.id = b.id) }

/-- MAP accepts a Read: the read-ahead buffers that are current at this moment serve it, the others of its IUs are discarded (R291). -/
def takeBuffers (s : State) (c : OutCmd) : State :=
  match c.entry.op, rangeCheck s c.entry with
  | .read .., .inl n =>
    let subs := subsOf s n c.entry.op
    let usable := usableBufs s n subs
    modCmd (dropBufs s n subs usable) c.port c.sq c.entry.cid fun x => { x with subs := bufferHits usable subs }
  | _, _ => s

/-- MAP accepts a command that changes no map: it records the snapshot, and the horizon that a Seal reports (R132, R152, R291). -/
def acceptRead (s : State) (c : OutCmd) : State :=
  modCmd (takeBuffers s c) c.port c.sq c.entry.cid fun x =>
    { x with stage := .accepted, snapshot := some (s.path.nextSeq - 1), sealAt := s.path.horizon }

/-- The port's next command that is ready for MAP: an admitted write below the ceiling, or any other command just fetched
(R131, R133, R394). -/
def readyForMap (s : State) (p : PortId) : Option OutCmd :=
  match nextInOrder s p with
  | none => none
  | some c =>
    if isWriteOp c.entry.op then (if c.stage = .admitted ∧ seqAllowed s then some c else none)
    else if c.stage = .fetched then some c else none

/-- MAP accepts one command, the owner's first (R131). -/
def acceptOne (s : State) : State :=
  let go := fun (c : OutCmd) => if isWriteOp c.entry.op then acceptWrite s c else acceptRead s c
  match readyForMap s s.own.owner with
  | some c => go c
  | none =>
    match readyForMap s s.own.owner.other with
    | some c => go c
    | none => s

/-- MAP_ACCEPT (R131). -/
def execMapAccept (s : State) : Host.Outcome State Fault Refusal := .next (acceptOne s)

/-! ### Reads -/

/-- Serve one sub-unit of a read: from staging (its flacon is pinned), from the media (its super-block is pinned), as zeros,
or not at all (R134, R137, R183). -/
def selectForRead (s : State) (c : OutCmd) (n : Namespace) (snapshot : Nat) (x : Nat × Nat) : State × SubRead :=
  match selectSub s n x.1 x.2 snapshot with
  | .pending q => (s, ⟨x.1, x.2, .waiting q⟩)
  | .staged f q => (modFlacon s f fun y => { y with pins := y.pins + 1 }, ⟨x.1, x.2, .staged f q⟩)
  | .zeros => (s, ⟨x.1, x.2, .done 0⟩)
  | .poisoned => (s, ⟨x.1, x.2, .lost⟩)
  | .media pa psub kind =>
    match readAt s pa psub (.host c.port c.sq c.entry.cid x.1 x.2) (some { nsid := n.nsid, iu := x.1, sub := x.2, kind := kind }) 3 with
    | (s, some id) => (s, ⟨x.1, x.2, .job id⟩)
    | (s, none) => (s, ⟨x.1, x.2, .lost⟩)

def selectSubs (c : OutCmd) (n : Namespace) (snapshot : Nat) : State → List (Nat × Nat) → State × List SubRead
  | s, [] => (s, [])
  | s, x :: xs =>
    let (s, r) := selectForRead s c n snapshot x
    let (s, rs) := selectSubs c n snapshot s xs
    (s, r :: rs)

/-- Track read streams: a read that follows a stream's last LBA extends it, any other replaces the least recently extended
of 64 (R287). A buffer keeps the time of its stream's latest extension (R289). -/
def trackStream (s : State) (p : PortId) (nsid slba nlb : Nat) : State :=
  let streams := (s.port p).streams
  let hit := fun (t : Stream) => decide (t.nsid = nsid) && decide (t.lastLba + 1 = slba)
  let i := streams.findIdx hit
  let mine := fun (k : Nat) (b : RaBuf) => decide (b.port = p) && decide (b.stream = k)
  if i < streams.length then
    let s := s.onPort p fun pt => { pt with streams := setNth pt.streams i fun t =>
      { t with lastLba := slba + nlb - 1, extensions := t.extensions + 1, usedAt := s.now } }
    s.onPath fun x => { x with bufs := x.bufs.map fun b => if mine i b then { b with usedAt := s.now } else b }
  else
    let t : Stream := { nsid := nsid, lastLba := slba + nlb - 1, extensions := 0, usedAt := s.now, nextIu := 0 }
    if streams.length < 64 then s.onPort p fun pt => { pt with streams := pt.streams ++ [t] }
    else match minBy (fun k => (nth t streams k).usedAt) (List.range 64) with
      | some k =>
        (s.onPort p fun pt => { pt with streams := setNth pt.streams k fun _ => t }).onPath fun x =>
          { x with bufs := x.bufs.map fun b => if mine k b then { b with stream := 64 } else b }
      | none => s

/-- Run an accepted read or verify: what no read-ahead buffer gave is selected as of the snapshot (R134, R291). -/
def startRead (s : State) (c : OutCmd) : State :=
  let id := c.entry.cid
  match rangeCheck s c.entry with
  | .inr st => ioDone s c.port c.sq id st
  | .inl n =>
    let rest := (subsOf s n c.entry.op).filter fun x => !(c.subs.any fun h => decide (h.iu = x.1) && decide (h.sub = x.2))
    let (s, rs) := selectSubs c n (c.snapshot.getD 0) s rest
    finishRead (modCmd s c.port c.sq id fun x => { x with stage := .running, subs := c.subs ++ rs }) c.port c.sq id

/-- READ (R134). -/
def runRead (s : State) (p : PortId) (sq cid : Nat) : State :=
  match findCmd s p sq cid with
  | none => s
  | some c =>
    match c.entry.op with
    | .read slba nlb => if c.stage = .accepted then startRead (trackStream s p c.entry.nsid slba nlb) c else s
    | _ => s

def execRead (p : PortId) (sq cid : Nat) (s : State) : Host.Outcome State Fault Refusal := .next (runRead s p sq cid)

/-- VERIFY (R157): the media are read and nothing goes to the host. -/
def runVerify (s : State) (p : PortId) (sq cid : Nat) : State :=
  match findCmd s p sq cid with
  | none => s
  | some c =>
    match c.entry.op with
    | .verify _ _ => if c.stage = .accepted then startRead s c else s
    | _ => s

def execVerify (p : PortId) (sq cid : Nat) (s : State) : Host.Outcome State Fault Refusal := .next (runVerify s p sq cid)

/-- Select again the sub-units of a read that wait for a version which is committed or gone (R135). -/
def reselectRead (s : State) (c : OutCmd) (n : Namespace) : State :=
  c.subs.foldl (fun s x =>
    match x.st with
    | .waiting _ =>
      let (s, r) := selectForRead s c n (c.snapshot.getD 0) (x.iu, x.sub)
      setSub s c.port c.sq c.entry.cid x.iu x.sub r.st
    | _ => s) s

/-- READ_WAIT_END (R135): the reads of a command, or the merges of a write, select again. -/
def endWait (s : State) (p : PortId) (sq cid : Nat) : State :=
  match findCmd s p sq cid with
  | none => s
  | some c =>
    match findNs s c.entry.nsid with
    | none => s
    | some n =>
      if isWriteOp c.entry.op then
        let w := (p, sq, cid)
        let wait := (s.path.flacons.flatMap fun e => e.2.subs).filter fun x => decide (x.writer = some w) && x.waits.isSome
        let s := modSubs s w fun x => { x with waits := none }
        wait.foldl (fun s x => fetchOld s c n (c.seq.getD 0) x) s
      else if c.stage = .running then finishRead (reselectRead s c n) p sq cid else s

def execReadWaitEnd (p : PortId) (sq cid : Nat) (s : State) : Host.Outcome State Fault Refusal := .next (endWait s p sq cid)

/-! ### Flush and Seal -/

/-- FLUSH (R153): it waits for its snapshot, and the stripes it depends on are closed. -/
def runFlush (s : State) (p : PortId) (sq cid : Nat) : State :=
  match findCmd s p sq cid with
  | none => s
  | some c =>
    match c.entry.op with
    | .flush =>
      if c.stage = .accepted then
        let s := modCmd s p sq cid fun x => { x with stage := .running }
        horizonDone (advanceHorizon (closeIfDue s)) p
      else s
    | _ => s

def execFlush (p : PortId) (sq cid : Nat) (s : State) : Host.Outcome State Fault Refusal := .next (runFlush s p sq cid)

/-- Complete a Seal and store its token (R123, R127). -/
def sealDone (s : State) (p : PortId) (sq cid : Nat) (t : Token) : State :=
  ioDone (s.onPort p fun pt => tokenStore pt t) p sq cid t.status t.dw0 t.dw1

/-- SEAL (R152, R614): it completes with the horizon as it was when MAP accepted it; Pad starts a closing. -/
def runSeal (s : State) (p : PortId) (sq cid : Nat) : State :=
  match findCmd s p sq cid with
  | none => s
  | some c =>
    match c.entry.op with
    | .seal pad token reservedBad =>
      if c.stage ≠ .accepted then s
      else
        let print := tokenPrint [token, b2n pad, 0, b2n reservedBad, 0, 0] []
        match tokenLook (s.port p) token 0x81 print with
        | .stored t => ioDone (s.onPort p fun pt => { pt with tokenHits := satAdd 255 pt.tokenHits 1 }) p sq cid t.status t.dw0 t.dw1
        | .conflict => ioDone (s.onPort p fun pt => { pt with tokenConflicts := satAdd 255 pt.tokenConflicts 1 }) p sq cid .tokenConflict
        | .fresh =>
          if reservedBad then sealDone s p sq cid ⟨token, 0x81, print, .invalidField, 0, 0⟩
          else
            let h := c.sealAt
            let s := sealDone s p sq cid ⟨token, 0x81, print, .success, BitVec.ofNat 32 h, BitVec.ofNat 32 (h / 4294967296)⟩
            if pad then closeUpTo s (c.snapshot.getD 0) else s
    | _ => s

def execSeal (p : PortId) (sq cid : Nat) (s : State) : Host.Outcome State Fault Refusal := .next (runSeal s p sq cid)

/-- SEAL_PAD_DELAY_EXPIRY (R150): the oldest unsealed number has been Protected for seal_pad_delay and its stripe is still
incomplete. -/
def padDelay (s : State) : State :=
  match dropSealed s s.path.unsealed with
  | r :: _ =>
    match r.protAt with
    | some t => if elapsed s t s.policy.sealPadDelay ∧ stripeIncomplete s r.seq then closeUpTo s r.seq else s
    | none => s
  | [] => s

def execSealPadDelayExpiry (s : State) : Host.Outcome State Fault Refusal := .next (padDelay s)

/-! ### Staging -/

/-- Fill the next sub-units of a write in one flacon with host data. -/
def fillSubs (s : State) (w : PortId × Nat × Nat) : List FSub → List Blk → List FSub
  | x :: xs, b :: bs =>
    if x.writer = some w ∧ x.host.isNone ∧ !x.filled ∧ x.mask ≠ 0 then settleSub s { x with host := some b } :: fillSubs s w xs bs
    else x :: fillSubs s w xs (b :: bs)
  | xs, _ => xs

/-- HOST_DATA_COMPLETION (R24, R140): host data is placed as ciphertext; an uncorrectable word of the transfer buffer ends the
write (R441). -/
def placeData (s : State) (p : PortId) (sq cid i : Nat) (data : List Blk) (sram : Bool) : State :=
  match findCmd s p sq cid with
  | none => s
  | some c =>
    if c.stage ≠ .running ∨ !hasData c.entry.op ∨ c.prot then s
    else if sram then failWrite s c .dataTransferError
    else
      let s := modFlacon s i fun f => { f with subs := fillSubs s (p, sq, cid) f.subs data }
      modCmd (restage s i) p sq cid fun x => { x with dataBegun := true }

def execHostDataCompletion (p : PortId) (sq cid flacon : Nat) (data : List Blk) (sram : Bool) (s : State) :
    Host.Outcome State Fault Refusal := .next (placeData s p sq cid flacon data sram)

/-- FLACON_COMMIT (R147): the flacon's data is placed; a write all of whose flacons are committed is Protected. -/
def commitFlacon (s : State) (i : Nat) : State :=
  let ws := ((getFlacon s i).subs.filterMap (·.writer)).dedup
  ws.foldl (fun s w => protectIfDone s w.1 w.2.1 w.2.2) (commitParts s i)

def execFlaconCommit (flacon : Nat) (s : State) : Host.Outcome State Fault Refusal := .next (commitFlacon s flacon)

/-- place_free stays at or above 0 after an SLC formation, before the floor at 0 (R210, R217). -/
def slcAllowed (s : State) : Bool :=
  decide (s.path.claimed ≤ openRoom s + (freeBlocks s - 1 - s.policy.placeFloor) * ruUnits s)

/-- Super-blocks that take a handle's data and have fewer IU slots left than it needs are closed: WAS packs the data of one flacon into
one super-block (R203, R210; DESIGN CHOICE, log entry 76). -/
def closeShort (s : State) (h n : Nat) : State :=
  let short := fun (b : SuperBlock) => decide (b.st = .isOpen) && decide (slotsLeft s b < n) && match b.use with
    | .hostRu | .slc => decide (b.handle = h)
    | _ => false
  ((s.media.sbs.filter short).map (·.num)).foldl (fun s sb => closeSb s sb none) s

/-- A handle that has no open reclaim unit receives one as a flacon of it is packed, wherever that flacon goes (R202, R205). -/
def withUnit (s : State) (h : Nat) : State :=
  if s.media.sbs.any fun b => decide (b.use = .hostRu) && decide (b.handle = h) && decide (b.st = .isOpen) then s
  else formSb (formBefore s .hostRu) .hostRu h

/-- A new SLC super-block where the handle's open one has no room and R210 and R216 permit it (R210, R215). -/
def withSlc (s : State) (h n : Nat) : State :=
  if (sbWithRoom s .slc h n).isNone ∧ slcCount s < slcCacheSize s ∧ slcAllowed s ∧ formationAllowed s .slc then
    formSb (formBefore s .slc) .slc h
  else s

/-- Super-blocks are ready to take n IU slots of a handle's data (R202, R203, R210). -/
def makePlace (s : State) (h n : Nat) : State := withSlc (withUnit (closeShort s h n) h) h n

/-- Where a handle's data is packed: its SLC super-block, else its reclaim unit, else, where R216 withholds one, the collection
super-block (R210, R360). -/
def placeFor (s : State) (h n : Nat) : Option SuperBlock :=
  match sbWithRoom s .slc h n with
  | some b => some b
  | none =>
    match sbWithRoom s .hostRu h n with
    | some b => some b
    | none => if formationAllowed s .hostRu then none else sbWithRoom s .collection h n

/-- Packing a handle's data into a collection super-block moves the handle implicitly (R207, R360). -/
def notePlace (s : State) (b : SuperBlock) (h : Nat) : State := if b.use = .collection then fdpEvent s 6 h else s

/-- The codewords of one IU slot of a flacon; places without a sub-unit hold filler (R190, R231). -/
def slotWords (f : Flacon) (n i : Nat) : List (BitVec 128 × Blk) :=
  (List.range n).map fun j =>
    match f.subs[i * n + j]? with
    | some x => (packEntry x.seq x.iu x.sub x.kind x.nsid f.handle, x.data)
    | none => (fillerEntry, 0)

/-- IU slots that a flacon's sub-units take. An overlay flacon of more sub-units than one IU slot holds takes as many slots as it needs,
in the order of its sub-units (R190; DESIGN CHOICE, log entry 76). -/
def flaconSlots (s : State) (f : Flacon) : Nat := ceilDiv f.subs.length (subsPerIu s)

/-- Pack the IU slots of a flacon into a super-block, all or none. -/
def packFlaconSlots (sb : Nat) (f : Flacon) (n : Nat) : Nat → State → List Nat → Option (State × List Nat)
  | 0, s, done => some (s, done)
  | k + 1, s, done =>
    match packSlot s sb (slotWords f n done.length) f.poisoned with
    | none => none
    | some (s, slot) => packFlaconSlots sb f n k s (done ++ [slot])

/-- PACK (R142): a READY flacon is packed into the SLC super-block or the reclaim unit of its handle, where an accumulator
slot is available; closings that wait for its data run, and a full unit is closed (R150, R203, R210, R305, R363). -/
def packFlacon (s : State) (i : Nat) : State :=
  let f := getFlacon s i
  if f.st ≠ .ready ∨ f.subs.isEmpty ∨ !mediaLive s then s
  else
    let t := makePlace s f.handle (flaconSlots s f)
    match placeFor t f.handle (flaconSlots s f) with
    | none => t
    | some b =>
      match packFlaconSlots b.num f (subsPerIu s) (flaconSlots s f) (notePlace t b f.handle) [] with
      | none => t
      | some (t, slots) =>
        let t := modFlacon t i fun f => { f with st := .packed, place := some { sb := b.num, slots := slots } }
        drydownSeal (formSuccessor (closeIfDue t) b.num)

def execPack (flacon : Nat) (s : State) : Host.Outcome State Fault Refusal := .next (packFlacon s flacon)

/-! ### Applying and releasing -/

/-- A read that MAP has accepted has not yet selected its versions: versions wait for it, since MAP selects as it accepts
(DEDUCED, log entry 12). -/
def selecting (s : State) : Bool :=
  (s.portA.cmds ++ s.portB.cmds).any fun c => decide (c.stage = .accepted) && match c.entry.op with
    | .read .. | .verify .. => true
    | _ => false

/-- A read, a verify or the merge of a write waits for a version of the IU: later versions wait for it in turn, since it selects again
if that version's number retires (R135, R136; DEDUCED, log entry 12). -/
def reselects (s : State) (nsid iu : Nat) : Bool :=
  ((s.portA.cmds ++ s.portB.cmds).any fun c => decide (c.entry.nsid = nsid) && c.subs.any fun x => decide (x.iu = iu) && match x.st with
    | .waiting _ => true
    | _ => false)
  || s.path.flacons.any fun e => e.2.subs.any fun x => decide (x.nsid = nsid) && decide (x.iu = iu) && x.waits.isSome

/-- Apply the version of one IU or overlay sub-unit at place i of a flacon (R138, R190). -/
def applyAt (s : State) (f : Flacon) (pl : Place) (i : Nat) : State :=
  match f.subs[i]? with
  | none => s
  | some x =>
    if x.stale || x.applied then s
    else match findNs s x.nsid with
      | none => s
      | some n =>
        let k := subsPerIu s
        let pa := paOf s pl.sb (nth 0 pl.slots (i / k))
        if x.kind = 1 then applySub s n x.iu x.sub x.seq false pa (i % k)
        else if i % k = 0 then applyWhole s n x.iu x.seq (some pa) else s

/-- Apply the versions of a SAFE flacon within the record rate (R138, R393). -/
def applyFlacon (s : State) (i : Nat) : State :=
  let f := getFlacon s i
  match f.place with
  | none => s
  | some pl =>
    if f.st ≠ .safe ∨ !ringReady s (2 * f.subs.length) ∨ selecting s ∨ (f.subs.any fun x => reselects s x.nsid x.iu) ∨ !mediaLive s then s
    else
      let s := (List.range f.subs.length).foldl (fun s k => applyAt s f pl k) s
      advanceHorizon (modFlacon s i fun f => { f with subs := f.subs.map fun x => { x with applied := true } })

/-- Apply a version without data within the record rate, once the data that its command stages is committed; the command is
then Protected if nothing else is left (R149, R186, R198, R393). -/
def applyTrim (s : State) (id : Nat) : State :=
  match s.path.trims.find? fun t => t.id = id with
  | none => s
  | some t =>
    let uncommitted := s.path.flacons.any fun e => e.2.subs.any fun x => decide (x.seq = t.seq) && !x.comm
    if !ringReady s (2 * t.subs.length + 1) ∨ selecting s ∨ reselects s t.nsid t.iu ∨ uncommitted ∨ !mediaLive s then s
    else
      let s := trimNow s t
      let s := match cmdOfSeq s t.seq with
        | some c => protectIfDone s c.port c.sq c.entry.cid
        | none => s
      advanceHorizon s

/-- Apply the versions of a flacon, or a trim (R138). -/
def applyVersion (s : State) (trim : Bool) (id : Nat) : State := if trim then applyTrim s id else applyFlacon s id

/-- FLACON_RELEASE (R143, R146): a SAFE flacon whose versions are applied or stale and that no read pins becomes FREE. -/
def releaseFlacon (s : State) (i : Nat) : State :=
  let f := getFlacon s i
  if f.st ≠ .safe ∨ 0 < f.pins ∨ !(f.subs.all fun x => x.applied || x.stale) then s
  else
    let s := modFlacon s i fun _ => {}
    let ius := (f.subs.map fun x => (x.nsid, x.iu)).dedup
    ius.foldl (fun s x => match findNs s x.1 with
      | some n => forgetApplied s n x.2
      | none => s) s

def execFlaconRelease (flacon : Nat) (s : State) : Host.Outcome State Fault Refusal := .next (releaseFlacon s flacon)

end Sys2Proof.Machine
end

