-- ==== Sys2Proof/Machine/ResetOps.lean ====
section
/-! DEFINITION. What a reset of a port does: ending its outstanding commands (R160), the end of a Diagnostic Unlock (R12,
R640), the registers that controller reset resets (R569, R570), and the controller reset itself (R56, R499). -/
namespace Sys2Proof.Machine

/-! ### Outstanding commands -/

/-- The write's data is wholly in flacons (R160, R162). -/
def whollyIn (s : State) (c : OutCmd) : Bool :=
  decide (c.stage = .running) && c.seq.isSome
    && s.path.flacons.all fun e => e.2.subs.all fun x => !decide (x.writer = some (c.port, c.sq, c.entry.cid)) || x.filled

/-- The write is Protected with its data as it stands in flacons; what it trims is journalled (R149, R160). -/
def holdData (s : State) (c : OutCmd) : State :=
  let w := (c.port, c.sq, c.entry.cid)
  let fs := flaconsOf s w
  let s := fs.foldl restage (modSubs s w fun x => { x with comm := true, prot := true, writer := none })
  let s := (s.path.trims.filter fun t => decide (some t.seq = c.seq)).foldl trimNow s
  match c.seq with
  | some n => protectSeq s n
  | none => s

/-- Carry a write on to Sealed without a completion (R160). -/
def carryWrite (s : State) (c : OutCmd) : State :=
  advanceHorizon (dropCmd (holdData s c) c.port c.sq c.entry.cid)

/-- Abandon a command that changes no map: its media reads and its pins go. -/
def abandonRead (s : State) (c : OutCmd) : State := unpinSubs (dropJobs s c.port c.sq c.entry.cid) c

/-- End one outstanding command without a completion: a write wholly in flacons is carried on, any other write is
discarded, reads are abandoned (R160). -/
def endSilently (s : State) (c : OutCmd) : State :=
  if !isWriteOp c.entry.op then dropCmd (abandonRead s c) c.port c.sq c.entry.cid
  else if c.prot || whollyIn s c then carryWrite s c
  else dropCmd (discardWrite s c) c.port c.sq c.entry.cid

/-- A write of the old owner that a handover finds under way: it is not Protected, and was not fetched after t0, which the HFE holds
(R117 steps 1 to 5). -/
def underWay (c : OutCmd) : Bool :=
  isWriteOp c.entry.op && !c.prot && decide (c.stage ≠ .held) && decide (c.stage ≠ .fetched)

/-- A port's held admin commands, Asynchronous Event Requests and waiting completions go, and so do the completions still owed for a
commit, an activation or a Claim under way (R160). -/
def forgetOwed (s : State) (p : PortId) : State :=
  let s := s.onPort p fun pt => { pt with heldAdmin := [], aers := [], heldRepeats := [], waitingCqes := [] }
  let s := s.onOwn fun o => { o with claim := o.claim.map fun c => if c.port = p then { c with cid := none } else c }
  { s with
    commit := s.commit.map fun c => if c.port = p then { c with cid := none } else c
    activation := s.activation.map fun a => if a.port = p then { a with cid := none } else a }

/-- End everything outstanding on some ports without a completion: no command of theirs is left to complete when the horizon moves as
others are carried or discarded (R160, R162). -/
def endAll (s : State) (ps : List PortId) : State :=
  let l := ps.flatMap fun p => (s.port p).cmds
  let s := ps.foldl (fun s p => s.onPort p fun pt => { pt with cmds := [] }) s
  ps.foldl forgetOwed (l.foldl endSilently s)

/-- End everything outstanding on a port without a completion (R160). -/
def endOutstanding (s : State) (p : PortId) : State := endAll s [p]

/-! ### The unlock -/

/-- JTAG and UART stand open in BLANK, PROVISION and RETURNED (R625). -/
def lifecycleOpen (b : Byte) : Bool := decide (b = 0) || decide (b = 1) || decide (b = 7)

/-- A Diagnostic Unlock ends: JTAG and UART close where the lifecycle state does not hold them open, RWU fields take their
reset values, every armed injection is disarmed and the legacy arm word clears (R12, R517, R554, R640). -/
def endUnlock (s : State) : State :=
  let s := s.onSec fun x => { x with unlock := none, debugOpen := x.debugOpen && lifecycleOpen x.lifecycle }
  s.onFh fun h => { h with injArmed := false, injAddrEn := false, injMode := 0, injSource := 0, injAddr := 0, legArm := 0, legArmAt := none }

/-- The unlock ends where it is in effect on the port. -/
def endUnlockOf (s : State) (p : PortId) : State :=
  match s.sec.unlock with
  | some u => if u.port = p then endUnlock s else s
  | none => s

/-! ### Registers -/

/-- Registers of the shared window marked Reset by controller reset, and RW fields that name no reset (R12, R570). -/
def resetSharedRegs (s : State) : State :=
  let s := s.onMedia fun m => { m with
    chans := tvals {} m.chans fun c => { c with fault := 0 }
    clusters := tvals {} m.clusters fun c => { c with fault := 0 } }
  let s := { s with
    dcs := tvals {} s.dcs fun d => { d with fault := 0 }
    moverBlocks := tvals {} s.moverBlocks fun b => { b with fault := 0 } }
  let s := s.onHk fun h => { h with fault := 0, holdupMin := 0xFFFF, holdupMv := 0 }
  s.onFh fun h => { h with first := {}, status := [], sec := [], mismatches := 0 }

/-- The controller reset of this port resets the shared registers: port A in single x4 mode, the owner's in dual x2 mode
(R570). -/
def resetsShared (s : State) (p : PortId) : Bool := if s.boot.strapPort then isOwner s p else decide (p = .A)

/-! ### Controller reset -/

/-- A C3 reaction's unit reset that holds a controller reset of the port is under way (R499). -/
def resetIsHeld (s : State) (p : PortId) : Bool :=
  match s.fh.unitReset with
  | some u => decide (p ∈ u.ports)
  | none => false

/-- Close the windows of C3 reactions all of whose ports have left CSTS.CFS (R499, R512). -/
def closeC3Windows (s : State) : State :=
  s.onFh fun h => { h with windows := h.windows.filter fun w => match w.reaction with
    | .c3 ps => ps.any fun p => (s.port p).cfs
    | _ => true }

/-- The port may fetch again after a controller reset: no activation, flush or NVM subsystem reset holds it (R163, R382,
R524, R568). -/
def fetchAllowed (s : State) : Bool :=
  !s.fh.latch && s.activation.isNone && (decide (s.run = .running) || decide (s.run = .recovery))

/-- A commit under way still needs the download buffer: it runs to its end (R602). -/
def bufferInUse (s : State) : Bool := s.commit.elim false fun c => decide (c.action ≠ 2)

/-- A controller reset of the owner's port or a handover clears the download buffer (R597), but not from under a commit (R602; DEDUCED, log
entry 48). -/
def dropBuffer (s : State) : State := if bufferInUse s then s else { s with dlBuf := [], dlGranules := [] }

/-- A controller reset of a port, its unit reset (if any) having ended: outstanding commands end silently, queues and the
controller's own features go, the port's unlock ends, and CSTS.CFS clears outside SAFE (R56, R94, R111, R160, R499, R525,
R569, R570, R597, R619, R639). -/
def resetPortNow (s : State) (p : PortId) : State :=
  let s := endUnlockOf (endOutstanding s p) p
  let cfs := s.fh.latch
  let fetching := fetchAllowed s
  let s := s.onPort p fun pt => { pt with
    sqs := [], cqs := [], ccEn := false, ccAms := 0, ccShn := 0, rdy := false, shst := 0, cfs := cfs, fetching := fetching
    rrPtr := 0, curSq := 0, burstLeft := 0, wrrLeft := [], asyncCfg := 0x007F0800, features := [], selPs := 0, lastOpPs := 0
    peak := 0, forceFails := 0, chFails := 0, resetHeld := false }
  let s := if resetsShared s p then resetSharedRegs s else s
  let s := if isOwner s p then dropBuffer s else s
  takePs (closeC3Windows s)

/-- A controller reset of a port (R56, R160). While a C3 unit reset runs it is held until that reset ends, the port's
controller staying disabled meanwhile (R499). -/
def controllerReset (s : State) (p : PortId) : State :=
  if resetIsHeld s p then s.onPort p fun pt => { pt with resetHeld := true, ccEn := false, rdy := false }
  else resetPortNow s p

end Sys2Proof.Machine
end

