-- ==== Sys2Proof/Machine/FlushOps.lean ====
section
/-! DEFINITION. The power-loss flush: Reset to the dies (R382, R384), the carried set (R380), what a flush writes (R381,
R382), and its end (R382, R524). -/
namespace Sys2Proof.Machine

/-- The parity pages of a wordline whose last pass is under way. -/
def parityPages (s : State) (sb idx : Nat) : State :=
  match findSb s sb with
  | none => s
  | some b =>
    let m := idx / diesPerChan s
    let d := idx % diesPerChan s
    (List.range (ppwOf b.mode)).foldl (fun s i =>
      let q := (tget (0, 0) b.passes idx).2 * ppwOf b.mode + i
      match findStripe s sb (q * diesPerChan s + d) with
      | some t =>
        if slotMember s t.k m < 16 then s
        else s.onMedia fun x => { x with
          pages := tput none x.pages (pageKey (sbDie s b m d) (sbBlock s b m d) q) (some (pageImage s b m d q t)) }
      | none => s) s

/-- A pass that is cut may have completed its parity pages on the media: recovery's reads of them settle it (R324). -/
def cutParity (s : State) : State :=
  s.media.dies.foldl (fun s e => match e.2.busy with
    | some o => (match o.kind with
      | .fine sb idx | .program sb idx => parityPages s sb idx
      | _ => s)
    | none => s) s

/-- Every busy die receives Reset: operations under way and queued are gone, and with them the grants (R382, R384). An
interrupted erase keeps its begin record without an end record (R403). -/
def resetDies (s : State) : State :=
  let s := (cutParity s).onMedia fun m => { m with dies := tvals {} m.dies fun d =>
    { d with busy := none, queue := [], susp := none, suspends := 0, served := 0, agedServed := false } }
  s.onHk fun h => { h with inUse := 0, activeDies := [], waiting := [] }

/-- Every command of both ports ends without a completion, and no fetch follows (R382 steps 1 and 2, R524 step 1). -/
def stopPorts (s : State) : State := (endAll s [.A, .B]).onBoth fun pt => { pt with fetching := false }

/-- The next version of a list of staged sub-units: IU and number of its first, its sub-units, and the rest. -/
def sameVersion (a b : FSub) : Bool := decide (a.nsid = b.nsid) && decide (a.iu = b.iu) && decide (a.seq = b.seq)

/-- Staged sub-units that can be carried: flacon not SAFE, not stale (R380). With each, its flacon. -/
def carriable (s : State) : List (Flacon × FSub) :=
  s.path.flacons.flatMap fun e => if e.2.st = .safe then [] else
    (e.2.subs.filter fun x => x.filled && !x.stale).map fun x => (e.2, x)

/-- The sub-unit is live: above its applied number and the newest carriable version of its sub-unit (R380). -/
def isLive (s : State) (l : List (Flacon × FSub)) (x : FSub) : Bool :=
  match findNs s x.nsid with
  | none => false
  | some n =>
    decide (appliedNo s (mapIndex s n x.iu) x.sub < x.seq)
      && l.all fun y => !(decide (y.2.nsid = x.nsid) && decide (y.2.iu = x.iu) && decide (y.2.sub = x.sub)) || decide (y.2.seq ≤ x.seq)

/-- The version index of a flush, by staged sub-units in flacon order (R380, R381). -/
def carriedFrom (s : State) (l : List (Flacon × FSub)) : Nat → List (Flacon × FSub) → List RefugeVer
  | 0, _ => []
  | _, [] => []
  | n + 1, (f, x) :: r =>
    let mine := ((f, x) :: r).filter fun y => sameVersion x y.2
    let rest := r.filter fun y => !sameVersion x y.2
    let live := mine.filterMap fun y => if isLive s l y.2 then some y.2.sub else none
    let mi := (findNs s x.nsid).elim 0 fun ns => mapIndex s ns x.iu
    let v : RefugeVer := { mapIndex := mi, nsid := x.nsid, iu := x.iu, seq := x.seq, live := live, kind := x.kind, handle := f.handle,
                           data := mine.map fun y => (y.2.sub, y.2.data), poisoned := mine.any fun y => y.1.poisoned }
    if live.isEmpty then carriedFrom s l n rest else v :: carriedFrom s l n rest

def carried (s : State) : List RefugeVer :=
  let l := carriable s
  carriedFrom s l l.length l

/-- Ring chunks not yet programmed to the delta log (R381). -/
def tailChunks (s : State) : List Chunk := s.journal.chunks.filter fun c => !c.inDelta

/-- Records of the tail that lie in a ring word found uncorrectable in the present lap, and not remapped: their tail copy carries the poison
(R440, R442). Words are numbered by 8 bytes. -/
def damagedTail (s : State) : List (Nat × Nat) :=
  let words := (s.misc.mramBad.filter fun e => decide (e.2 = s.journal.laps + 1) && !decide (e.1 ∈ s.misc.mramRemap)).map (·.1)
  words.flatMap fun w => ((tailChunks s).filter fun c => decide (c.serial % 12 = w / 131072)).map fun c => (c.serial, w % 131072 / 2)

/-- What a flush started at `flushAt` writes (R381). -/
def flushContent (s : State) : Flush :=
  { serial := s.journal.anchor.flushSerial + 1, lastSeq := s.path.nextSeq - 1, horizon := s.path.horizon, cause := s.journal.flushCause
    powerOn := s.misc.powerOnBase + s.journal.flushAt, firstChunk := ((tailChunks s).head?.map (·.serial)).getD s.journal.nextSerial
    index := carried s, tail := tailChunks s, badTail := damagedTail s }

/-- Every divider, cycle skip, pause and gap of throttling is lifted, and 6,400 MT/s is requested (R254, R462, R487). -/
def liftThrottle (s : State) : State :=
  let s := s.onMedia fun m => { m with
    clusters := tvals {} m.clusters fun c => { c with divider := 1 }
    chans := tvals {} m.chans fun c => { c with pauseUs := 0 } }
  let s := { s with
    dcs := tvals {} s.dcs fun d => { d with skip := false }
    moverBlocks := tvals {} s.moverBlocks fun b => { b with gap := 0 } }
  s.onHk fun h => { h with plsDivider := 1, want3200 := false }

/-- A flush begins: PLS takes control, both HFEs stop, writes not wholly in flacons are discarded, reads are abandoned,
busy dies are reset, and copies under way are dropped (R380, R382 steps 1 and 2). t0 of a power loss is the falling edge, pf_deglitch
before (R371). A channel in block reset counts as stopped
(R386). -/
def beginFlush (s : State) (cause : Nat) : State :=
  let s := liftThrottle (resetDies (stopPorts s))
  let s := s.onPath fun p => { p with jobs := [], copies := [] }
  let s := s.onMedia fun m => { m with recon := 0, clusters := tvals {} m.clusters fun c => { c with hardQ := [], softQ := [], hardDec := [], softDec := [] } }
  let t0 := if cause = 1 then s.now - s.policy.pfDeglitch else s.now
  s.onJournal fun j => { j with pls := 2, flushAt := t0, flushCause := cause
                                stopped := (List.range 32).filter fun c => decide ((getChan s c).st = .reset) }

/-- The drive writes nothing: busy dies are reset, and PLS idles (R384). -/
def noFlush (s : State) : State := (liftThrottle (resetDies (stopPorts s))).onJournal fun j => { j with pls := 3 }

/-- A flush has something to write: PLS is armed and the clean flag is clear (R384). -/
def flushNeeded (s : State) : Bool := decide (s.journal.pls = 1) && !s.journal.anchor.clean

/-- Every DRAM controller's devices enter self-refresh. -/
def selfRefreshAll (s : State) : State :=
  { s with dcs := tvals {} s.dcs fun d => if d.st = .active then { d with st := .selfRefresh } else d }

/-! ### The pages of a flush -/

/-- The header page's bytes (R381). The spec names its fields and gives them no places (DESIGN CHOICE, log entry 13). -/
def flushHeader (f : Flush) (dataPages : Nat) : List Byte :=
  leBytes 8 f.serial ++ leBytes 8 f.lastSeq ++ leBytes 8 f.horizon ++ leBytes 4 f.index.length ++ leBytes 4 dataPages
    ++ leBytes 8 f.firstChunk ++ leBytes 8 f.powerOn ++ leBytes 1 f.cause

/-- Data pages of a carried version: four sub-units to a page. -/
def versionPages (v : RefugeVer) : Nat := ceilDiv v.data.length 4

/-- The index entry of a version: map index, number, live mask and data pages (R381). -/
def indexEntry (v : RefugeVer) : List Byte :=
  leBytes 5 v.mapIndex ++ leBytes 8 v.seq ++ leBytes 2 (v.live.foldl (fun m i => m ||| 2 ^ i) 0) ++ leBytes 1 (versionPages v)

/-- Bytes as refuge pages of 16 KiB of system data (R232, R381). -/
def bytePages (l : List Byte) : List Element :=
  (List.range (ceilDiv l.length 16384)).map fun p => systemElement 4 fun w => blkOf ((l.drop (16384 * p + 4096 * w)).take 4096)

/-- The data pages of a version, with the sillage entries of its sub-units (R381). -/
def dataPagesOf (v : RefugeVer) : List Element :=
  (List.range (versionPages v)).map fun p =>
    let part := (v.data.drop (4 * p)).take 4
    { kind := 4, poison := v.poisoned
      entries := (List.range 4).map fun c => (part[c]?).elim fillerEntry fun x => packEntry v.seq v.iu x.1 v.kind v.nsid v.handle
      data := (List.range 4).map fun c => (part[c]?).elim 0 (·.2) }

/-- Pages in wordlines: one page in every plane of a die (R379). -/
def wordlinesOf (planes : Nat) (l : List Element) : List (List Element) :=
  (List.range (ceilDiv l.length planes)).map fun i => (l.drop (planes * i)).take planes

/-- What a flush programs, wordline by wordline: header, index and tail, each twice, then the data (R381, R382). -/
def flushWordlines (s : State) (f : Flush) : List (List Element) :=
  let data := f.index.flatMap dataPagesOf
  let parts := [flushHeader f data.length, f.index.flatMap indexEntry, f.tail.flatMap fun c => (chunkRecs c).flatMap (recBytes c.serial)]
  (parts.flatMap fun l => wordlinesOf s.geo.planes (bytePages l)).flatMap (fun w => [w, w]) ++ wordlinesOf s.geo.planes data

/-- The refuge dies of a set in round-robin order, at most n_r of them: one of each channel in turn, so that two copies that follow each
other lie on different channels; none on a channel that has failed or stopped (R379, R381, R386). -/
def flushDies (s : State) (r : RefugeSet) : List (Nat × Nat) :=
  let on := r.blocks.filter fun x => !dieLost s x.1 && !decide (dieChan x.1 ∈ s.journal.stopped)
  let turn := fun (x : Nat × Nat) => (on.takeWhile (· ≠ x)).countP fun y => decide (dieChan y.1 = dieChan x.1)
  ((List.range on.length).flatMap fun i => on.filter fun x => decide (turn x = i)).take (refugeCoverOf s).1

/-- One refuge program: wordline wl in every plane of a die at once, the one exception to the program order. Its start counts for the
pause of its channel (R230, R254, R379, R440). -/
def refugeProgram (die block wl : Nat) (es : List Element) (s : State) : State :=
  let temp := ((chanTemp s (dieChan die)).map (clampInt (-128) 127)).getD (-128)
  let put := fun (s : State) (x : Nat × Element) =>
    let q := x.1 * s.geo.wordlines + wl
    let mark : PageMark := { kind := 4, mode := 0, progTemp := temp, die := die, position := q, epoch := mapEpoch s, progMin := powerOnMin s }
    let pg := buildPage s.image.ldpc s.sec.mdk block mark x.2.entries x.2.data
    let pg : Page := { cws := if x.2.poison then pg.cws.map invertParity else pg.cws, rest := scrambleRest die block q (s.geo.pageBytes - 18432) }
    s.onMedia fun m => { m with pages := tput none m.pages (pageKey die block q) (some pg) }
  let s := ((List.range es.length).zip es).foldl put s
  modChan s (dieChan die) fun c => { c with lastStart := some s.now }

/-- The flush's wordlines go round-robin over the refuge dies, each die's wordlines in ascending order (R382). -/
def programFlush (s : State) (f : Flush) (r : RefugeSet) : State :=
  let dies := flushDies s r
  let one := fun (s : State) (x : Nat × List Element) => match dies[x.1 % dies.length]? with
    | some d => refugeProgram d.1 d.2 (x.1 / dies.length) x.2 s
    | none => s
  let l := flushWordlines s f
  ((List.range l.length).zip l).foldl one s

/-- A refuge set by its number: 0 is A. -/
def putSet (set : Nat) (r : RefugeSet) (j : Journal) : Journal := if set = 0 then { j with setA := r } else { j with setB := r }

/-- Program a flush into a refuge set: the one in the erased state, A before B where both are (R377, R382; DESIGN CHOICE, log entry
13). -/
def placeFlush (s : State) (f : Flush) : State :=
  let full := fun (r : RefugeSet) => { r with st := .inUse, flush := some f }
  if s.journal.setA.st = .erased then (programFlush s f s.journal.setA).onJournal fun j => { j with setA := full j.setA }
  else if s.journal.setB.st = .erased then (programFlush s f s.journal.setB).onJournal fun j => { j with setB := full j.setB }
  else s

/-- The flush has ended: MJ records the serial and the set's state in the anchor, DRAM enters self-refresh, PLS idles
(R382 step 5). -/
def endFlush (s : State) : State :=
  let f := flushContent s
  let us := s.now - s.journal.flushAt
  let s := placeFlush s f
  let s := putAnchor s fun a => { a with flushSerial := f.serial, lastFlushUs := min 65535 us, flushes := satAdd 65535 a.flushes 1 }
  let s := refreshRefuge s
  selfRefreshAll (s.onJournal fun j => { j with pls := 3 })

end Sys2Proof.Machine
end

