-- ==== Sys2Proof/Machine/Records.lean ====
section
/-! DEFINITION. Byte images of what MRAM and DRAM hold: map and overlay entries (R180, R188), journal records (R389, R390),
the segment and loss tables (R387), and the records of the fault hub and the housekeeping unit (R509, R610). -/
namespace Sys2Proof.Machine

/-- A fault history record as 32 bytes (R509). -/
def faultBytes (r : FaultRec) : List Byte :=
  leBytes 8 r.num ++ leBytes 8 r.timeUs ++ leBytes 2 r.source ++ leBytes 1 r.cls ++ [r.flags] ++ leBytes 2 r.primary
    ++ leBytes 2 0 ++ leBytes 4 r.count ++ leBytes 4 r.detail

/-- A byte of the ring: slot = serial modulo 12 (R388). none where the slot's record has not been written by the model. -/
def ringByte (s : State) (a : Nat) : Option Byte :=
  match (s.journal.chunks.filter fun c => decide (c.serial % 12 = a / 1048576)).getLast? with
  | none => none
  | some c => ((chunkRecs c)[a % 1048576 / 16]?).map fun r => nth 0 (recBytes c.serial r) (a % 16)

/-- A byte of the segment table: namespace and namespace segment index of a map segment (R177, R387). -/
def segByte (s : State) (a : Nat) : Byte :=
  match s.path.spaces.find? fun n => decide (a / 4 ∈ n.segs) with
  | none => 0
  | some n => nth 0 (leBytes 1 n.nsid ++ leBytes 3 (n.segs.idxOf (a / 4))) (a % 4)

/-- A byte of the loss table: S_deg, loss map and valid bit of a super-block (R313, R387). -/
def lossByte (s : State) (a : Nat) : Byte :=
  match findSb s (a / 96) with
  | none => 0
  | some b =>
    if b.lost.isEmpty then 0
    else nth 0 (leBytes 8 (b.sDeg.getD 0) ++ leBytes 72 (b.lost.foldl (fun x i => x ||| 2 ^ i) 0) ++ [1]) (a % 96)

/-- A byte of MRAM (R387). The spec gives no byte layout for the anchor, and none for a place nothing has been written to:
such a byte is a free value (log entry 2). -/
def mramByte (s : State) (a : Nat) : Byte :=
  if a < 0xC00000 then (ringByte s a).getD (Config.stdByte 1000 0 a)
  else if a < 0xC02000 then Config.stdByte 1000 0 a
  else if a < 0xD8A000 then segByte s (a - 0xC02000)
  else if a < 0xEC8000 then lossByte s (a - 0xD8A000)
  else if a < 0xF00000 then 0
  else if a < 0xF80000 then
    match s.fh.history.find? fun r => decide (r.num % 16384 = (a - 0xF00000) / 32) with
    | some r => nth 0 (faultBytes r) (a % 32)
    | none => Config.stdByte 1000 0 a
  else Config.stdByte 1000 0 a

end Sys2Proof.Machine
end

