-- ==== Sys2Proof/Machine/MoverOps.lean ====
section
/-! DEFINITION. Mover channels without their faults: spaces and the bytes behind them (R418, R454), the checks of a
descriptor (R455), pacing and pace credits (R460), moving one burst (R450, R459), and disabling (R464). -/
namespace Sys2Proof.Machine

def getMover (s : State) (n : Nat) : Mover := tget {} s.movers n
def modMover (s : State) (n : Nat) (f : Mover → Mover) : State := { s with movers := tmod {} s.movers n f }
def getMoverBlock (s : State) (b : Nat) : MoverBlock := tget {} s.moverBlocks b
def modMoverBlock (s : State) (b : Nat) (f : MoverBlock → MoverBlock) : State := { s with moverBlocks := tmod {} s.moverBlocks b f }
def getDc (s : State) (n : Nat) : Dc := tget {} s.dcs n
def modDc (s : State) (n : Nat) (f : Dc → Dc) : State := { s with dcs := tmod {} s.dcs n f }

/-! ### Spaces -/

/-- Space and offset of an address (R452). -/
def spaceOf (a : Nat) : Nat := field a 63 56
def offsetOf (a : Nat) : Nat := field a 55 0

/-- Data capacity of one DRAM channel by density code: 8, 12 or 16 GiB (R45, R586). -/
def chanBytes (density : Nat) : Nat := if density = 0 then 8589934592 else if density = 1 then 12884901888 else 17179869184

/-- DRAM data capacity (R40). -/
def dramBytes (s : State) : Nat := s.image.board.dramChannels * chanBytes s.image.dram.density

/-- Size of a space (R454); 0 for a space that is not used. A sequencer port takes any length at offset 0. -/
def spaceSize (s : State) (sp : Nat) : Nat :=
  if sp = 0 then dramBytes s else if sp = 1 then 33554432 else if sp = 2 then 8388608 else if sp = 3 then 262400
  else if sp = 4 then 16777216 else if 16 ≤ sp ∧ sp < 48 then 16777216 else 0

def isPort (sp : Nat) : Bool := decide (16 ≤ sp) && decide (sp < 48)

/-- A byte of a DRAM channel. -/
def dramByte (s : State) (addr : Nat) : Byte :=
  let (c, b, o) := dramMap s.image.board.dramChannels addr
  ((tget {} (getDc s c).mem b).data >>> (8 * o)).setWidth 8

/-- The burst of an address is poisoned or holds an error beyond correction (R436, R518). -/
def dramBad (s : State) (addr : Nat) : Bool :=
  let (c, b, _) := dramMap s.image.board.dramChannels addr
  let x := tget {} (getDc s c).mem b
  x.poison || decide (x.flaw = 2)

/-- Replace one byte of a burst. -/
def setByte (x : BitVec 512) (o : Nat) (v : Byte) : BitVec 512 :=
  (x &&& ~~~(BitVec.ofNat 512 255 <<< (8 * o))) ||| (v.setWidth 512 <<< (8 * o))

def putDramByte (s : State) (addr : Nat) (v : Byte) (poison : Bool) : State :=
  let (c, b, o) := dramMap s.image.board.dramChannels addr
  modDc s c fun d => { d with mem := tmod {} d.mem b fun x => { data := setByte x.data o v, poison := poison, flaw := 0 } }

/-- What a byte of an SRAM buffer reads as before anything is written to it: the last pattern of the self-test (R446). -/
def sramFill : Byte := 0xAA

/-- Read a byte of a space (R454). -/
def spaceByte (s : State) (sp off : Nat) : Byte :=
  match sp with
  | 0 => dramByte s off
  | 1 => memGet sramFill s.misc.xferMem off
  | 2 => memGet sramFill s.misc.accumMem off
  | 3 => memGet sramFill s.misc.reconMem off
  | 4 => mramByte s off
  | _ => 0

/-- Write a byte of a space; a sequencer's port consumes it. -/
def putSpaceByte (s : State) (sp off : Nat) (v : Byte) (poison : Bool) : State :=
  match sp with
  | 0 => putDramByte s off v poison
  | 1 => s.onMisc fun m => { m with xferMem := memPut sramFill m.xferMem off v }
  | 2 => s.onMisc fun m => { m with accumMem := memPut sramFill m.accumMem off v }
  | 3 => s.onMisc fun m => { m with reconMem := memPut sramFill m.reconMem off v }
  | _ => s

/-- Write consecutive bytes of a space. -/
def putSpace (sp : Nat) (poison : Bool) : State → Nat → List Byte → State
  | s, _, [] => s
  | s, off, v :: vs => putSpace sp poison (putSpaceByte s sp off v poison) (off + 1) vs

/-- Take a number for free values (log entry 2). -/
def drawFree (s : State) : State × Nat := ({ s with freeCtr := s.freeCtr + 1 }, s.freeCtr)

/-- Bytes the spec leaves undefined. -/
def freeBytes (k n : Nat) : List Byte := (List.range n).map (Config.freeByte k)

/-! ### Descriptors -/

def ctlLast (d : Desc) : Bool := d.control.testBit 31
def ctlNotify (d : Desc) : Bool := d.control.testBit 30
def ctlWresp (d : Desc) : Bool := d.control.testBit 29
def ctlPace (d : Desc) : Nat := field d.control 27 26
def ctlVal (d : Desc) : Nat := field d.control 19 8
def ctlCrypt (d : Desc) : Nat := field d.control 7 6
def ctlNsid (d : Desc) : Nat := field d.control 5 0

/-- A range lies in a space that may be used in the direction (R454, R455). -/
def rangeOk (s : State) (a len : Nat) (dst : Bool) : Bool :=
  let sp := spaceOf a
  decide (0 < spaceSize s sp) && decide (offsetOf a + len ≤ spaceSize s sp)
    && (if dst then decide (sp ≠ 4) && (!isPort sp || decide (offsetOf a = 0)) else !isPort sp)

/-- The descriptor is invalid for global channel n (R455). A crypt of 3, which is not used, is checked as any crypt that is not 0 (R453;
DESIGN CHOICE, log entry 92). -/
def descInvalid (s : State) (n : Nat) (d : Desc) : Bool :=
  let len := d.length % 16777216
  let port := isPort (spaceOf d.dst)
  decide (len = 0) || decide (16777216 ≤ d.length) || decide (field d.control 28 28 ≠ 0) || decide (field d.control 25 20 ≠ 0)
    || !rangeOk s d.src len false || !rangeOk s d.dst len true
    || (port && (decide (n ≠ spaceOf d.dst - 16) || decide (len % 512 ≠ 0) || decide (ctlPace d ≠ 1)))
    || (!port && decide (ctlPace d = 1))
    || (decide (ctlPace d = 3) && (getMover s n).paceSrc.isNone)
    || (decide (ctlCrypt d ≠ 0) && ((decide (spaceOf d.src ≠ 1) && decide (spaceOf d.dst ≠ 1)) || decide (ctlNsid d = 0) || decide (32 < ctlNsid d)))
    || (!ctlLast d && decide (d.next % 32 ≠ 0))

/-- The first burst of a descriptor may start now, a peripheral request apart (R460). -/
def paceMet (s : State) (m : Mover) (d : Desc) : Bool :=
  match ctlPace d with
  | 0 => true
  | 1 => false
  | 2 => match m.prevBurst with
    | none => true
    | some t => decide (t + ctlVal d ≤ s.now)
  | _ => decide (ctlVal d ≤ m.credits)

/-- Start moving if pacing allows; channel pacing gives up its credits (R460). -/
def tryPace (s : State) (n : Nat) : State :=
  let m := getMover s n
  match m.desc with
  | some d =>
    if m.st = .wait ∧ !m.paced ∧ paceMet s m d then
      modMover s n fun x => { x with st := .move, paced := true, issuedAt := s.now, credits := if ctlPace d = 3 then x.credits - ctlVal d else x.credits }
    else s
  | none => s

/-- A completion with notify on channel n adds one credit to every channel whose pace source it is (R460). -/
def addCredits (s : State) (n : Nat) : State :=
  (List.range 64).foldl (fun s c =>
    if (getMover s c).paceSrc = some n then tryPace (modMover s c fun x => { x with credits := satAdd 4095 x.credits 1 }) c else s) s

/-- Length of the next burst: up to 8 beats, never across a 512-byte boundary of the destination (R450). -/
def burstLen (m : Mover) (d : Desc) : Nat :=
  let len := d.length % 16777216
  let off := offsetOf d.dst + (len - m.remain)
  min m.remain (if isPort (spaceOf d.dst) then 512 else 512 - off % 512)

/-- The bytes of a burst as they reach the destination: through SEC where crypt asks for it. The descriptor does not carry
the unit number that SEC's tweak needs, so SEC's output on a mover is a free value (log entry 2). -/
def burstBytes (s : State) (d : Desc) (moved n : Nat) : State × List Byte :=
  if ctlCrypt d = 0 then (s, (List.range n).map fun i => spaceByte s (spaceOf d.src) (offsetOf d.src + moved + i))
  else
    let (s, k) := drawFree s
    (s, freeBytes k n)

/-- The source of a burst is poisoned. -/
def burstPoison (s : State) (d : Desc) (moved n : Nat) : Bool :=
  decide (spaceOf d.src = 0) && (List.range n).any fun i => dramBad s (offsetOf d.src + moved + i)

/-- The DRAM burst of an address gets the poison syndrome. -/
def poisonBurst (s : State) (addr : Nat) : State :=
  let (c, b, _) := dramMap s.image.board.dramChannels addr
  modDc s c fun d => { d with mem := tmod {} d.mem b fun x => { x with poison := true } }

/-- Write bytes to a destination. A DRAM burst written in part that was poisoned or uncorrectable stays poisoned (R438). -/
def putBurst (s : State) (sp off : Nat) (bs : List Byte) (poison : Bool) : State :=
  let part := fun (a : Nat) => decide (sp = 0) && (decide (a / 64 * 64 < off) || decide (off + bs.length < a / 64 * 64 + 64)) && dramBad s a
  let t := putSpace sp poison s off bs
  [off, off + bs.length - 1].foldl (fun t a => if part a then poisonBurst t a else t) t

/-- Move one burst of channel n; one write response is owed for it (R450, R458, R459). -/
def moveBurst (s : State) (n : Nat) (poisoned : Bool) : State :=
  let m := getMover s n
  match m.desc with
  | none => s
  | some d =>
    let k := burstLen m d
    let moved := d.length % 16777216 - m.remain
    let bad := poisoned || burstPoison s d moved k
    let (s, bs) := burstBytes s d moved k
    let s := putBurst s (spaceOf d.dst) (offsetOf d.dst + moved) bs bad
    modMover s n fun x => { x with
      remain := x.remain - k, owed := x.owed + 1, issuedAt := s.now, poisoned := x.poisoned || bad, firstBurst := some (x.firstBurst.getD s.now)
      st := if ctlPace d = 1 then .wait else if x.remain ≤ k ∧ ctlWresp d then .resp else .move
      paced := decide (ctlPace d ≠ 1) }

/-! ### Disable and enable -/

/-- Clear a channel's enable (R464): the chain is dropped with code ABORTED and one completion, except in HALTED, and what
the descriptor had not moved is undefined, with the registers the rule names. -/
def disableMover (s : State) (n : Nat) : State :=
  let m := getMover s n
  let running := decide (m.st ≠ .idle) && decide (m.st ≠ .halted) && decide (m.st ≠ .disabled)
  let (s, k) := drawFree s
  let s := match m.desc, running with
    | some d, true => putSpace (spaceOf d.dst) false s (offsetOf d.dst + (d.length % 16777216 - m.remain)) (freeBytes k m.remain)
    | _, _ => s
  modMover s n fun x => { x with
    st := .disabled, code := if running then 1 else x.code, desc := none, credits := 0, owed := 0, paced := false, poisoned := false
    prevBurst := none, firstBurst := none, remain := (Config.freeReg (2 * k)).toNat % 16777216, hops := (Config.freeReg (2 * k + 1)).toNat % 65536
    resumeAt := if running then some x.descAddr else x.resumeAt
    signals := if running then x.signals ++ [(x.descAddr, 1)] else x.signals }

/-- Enable a channel: IDLE with a hop count of 0 (R464). -/
def enableMover (s : State) (n : Nat) : State := modMover s n fun x => { x with st := .idle, hops := 0 }

/-- The issuer gives a chain to an IDLE channel, which fetches its first descriptor (R456). -/
def giveChain (s : State) (n head : Nat) : State :=
  if (getMover s n).st = .idle then
    modMover s n fun x => { x with st := .fetch, issuedAt := s.now, hops := 0, descAddr := head, desc := none, remain := 0, prevBurst := none
                                   firstBurst := none, paced := false, poisoned := false, code := 0, resumeAt := none }
  else s

end Sys2Proof.Machine
end

