-- ==== Sys2Proof/Machine/HubOps.lean ====
section
/-! DEFINITION. The fault hub: source numbers (R497), classes (R502 to R504), escalation (R500), recording (R505 to R510),
consequence masks (R511 to R513), and the reactions of each class: block resets (R255 to R258, R264, R464), the C3 reaction
(R499) and SAFE entry (R523, R524). -/
namespace Sys2Proof.Machine

/-! ### Sources and classes -/

def csSource (n k : Nat) : Nat := 4 * n + k
def dcSource (n k : Nat) : Nat := 128 + 8 * n + k
/-- Global mover channel n = 8 b + m (R497). -/
def moverSource (n : Nat) : Nat := 160 + n
def lcSource (g k : Nat) : Nat := 224 + 6 * g + k
def hfeSource (p : PortId) (k : Nat) : Nat := 248 + 8 * p.toNat + k
def hkSource (k : Nat) : Nat := 264 + k
def mjSource (k : Nat) : Nat := 288 + k
def coreSource (k : Nat) : Nat := 296 + k

/-- Default class and permitted classes; a fixed source permits only its own (R502, R503). -/
def dcRow (k : Nat) : Nat × List Nat :=
  match k with
  | 0 | 2 => (0, [0, 1, 3, 4])
  | 1 => (4, [4])
  | 3 | 6 => (0, [0, 1])
  | 4 => (3, [3])
  | 5 => (1, [0, 1, 3, 4])
  | _ => (3, [3, 4])

def hkRow (k : Nat) : Nat × List Nat :=
  if k < 16 then (0, [0, 1, 3, 4])
  else match k with
    | 17 => (3, [1, 3, 4])
    | 21 => (0, [0, 1, 3, 4])
    | 23 => (4, [4])
    | _ => (1, [0, 1, 3, 4])

def mjRow (k : Nat) : Nat × List Nat :=
  match k with
  | 0 | 2 | 3 | 4 => (0, [0, 1])
  | _ => (4, [4])

def coreRow (k : Nat) : Nat × List Nat :=
  match k with
  | 0 | 10 | 15 => (3, [3, 4])
  | 1 | 9 => (1, [1, 3, 4])
  | 2 | 21 => (0, [0, 1])
  | 4 => (0, [0, 1, 3, 4])
  | 5 | 6 | 7 | 8 | 16 | 18 | 23 => (4, [3, 4])
  | 20 => (0, [0])
  | 22 => (1, [0, 1])
  | _ => (4, [4])

def hubRow (n : Nat) : Nat × List Nat :=
  if n < 128 then (2, [2, 3, 4])
  else if n < 160 then dcRow ((n - 128) % 8)
  else if n < 248 then (2, [2, 3, 4])
  else if n < 264 then (if (n - 248) % 8 < 5 then (0, [0, 1, 3, 4]) else (3, [3, 4]))
  else if n < 288 then hkRow (n - 264)
  else if n < 296 then mjRow (n - 288)
  else coreRow (n - 296)

/-- The class of the source is fixed (R502, R503). -/
def classFixed (n : Nat) : Bool := decide ((hubRow n).2.length = 1)

/-- The byte of the fault class section is one R504 accepts for the source. -/
def classByteOk (n b : Nat) : Bool := decide (b = 255) || decide (b ∈ (hubRow n).2)

/-- Class in force for a source: the image's, once start-up has set it, or the default (R504, R531). -/
def classOf (s : State) (n : Nat) : Nat :=
  match s.fh.classes[n]? with
  | some b => if b = 255 then (hubRow n).1 else b
  | none => (hubRow n).1

/-- The unit of a source is enabled, so that it can fire (R43, R644). -/
def sourceOn (s : State) (n : Nat) : Bool :=
  if n < 128 then s.boot.configSet && chanOn s (n / 4)
  else if n < 160 then s.boot.configSet && dcOn s ((n - 128) / 8)
  else if n < 192 then s.boot.configSet && chanOn s (n - 160)
  else if n < 224 then true
  else if n < 248 then s.boot.configSet && groupOn s ((n - 224) / 6)
  else if n < 256 then true
  else if n < 264 then s.boot.strapPort
  else decide (n < 320)

/-- The channel behind a source of a channel sequencer or of a NAND mover channel. -/
def sourceChan (n : Nat) : Option Nat :=
  if n < 128 then some (n / 4) else if 160 ≤ n ∧ n < 192 then some (n - 160) else none

/-- Detectors set the bit of their unit's fault register (R259, R293, R449, R469, R496). -/
def setFaultBit (s : State) (n : Nat) : State :=
  if n < 128 then modChan s (n / 4) fun c => { c with fault := setBit c.fault (n % 4) }
  else if n < 160 then modDc s ((n - 128) / 8) fun d => { d with fault := setBit d.fault ((n - 128) % 8) }
  else if n < 224 then modMoverBlock s ((n - 160) / 8) fun b => { b with fault := setBit b.fault ((n - 160) % 8) }
  else if n < 248 then modCluster s ((n - 224) / 6) fun c => { c with fault := setBit c.fault ((n - 224) % 6) }
  else if 264 ≤ n ∧ n < 288 then s.onHk fun h => { h with fault := setBit h.fault (n - 264) }
  else s

/-! ### Escalation -/

/-- Times within the last `us` microseconds. -/
def recent (s : State) (us : Nat) (l : List Nat) : List Nat := l.filter fun t => decide (s.now < t + us)

/-- Class C3, or C4 when fh_c3_limit C3 reactions lie within 600 s (R500). -/
def c3Class (s : State) : Nat := if s.policy.fhC3Limit ≤ (recent s 600000000 s.fh.c3Times).length then 4 else 3

/-- Class applied to a primary firing, escalation included (R500). -/
def appliedClass (s : State) (n : Nat) : Nat :=
  let c := classOf s n
  if c = 3 then c3Class s
  else if c = 2 ∧ 224 ≤ n ∧ n < 248 then (if 3 ≤ (recent s 60000000 (getCluster s ((n - 224) / 6)).c2Times).length then 4 else 2)
  else if c = 2 ∧ 192 ≤ n ∧ n < 224 then (if 3 ≤ (recent s 60000000 (getMover s (n - 160)).c2Times).length then c3Class s else 2)
  else c

/-! ### Consequence masks -/

/-- The source lies in the mask of a reaction (R512). -/
def inMask (r : Reaction) (primary n : Nat) : Bool :=
  match r with
  | .csReset ch => decide (sourceChan n = some ch)
  | .lcReset g => decide (lcSource g 0 ≤ n) && decide (n ≤ lcSource g 5)
  | .mover c => decide (n = moverSource c)
  | .c3 ps =>
    (ps.any fun p => decide (hfeSource p 1 ≤ n) && decide (n ≤ hfeSource p 4))
      || (decide (128 ≤ primary) && decide (primary < 160)
        && (decide (n = dcSource ((primary - 128) / 8) 3) || decide (n = dcSource ((primary - 128) / 8) 5)))
      || (decide (primary = coreSource 0) && (decide (n = coreSource 0) || decide (n = coreSource 1)))
  | .safe => decide (n < 320)

/-- The open window a firing belongs to: the one opened first, then the one with the lower primary (R513). -/
def windowFor (s : State) (n : Nat) : Option Window :=
  minBy (fun w => w.cycle * 1024 + w.primary) (s.fh.windows.filter fun w => inMask w.reaction w.primary n)

def openWindow (s : State) (primary : Nat) (r : Reaction) : State :=
  s.onFh fun h => { h with windows := h.windows ++ [{ primary := primary, reaction := r, openedAt := s.now, cycle := s.fh.cycle }] }

/-! ### The fault history -/

def bitVal (b : Bool) (i : Nat) : Nat := if b then 2 ^ i else 0

/-- Append a record; a new one overwrites the oldest of 16,384 (R509). -/
def addHistory (s : State) (source cls flags primary count detail : Nat) : State :=
  s.onFh fun h =>
    let r : FaultRec := { num := h.historyNext, timeUs := powerOnUs s, source := source, cls := cls, flags := BitVec.ofNat 8 flags
                          primary := primary, count := count, detail := detail }
    let l := h.history ++ [r]
    { h with history := if 16384 < l.length then l.drop (l.length - 16384) else l, historyNext := h.historyNext + 1
             counted := tput 0 h.counted source 0, recordedAt := tput 0 h.recordedAt source (s.now + 1) }

/-- Record a firing: at once where it is the source's first, of class C2 or above, or a SAFE cause; otherwise at most once
per fh_log_interval, counted meanwhile; the record then made bears the class, flags and detail of the latest (DESIGN CHOICE, log entry 94).
`limited` is a suppressed firing (R500, R509). -/
def recordFiring (s : State) (source cls flags primary detail : Nat) (limited : Bool) : State :=
  let n := tget 0 s.fh.counted source + 1
  let last := tget 0 s.fh.recordedAt source
  if (decide (2 ≤ cls) && !limited) || decide (last = 0) || decide (last - 1 + 1000 * s.policy.fhLogInterval ≤ s.now) then
    addHistory s source cls flags primary n detail
  else s.onFh fun h => { h with
    counted := tput 0 h.counted source n
    waiting := tput {} h.waiting source { source := source, cls := cls, flags := BitVec.ofNat 8 flags, primary := primary, detail := detail } }

/-! ### Reactions of class C2 -/

/-- Reads that are queued for a channel, or in flight on it, are reissued as degraded reads, run-ahead reads that are being decoded among them
(R28, R255 step 1, R282). -/
def degradeReads (s : State) (ch : Nat) : State :=
  let s := (diesOf s ch).foldl (fun s die => dropOps s die fun o => isRead o.kind) s
  let hit := s.path.jobs.filter fun j => decide (dieChan j.die = ch) && decide (j.step < 5) && j.decoded.isNone
    && (!j.queued || (decide (j.step = 1) && j.runAhead))
  feedColumns 64 ((hit.map (·.id)).foldl (fun s id => match findJob s id with
    | some j => toStep5 s j false
    | none => s) s)

/-- What a reset finds under way on a die: a read ends with it, a program pass closes its block there, an erase or a margin
check is cut (R256). -/
def cutOp (s : State) (die : Nat) : State :=
  let d := getDie s die
  let s := match d.busy with
    | some o => returnGrant s die o
    | none => s
  let cut := fun (b : Nat) (u : SbUse) (begun : Bool) (s : State) =>
    modChan s (dieChan die) fun c => { c with cut := c.cut ++ [(die, b, u, begun)] }
  let s := modDie s die fun x => { x with busy := none, susp := none, suspends := 0, served := 0 }
  let s := match d.susp with
    | some o => (match o.kind with
      | .erase b u _ => cut b u true s
      | _ => s)
    | none => s
  match d.busy with
  | none => s
  | some o => match o.kind with
    | .erase b u _ => cut b u true s
    | .marginCheck b u _ => cut b u false s
    | .coarse sb idx | .fine sb idx | .program sb idx => failBlock s sb idx false
    | _ => s

/-- A channel sequencer is reset: steps 1 and 2 of R255, or, while the power-loss sequencer flushes, the channel stops (R258, R386).
`note` is what the hub records beside it. -/
def resetChannel (s : State) (note : State → State) (ch : Nat) : State :=
  if s.journal.pls = 2 then s.onJournal fun j => { j with stopped := addOnce ch j.stopped }
  else if (getChan s ch).st = .reset ∨ (getChan s ch).st = .failed ∨ (getChan s ch).st = .disabled then s
  else
    let s := modChan (note s) ch fun c =>
      let starts := recent s 60000000 c.resetStarts ++ [s.now]
      { c with st := .reset, resetAt := some s.now, resetCount := satAdd 65535 c.resetCount 1, resetStarts := starts
               pendingSecond := 0, cut := [], failAtEnd := decide (s.policy.csResetLimit ≤ starts.length) }
    let s := (diesOf s ch).foldl cutOp s
    degradeReads (enableMover (disableMover s ch) ch) ch

/-- The hub orders a block reset of a channel sequencer (R255, R498). -/
def startCsReset (s : State) (primary ch : Nat) : State := resetChannel s (fun s => openWindow s primary (.csReset ch)) ch

/-- A channel is declared failed: its reads are degraded, its members are lost, and rebuild begins (R258, R313). -/
def failChannel (s : State) (ch : Nat) : State :=
  let s := modChan s ch fun c => { c with st := .failed, resetAt := none, cut := [] }
  let s := (diesOf s ch).foldl (fun s die => dropOps s die fun _ => true) s
  let s := (diesOf s ch).foldl (fun s die => modDie ((getDie s die).busy.elim s (returnGrant s die)) die fun d => { d with busy := none, susp := none }) s
  refreshRefuge (packCopies (memberLoss (degradeReads s ch)))

/-- A codeword is sensed again in the step it has reached (R264). -/
def senseAgain (s : State) (j : CwJob) : State :=
  let s := modJob s j.id fun x => { x with queued := false, failed := false, sensed := none, softSenses := 0 }
  let q := fun (soft : Nat) (retry : Option Nat) (s : State) => queueSense s j.die j.block j.pos soft retry j.cls
  match j.step with
  | 1 => q 0 none s
  | 2 => q 2 none (q 1 none (q 0 none s))
  | 3 => q 4 none (q 3 none (q 2 none (q 1 none (q 0 none s))))
  | _ => q 0 (some j.retryIdx) s

/-- An LDPC cluster is reset: its codewords are decoded again from their input copies, or sensed again where the LDPC
buffer is at fault (R264). -/
def resetCluster (s : State) (primary g : Nat) : State :=
  let c := getCluster s g
  let ids := (c.hardDec ++ c.softDec).map (·.job) ++ c.hardQ ++ c.softQ
  let s := modCluster s g fun c => { c with st := .reset, resetAt := some s.now }
  if primary = lcSource g 2 then
    let s := modCluster s g fun c => { c with hardQ := [], softQ := [], hardDec := [], softDec := [] }
    ids.foldl (fun s id => match findJob s id with
      | some j => senseAgain s j
      | none => s) s
  else s

/-- Block reset of an LDPC cluster (R264, R498). -/
def startLcReset (s : State) (primary g : Nat) : State :=
  let s := modCluster (openWindow s primary (.lcReset g)) g fun c => { c with c2Times := recent s 60000000 c.c2Times ++ [s.now] }
  resetCluster s primary g

/-- A general mover channel is disabled, enabled again, and given its chain again from the first descriptor that had not
completed (R498). -/
def restartMover (s : State) (primary n : Nat) : State :=
  let m := getMover s n
  let held := decide (m.st ≠ .idle) && decide (m.st ≠ .disabled)
  let s := modMover (openWindow s primary (.mover n)) n fun x => { x with c2Times := recent s 60000000 x.c2Times ++ [s.now] }
  let s := enableMover (disableMover s n) n
  if held then giveChain s n m.descAddr else s

/-- Block reset of a source's unit (R498). A source whose unit has no block reset is only recorded. -/
def reactC2 (s : State) (n : Nat) : State :=
  match sourceChan n with
  | some ch => startCsReset s n ch
  | none =>
    if 192 ≤ n ∧ n < 224 then restartMover s n (n - 160)
    else if 224 ≤ n ∧ n < 248 then startLcReset s n ((n - 224) / 6)
    else s

/-! ### Reactions of classes C3 and C4 -/

/-- Ports a C3 firing affects (R499). -/
def c3Ports (s : State) (n : Nat) : List PortId :=
  if 248 ≤ n ∧ n < 256 then [.A] else if 256 ≤ n ∧ n < 264 then [.B] else ports s

/-- The unit of a C3 source is reset: a DC goes into self-refresh, a mover channel is disabled, a sequencer and a cluster are reset as in
their block resets (R255, R264, R464, R499; DEDUCED, log entry 41). -/
def resetUnit (s : State) (n : Nat) : State :=
  if n < 128 then resetChannel s id (n / 4)
  else if n < 160 then modDc s ((n - 128) / 8) fun d => { d with st := .selfRefresh, queue := [], retryBuf := [] }
  else if n < 224 then disableMover s (n - 160)
  else if n < 248 then resetCluster s n ((n - 224) / 6)
  else s

/-- The C3 reaction: the ports stop, show CSTS.CFS and end their commands, and the source's unit is reset (R499, R569). -/
def reactC3 (s : State) (n : Nat) : State :=
  let ps := c3Ports s n
  let s := openWindow s n (.c3 ps)
  let s := ps.foldl (fun s p => endUnlockOf (s.onPort p fun pt => { pt with fetching := false, cfs := true }) p) (endAll s ps)
  let s := s.onFh fun h => { h with
    c3Times := recent s 600000000 h.c3Times ++ [s.now]
    unitReset := some (match h.unitReset with
      | some u => { sources := addOnce n u.sources, ports := (u.ports ++ ps).dedup }
      | none => { sources := [n], ports := ps }) }
  resetUnit s n

/-- SAFE entry, steps 1 to 3: the latch sets, both controllers show CSTS.CFS and end their commands, PME is signalled, ALIVE
is held low, the unlock ends, a handover or an activation stops, and the flush of R385 begins where PLS is armed (R385, R524, R526,
R527, R528, R640). A power-loss flush that runs goes on unchanged. A C4 firing before recovery has ended is fatal code
START_C4 (R572); after start-up ID_BOOT keeps its value (R575). -/
def enterSafe (s : State) (c : Capture) : State :=
  if s.fh.latch then s
  else
    let old := s
    let s := openWindow s c.source .safe
    let s := s.onFh fun h => { h with latch := true, safe := c, selfSet := c.isSelf, aliveDriving := false, aliveLevel := false }
    let s := stopPorts s
    let s := endUnlock (pmeOnChange old (s.onBoth fun pt => { pt with cfs := true }))
    let s := s.onOwn fun o => if o.phase = .handover then
        { o with phase := if linkIsDown (old.port o.owner) then .linkDown else .held, claim := none
                 downSince := if linkIsDown (old.port o.owner) then some (o.downSince.getD s.now) else none } else o
    let s := { s with activation := none }
    let early := decide (old.run ≠ .running) && decide (old.run ≠ .flushing) && decide (old.run ≠ .idle) && decide (old.run ≠ .subsystemReset)
    let s := s.onBoot fun b => { b with
      stage := if early then 9 else b.stage, fatal := if early then 0x0A else b.fatal
      detailHi := if early then c.source else b.detailHi
      detailLo := if early then 0 else b.detailLo }
    if s.run = .flushing ∨ s.run = .idle then s
    else if s.journal.pls = 1 then { beginFlush s 2 with run := .safe }
    else { (resetDies s).onJournal (fun j => { j with pls := 3 }) with run := .safe, boot := { s.boot with prevSafe := c } }

/-! ### One cycle of firings -/

/-- Answers a source's own chapter gives to its firing: an illegal state of RLT sets its entries as at formation (R503). -/
def sourceResponse (s : State) (n : Nat) : State :=
  if n = coreSource 9 then s.onMedia fun m => { m with rlt := [] } else s

/-- A secondary firing: recorded with its primary, without a reaction (R505, R511). One of a channel in block reset counts
toward cs_reset_limit once the reset has ended (R258). During a flush the fault of a channel stops it, though a window is open (R258,
R386). -/
def fireSecondary (s : State) (f : Firing) (w : Window) : State :=
  let s := s.onFh fun h => { h with sec := addOnce f.source h.sec, tagPrimary := w.primary, tagSource := f.source }
  let s := if s.journal.pls = 2 ∧ 2 ≤ appliedClass s f.source then (sourceChan f.source).elim s (resetChannel s id) else s
  let s := match w.reaction with
    | .csReset ch => if (getChan s ch).st = .reset then modChan s ch fun c => { c with pendingSecond := c.pendingSecond + 1 } else s
    | _ => s
  recordFiring s f.source (classOf s f.source) (2 + bitVal f.injected 2) w.primary f.detail false

/-- A firing of a failed channel: its status bit and a record under the rate limit (R500). -/
def fireSuppressed (s : State) (f : Firing) : State :=
  let s := s.onFh fun h => { h with status := addOnce f.source h.status }
  recordFiring s f.source (classOf s f.source) (bitVal f.injected 2 + 32) 0xFFFF f.detail true

/-- A primary firing: captured, recorded, noticed, and reacted to by its class (R498, R505 to R510). `first` is the first
primary of its cycle. -/
def firePrimary (s : State) (f : Firing) (first : Bool) : State :=
  let cls := appliedClass s f.source
  let esc := decide (cls ≠ classOf s f.source)
  let cap : Capture := { valid := true, injected := f.injected, escalated := esc, cls := cls, source := f.source, timeUs := sinceStart s }
  let takesFirst := first && !s.fh.first.valid
  let s := s.onFh fun h => { h with
    status := addOnce f.source h.status, first := if takesFirst then cap else h.first, last := if first then cap else h.last }
  let flags := bitVal takesFirst 0 + bitVal f.injected 2 + bitVal esc 3 + bitVal (decide (cls = 4)) 4
  let s := recordFiring s f.source cls flags 0xFFFF f.detail false
  let s := sourceResponse s f.source
  let s := if cls = 1 ∨ cls = 2 then notice s 0xC3 else s
  match cls with
  | 2 => reactC2 s f.source
  | 3 => reactC3 s f.source
  | 4 => enterSafe s cap
  | _ => s

/-- The channel behind the source is failed: its firings are suppressed (R500). -/
def isSuppressed (s : State) (n : Nat) : Bool :=
  match sourceChan n with
  | some ch => chanFailed s ch
  | none => false

/-- Process the firings of a cycle in order; `first` says that no primary has come yet. -/
def fireEach : State → Bool → List Firing → State
  | s, _, [] => s
  | s, first, f :: fs =>
    let s := setFaultBit s f.source
    if isSuppressed s f.source then fireEach (fireSuppressed s f) first fs
    else match windowFor s f.source with
      | some w =>
        if decide (appliedClass s f.source = 4) && !s.fh.latch then fireEach (firePrimary s f first) false fs
        else fireEach (fireSecondary s f w) first fs
      | none => fireEach (firePrimary s f first) false fs

/-- One firing for each source; a forced one marks it as injected (R521). -/
def mergeFirings (l : List Firing) : List Firing :=
  l.foldl (fun acc f =>
    if acc.any fun g => decide (g.source = f.source) then
      acc.map fun g => if g.source = f.source then { g with injected := g.injected || f.injected } else g
    else acc ++ [f]) []

/-- Order of the firings of a cycle: highest applied class, then lowest source (R506). -/
def fireKey (s : State) (f : Firing) : Nat := (4 - appliedClass s f.source) * 1024 + f.source

/-- Take firings in the order of R506. -/
def orderFirings (s : State) : Nat → List Firing → List Firing
  | 0, _ => []
  | n + 1, l =>
    match minBy (fireKey s) l with
    | none => []
    | some f => f :: orderFirings s n (l.filter fun g => decide (g.source ≠ f.source))

/-- Firings that reach the hub in one cycle. In reset nothing fires, nor do the sources of disabled units (R43, R644). -/
def fireAll (s : State) (l : List Firing) : State :=
  if s.run = .inReset ∨ s.run = .porHeld then s
  else
    let m := (mergeFirings l).filter fun f => sourceOn s f.source
    let s := s.onFh fun h => { h with cycle := h.cycle + 1 }
    fireEach s true (orderFirings s m.length m)

/-- One real firing of a source. -/
def fire (s : State) (n : Nat) (detail : Nat := 0) : State := fireAll s [{ source := n, detail := detail, injected := false }]

end Sys2Proof.Machine
end

