-- ==== Sys2Proof/Machine/Hub.lean ====
section
/-! DEFINITION. The commands of the fault hub: firings (R498, R505 to R507), the timeouts that fire a source (R223, R261, R503),
the hub's own faults (R523), the ends of unit resets (R255 to R258, R264, R499), windows (R511), the rate of records (R509),
ALIVE (R528, R529), injection and the legacy force block (R517 to R521). -/
namespace Sys2Proof.Machine

/-! ### Firings -/

/-- A corrected word of MRAM (R444, R605): it is remapped once it corrects again after the ring has been written over it; a
full table fires REMAP_FULL of MJ. Which words a write has touched in between is known by the ring's lap (DESIGN CHOICE, log
entry 15). -/
def mramCe (s : State) (word : Nat) : State :=
  let s := s.onMisc fun m => { m with mramCorrected := m.mramCorrected + 1 }
  if word ∈ s.misc.mramRemap then s
  else
    let before := tget 0 s.misc.mramOnce word
    if before = 0 then s.onMisc fun m => { m with mramOnce := tput 0 m.mramOnce word (s.journal.laps + 1) }
    else if s.journal.laps + 1 ≤ before then s
    else if s.misc.mramRemap.length < 16 then s.onMisc fun m => { m with mramRemap := m.mramRemap ++ [word] }
    else fire s (mjSource 3) word

/-- An uncorrectable word of MRAM (R444, R605): it is remapped where the ring has been written over it since it was uncorrectable
before. -/
def mramUe (s : State) (word : Nat) : State :=
  let s := s.onMisc fun m => { m with mramUncorrectable := m.mramUncorrectable + 1 }
  if word ∈ s.misc.mramRemap then s
  else
    let before := tget 0 s.misc.mramBad word
    if before = 0 then s.onMisc fun m => { m with mramBad := tput 0 m.mramBad word (s.journal.laps + 1) }
    else if s.journal.laps + 1 ≤ before then s
    else if s.misc.mramRemap.length < 16 then s.onMisc fun m => { m with mramRemap := m.mramRemap ++ [word] }
    else fire s (mjSource 3) word

/-- A corrected word of an SRAM macro of 65,536 words: remapped when it corrects again, four words to a macro (R433, R444,
R445; log entry 15). -/
def sramCe (s : State) (word : Nat) : State :=
  s.onMisc fun m =>
    let m := { m with sramCorrected := m.sramCorrected + 1 }
    let w := (word / 65536, word % 65536)
    if w ∈ m.sramRemap then m
    else if word ∉ m.sramOnce then { m with sramOnce := m.sramOnce ++ [word] }
    else if (m.sramRemap.filter fun x => decide (x.1 = w.1)).length < 4 then { m with sramRemap := m.sramRemap ++ [w] }
    else { m with sramFull := m.sramFull + 1 }

/-- What an uncorrectable word of a buffer does to the work it serves (R441). -/
def bufWordLost (s : State) (w : BufWord) : State :=
  match w with
  | .writeData p sq cid =>
    match findCmd s p sq cid with
    | some c => if c.stage = .running ∧ hasData c.entry.op ∧ !c.prot then failWrite s c .dataTransferError else s
    | none => s
  | .readData p sq cid =>
    match findCmd s p sq cid with
    | some c => (match c.entry.op with
      | .read .. => ioDone (abandonRead s c) p sq cid .dataTransferError
      | _ => s)
    | none => s
  | .readAhead buf => s.onPath fun p => { p with bufs := p.bufs.filter fun b => b.id ≠ buf }
  | .accumulator sb k col =>
    let s := modStripe s sb k fun t => { t with badCols := addOnce col t.badCols }
    queueRelocation s sb k 18
  | .recon job =>
    match findJob s job with
    | none => s
    | some j =>
      if j.step ≠ 5 ∨ !j.hasBuf then s
      else if j.recomputed then loseJob s j
      else beginStep5 (modJob s job fun x => { x with got := [], recomputed := true }) job

/-- What a firing brings beside the hub's reaction: a memory's source tells the counters of the Extended Health log (R605), a word lost in
a buffer ends the work it serves (R441), and a poisoned TLP of a command's data its command (R503). -/
def memoryNote (s : State) (f : Firing) : State :=
  if f.source = mjSource 0 then mramCe s f.detail
  else if f.source = mjSource 1 then mramUe s f.detail
  else if f.source = coreSource 2 then sramCe s f.detail
  else if f.source = coreSource 3 ∨ f.source = coreSource 4 then
    let s := s.onMisc fun m => { m with sramUncorrectable := m.sramUncorrectable + 1 }
    match f.word with
    | some w => if f.source = coreSource 4 ∧ !f.injected then bufWordLost s w else s
    | none => s
  else if f.source = hfeSource .A 2 ∨ f.source = hfeSource .B 2 then
    match f.word with
    | some (.writeData p sq cid) => bufWordLost s (.writeData p sq cid)
    | _ => s
  else s

/-- A mover channel that finds a fault in itself halts before the hub reacts (R465, R466): DATAPATH for an injected parity error; for a
real firing, which names no cause, DATAPATH or INTERNAL (a free value). -/
def moverFails (s : State) (f : Firing) : State :=
  let n := f.source - 160
  let m := getMover s n
  if 160 ≤ f.source ∧ f.source < 224 ∧ m.st ≠ .idle ∧ m.st ≠ .halted ∧ m.st ≠ .disabled then
    let (s, k) := drawFree s
    let code := if f.injected then 6 else 6 + (Config.freeReg k).toNat % 2
    modMover s n fun x => { x with st := .halted, code := code, signals := x.signals ++ [(x.descAddr, code)] }
  else s

/-- FAULT_SOURCE_FIRING (R498): the firings of one fabric cycle. The inversion of an armed injection has been made when the
checker reports it (R518). -/
def sourcesFire (s : State) (fs : List Firing) : State :=
  let hit := fs.any fun f => f.injected && decide (f.source = s.fh.injSource)
  let s := fs.foldl moverFails (if hit then s.onFh fun h => { h with injArmed := false } else s)
  fs.foldl memoryNote (fireAll s fs)

def execFaultSourceFiring (fs : List Firing) (s : State) : Host.Outcome State Fault Refusal := .next (sourcesFire s fs)

/-- Cell mode of a block: that of the super-block it belongs to, SLC elsewhere. -/
def blockMode (s : State) (die block : Nat) : Nat :=
  (s.media.sbs.find? fun b => (List.range b.blocks.length).any fun i =>
    decide (nth 0 b.blocks i = block) && decide (sbDie s b (i / diesPerChan s) (i % diesPerChan s) = die)).elim 0 (·.mode)

/-- Longest time of a sense in a cell mode, µs (R222). -/
def readMaxUs (s : State) (mode : Nat) : Nat :=
  if mode = 2 then s.image.timing.tReadQlc else if mode = 1 then s.image.timing.tReadTlc else s.image.timing.tReadSlc

/-- Longest time of an array operation on a die, µs (R222); an erase-margin check takes three SLC senses in each plane (R404). -/
def opMaxUs (s : State) (die : Nat) (k : OpKind) : Nat :=
  let t := s.image.timing
  match k with
  | .sense block _ _ _ => readMaxUs s (blockMode s die block)
  | .marginCheck .. => 3 * s.geo.planes * t.tReadSlc
  | .coarse .. => t.tProgCoarse
  | .fine .. => t.tProgFine
  | .program sb _ => if (findSb s sb).elim false fun b => decide (b.mode = 1) then t.tProgTlc else t.tProgSlc
  | .erase .. => t.tErase

/-- A Reset of the channel's dies has taken twice t_rst (R223, R255). -/
def resetTooLong (s : State) (ch : Nat) : Bool :=
  decide ((getChan s ch).st = .reset) && (getChan s ch).resetAt.elim false fun t => elapsed s t (2 * s.image.timing.tRst)

/-- BUSY_TIMEOUT (R223): the die's operation has run for twice its maximum, or a Reset for twice t_rst. -/
def busyTimedOut (s : State) (die : Nat) : State :=
  let late := (getDie s die).busy.elim false fun o => elapsed s (getDie s die).runFrom (2 * opMaxUs s die o.kind)
  if late || resetTooLong s (dieChan die) then fire s (csSource (dieChan die) 0) else s

def execBusyTimeout (die : Nat) (s : State) : Host.Outcome State Fault Refusal := .next (busyTimedOut s die)

/-- Longest time of a decode in ns: 512 and 256 for each iteration, or 384 and 144 in a soft decoder (R261); a clock divided by R485 takes as
many times as long (DEDUCED, log entry 83). -/
def decodeMaxNs (s : State) (g : Nat) (soft : Bool) : Nat :=
  (if soft then 384 + 144 * s.image.ldpc.softIterMax else 512 + 256 * s.image.ldpc.hardIterMax) * (getCluster s g).divider

/-- A decoder of the cluster has not finished within twice its bound (R264). -/
def decoderLate (s : State) (g : Nat) : Bool :=
  let c := getCluster s g
  let late := fun (soft : Bool) (d : Decoding) => decide (2 * decodeMaxNs s g soft ≤ 1000 * (s.now - d.since))
  decide (c.st ≠ .reset) && (c.hardDec.any (late false) || c.softDec.any (late true))

/-- DEC_TIMEOUT (R264): a decoder that holds a codeword has not finished within twice its bound. -/
def decTimedOut (s : State) (g : Nat) : State := if decoderLate s g then fire s (lcSource g 3) else s

def execDecTimeout (cluster : Nat) (s : State) : Host.Outcome State Fault Refusal := .next (decTimedOut s cluster)

/-- CORE_WDOG (R503): the core's number is the record's detail of none; the source is one for all cores. -/
def execCoreWdog (_core : Nat) (s : State) : Host.Outcome State Fault Refusal := .next (fire s (coreSource 0))

/-- FABRIC_TIMEOUT (R503). -/
def execFabricTimeout (s : State) : Host.Outcome State Fault Refusal := .next (fire s (coreSource 15))

/-- CPL_TIMEOUT (R503): the command completes with Data Transfer Error, unless it is Protected already. -/
def completionTimedOut (s : State) (p : PortId) (sq cid : Nat) : State :=
  match findCmd s p sq cid with
  | none => s
  | some c =>
    if c.prot then s
    else
      let s := if isWriteOp c.entry.op then failWrite s c .dataTransferError
        else ioDone (abandonRead s c) p sq cid .dataTransferError
      fire s (hfeSource p 1)

def execCplTimeout (p : PortId) (sq cid : Nat) (s : State) : Host.Outcome State Fault Refusal :=
  .next (completionTimedOut s p sq cid)

/-- Bit of FH_SELF (R531). -/
def selfBit (c : SelfCause) : Nat :=
  match c with
  | .configEcc => 0
  | .regParity => 1
  | .logic => 2
  | .heartbeat => 3

/-- HUB_SELF_FAULT (R523): the latch sets directly, with source 0x1FF and no class lookup. -/
def hubFault (s : State) (c : SelfCause) : State :=
  if s.run = .inReset ∨ s.run = .porHeld then s
  else
    let s := s.onFh fun h => { h with selfBits := setBit h.selfBits (selfBit c), cycle := h.cycle + 1 }
    let s := if s.fh.latch then s else recordFiring s 0x1FF 4 16 0xFFFF 0 false
    enterSafe s { valid := true, cls := 4, source := 0x1FF, isSelf := true, timeUs := sinceStart s }

def execHubSelfFault (c : SelfCause) (s : State) : Host.Outcome State Fault Refusal := .next (hubFault s c)

/-! ### Ends of unit resets -/

/-- Blocks whose erase or margin check a reset cut: their allocation takes the next block, and they go back to the dirty
pool, unclean if the erase had begun (R256). -/
def returnCut (s : State) (l : List (Nat × Nat × SbUse × Bool)) : State :=
  l.foldl (fun s x =>
    let (die, b, u, begun) := x
    let s := if dieLost s die then s else replaceBlock s die b u
    modBlock (jot s (.blockPool die b .dirty)) die b fun y => { y with pool := .dirty, unclean := y.unclean || begun }) s

/-- CHANNEL_BLOCK_RESET_END (R255 to R258): dies that did not become ready, and those of targets whose training check failed, are failed;
secondary firings now count toward cs_reset_limit; the channel is ACTIVE again, or failed, as it is where the reset has exceeded its bound. -/
def csResetEnd (s : State) (ch : Nat) (notReady untrained : List Nat) : State :=
  let c := getChan s ch
  match c.resetAt with
  | none => s
  | some t0 =>
    if c.st ≠ .reset then s
    else
      let bad := (diesOf s ch).filter fun d => decide (d ∈ notReady) || decide (d % 32 / 8 ∈ untrained)
      let s := bad.foldl (fun s d => modDie s d fun x => { x with isFailed := true }) s
      let starts := recent s 60000000 (c.resetStarts ++ List.replicate c.pendingSecond s.now)
      let allFailed := (diesOf s ch).all fun d => (getDie s d).isFailed
      let late := decide (t0 + 2 * s.image.timing.tRst + 517 < s.now)
      let gone := c.failAtEnd || decide (s.policy.csResetLimit ≤ starts.length) || allFailed || late
      let lost := untrained.foldl (fun (m : BitVec 4) t => m ||| BitVec.twoPow 4 t) 0
      let s := modChan s ch fun x => { x with
        st := .active, resetAt := none, lastResetUs := min 65535 (s.now - t0), resetStarts := starts, pendingSecond := 0, cut := []
        trained := x.trained &&& ~~~lost }
      if gone then returnCut (failChannel s ch) c.cut
      else
        let s := returnCut s c.cut
        if bad.isEmpty then s else refreshRefuge (packCopies (memberLoss s))

def execChannelBlockResetEnd (ch : Nat) (found : ResetFound) (s : State) : Host.Outcome State Fault Refusal :=
  .next (csResetEnd s ch found.notReady found.untrained)

/-- BLOCK_RESET_BOUND_EXPIRY (R255, R258): the reset has run for 2 × t_rst + 517 µs, and the channel is failed. Its step 5 never ends; R259 gives
last_reset_us no other end, and the time to the expiry is taken (DESIGN CHOICE, log entry 82). -/
def csBoundOver (s : State) (ch : Nat) : State :=
  let c := getChan s ch
  match c.resetAt with
  | none => s
  | some t0 =>
    if c.st = .reset ∧ elapsed s t0 (2 * s.image.timing.tRst + 517) then
      returnCut (failChannel (modChan s ch fun x => { x with lastResetUs := min 65535 (s.now - t0) }) ch) c.cut
    else s

def execBlockResetBoundExpiry (ch : Nat) (s : State) : Host.Outcome State Fault Refusal := .next (csBoundOver s ch)

/-- CLUSTER_BLOCK_RESET_END: the codewords that were being decoded are decoded again from their input copies (R264). -/
def lcResetEnd (s : State) (g : Nat) : State :=
  if (getCluster s g).st = .reset then
    let again := fun (d : Decoding) => { d with since := s.now }
    feedDecoders (modCluster s g fun c => { c with
      st := .active, resetAt := none, resetEnd := s.now, hardDec := c.hardDec.map again, softDec := c.softDec.map again }) g
  else s

def execClusterBlockResetEnd (g : Nat) (s : State) : Host.Outcome State Fault Refusal := .next (lcResetEnd s g)

/-- A unit that a C3 reaction reset works again; a sequencer ends its reset by itself (R255, R499). -/
def unitBack (s : State) (n : Nat) : State :=
  if n < 128 then s
  else if n < 160 then modDc s ((n - 128) / 8) fun d => { d with st := .active }
  else if n < 224 then (if (getMover s (n - 160)).st = .disabled then enableMover s (n - 160) else s)
  else if n < 248 then lcResetEnd s ((n - 224) / 6)
  else s

/-- UNIT_RESET_END (R499): a DC leaves self-refresh with its content, and the controller resets that were held run. -/
def unitResetOver (s : State) : State :=
  match s.fh.unitReset with
  | none => s
  | some u =>
    let s := u.sources.foldl unitBack (s.onFh fun h => { h with unitReset := none })
    let s := if s.portA.resetHeld then resetPortNow s .A else s
    if s.portB.resetHeld then resetPortNow s .B else s

def execUnitResetEnd (s : State) : Host.Outcome State Fault Refusal := .next (unitResetOver s)

/-! ### Windows and records -/

/-- The window's last cycle has come (R512). -/
def windowOver (s : State) (w : Window) : Bool :=
  match w.reaction with
  | .csReset ch => decide ((getChan s ch).st ≠ .reset) && elapsed s w.openedAt ((getChan s ch).lastResetUs + 50)
  | .lcReset g => decide ((getCluster s g).st ≠ .reset) && elapsed s (getCluster s g).resetEnd 10
  | .mover _ => elapsed s w.openedAt 100
  | .c3 ps => ps.all fun p => !(s.port p).cfs
  | .safe => false

/-- REACTION_WINDOW_CLOSE (R511). -/
def closeWindows (s : State) (source : Nat) : State :=
  s.onFh fun h => { h with windows := h.windows.filter fun w => !(decide (w.primary = source) && windowOver s w) }

def execReactionWindowClose (source : Nat) (s : State) : Host.Outcome State Fault Refusal := .next (closeWindows s source)

/-- FH_LOG_INTERVAL_EXPIRY (R509): the firings counted since the previous record are recorded. -/
def logCounted (s : State) (source : Nat) : State :=
  let n := tget 0 s.fh.counted source
  if 0 < n ∧ elapsed s (tget 0 s.fh.recordedAt source - 1) (1000 * s.policy.fhLogInterval) then
    let r := tget {} s.fh.waiting source
    addHistory s source r.cls r.flags.toNat r.primary n r.detail
  else s

def execFhLogIntervalExpiry (source : Nat) (s : State) : Host.Outcome State Fault Refusal := .next (logCounted s source)

/-! ### ALIVE -/

/-- ALIVE_EDGE (R528, R529): the output toggles and is read back; another level than the driven one fires ALIVE_MON. -/
def aliveToggle (s : State) (pin : Bool) : State :=
  if !s.fh.aliveDriving then s.onFh fun h => { h with aliveReadback := pin }
  else
    let level := !s.fh.aliveLevel
    let bad := decide (pin ≠ level)
    let s := s.onFh fun h => { h with
      aliveLevel := level, aliveReadback := pin, mismatches := if bad then satAdd 65535 h.mismatches 1 else h.mismatches }
    if bad then fire s (coreSource 22) else s

def execAliveEdge (pinLevel : Bool) (s : State) : Host.Outcome State Fault Refusal := .next (aliveToggle s pinLevel)

/-! ### Window writes with rows of their own -/

/-! Each comes over the port's link, which carries none without its REFCLK (R30). -/

/-- A Diagnostic Unlock with window scope is in effect on the port (R13). -/
def mayWrite (s : State) (p : PortId) : Bool :=
  match s.sec.unlock with
  | some u => decide (u.port = p) && u.scope.getLsbD 0
  | none => false

/-- Any window access of a port drops its latch and its buffered low word (R16, R17). -/
def touchWindow (s : State) (p : PortId) : State := s.onPort p fun pt => { pt with latch := none, wbuf := none }

/-- FH_FIRST_VALID_CLEAR (R506): the high word of FH_FIRST is written with bit 63 set. -/
def clearFirst (s : State) (p : PortId) : State :=
  let s' := touchWindow s p
  if mayWrite s p then s'.onFh fun h => { h with first := { h.first with valid := false } } else s'

def execFhFirstValidClear (p : PortId) (s : State) : Host.Outcome State Fault Refusal :=
  .next (if (s.port p).refclk then clearFirst s p else s)

/-- Sources whose checker invert-check accepts (R519). -/
def injectable (n : Nat) : Bool :=
  if n < 128 then decide (n % 4 = 2)
  else if n < 160 then decide ((n - 128) % 8 < 3)
  else if n < 224 then true
  else if n < 248 then decide ((n - 224) % 6 ∈ [0, 1, 2, 4])
  else if n < 264 then decide ((n - 248) % 8 = 5) || decide ((n - 248) % 8 = 6)
  else if n < 288 then false
  else if n < 296 then decide (n - 288 ∈ [0, 1, 6])
  else decide (n - 296 ∈ [1, 2, 3, 4, 5, 6, 7, 8, 16])

/-- FH_INJECT_ARM (R518, R519): a write to FH_INJECT. A source that is not accepted is refused. -/
def writeInject (s : State) (p : PortId) (v : BitVec 32) : State :=
  let s' := touchWindow s p
  if !mayWrite s p then s'
  else
    let src := field v.toNat 8 0
    let ok := injectable src
    s'.onFh fun h => { h with
      injSource := src, injMode := field v.toNat 25 24, injAddrEn := v.getLsbD 29
      injArmed := v.getLsbD 31 && ok, injRefused := if v.getLsbD 31 then !ok else h.injRefused }

def execFhInjectArm (p : PortId) (v : BitVec 32) (s : State) : Host.Outcome State Fault Refusal :=
  .next (if (s.port p).refclk then writeInject s p v else s)

/-- FH_LEG_ARM_WRITE (R520). -/
def writeLegArm (s : State) (p : PortId) (v : BitVec 32) : State :=
  let s' := touchWindow s p
  if mayWrite s p then s'.onFh fun h => { h with legArm := v, legArmAt := some s.now } else s'

def execFhLegArmWrite (p : PortId) (v : BitVec 32) (s : State) : Host.Outcome State Fault Refusal :=
  .next (if (s.port p).refclk then writeLegArm s p v else s)

/-- FH_LEG_ARM_EXPIRY (R520): the arm word clears itself 1 s after it was written. -/
def legArmOver (s : State) : State :=
  match s.fh.legArmAt with
  | some t => if elapsed s t 1000000 then s.onFh fun h => { h with legArm := 0, legArmAt := none } else s
  | none => s

def execFhLegArmExpiry (s : State) : Host.Outcome State Fault Refusal := .next (legArmOver s)

/-- FH_LEG_FORCE_WRITE (R520, R521): every bit written 1 fires its source once, marked as injected. -/
def forceSources (s : State) (p : PortId) (k : Nat) (v : BitVec 32) : State :=
  let s' := touchWindow s p
  if mayWrite s p && decide (s.fh.legArm = 0x0000C3A5) && decide (k < 10) then
    fireAll s' (((List.range 32).filter fun i => v.getLsbD i).map fun i => { source := 32 * k + i, detail := 0, injected := true })
  else s'

def execFhLegForceWrite (p : PortId) (k : Nat) (v : BitVec 32) (s : State) : Host.Outcome State Fault Refusal :=
  .next (if (s.port p).refclk then forceSources s p k v else s)

end Sys2Proof.Machine
end

