-- ==== Sys2Proof/Machine/Movers.lean ====
section
/-! DEFINITION. The commands of the data movers (12_data_movers.md): chains and descriptors (R455 to R458), pacing (R460,
R463), arbitration (R461), and the errors that halt a channel (R465 to R467). A channel is channel `chan` of block `block`;
its global number is 8 × block + chan. -/
namespace Sys2Proof.Machine

/-- Global channel number (R469). -/
def globalChan (block chan : Nat) : Nat := 8 * block + chan

/-- A channel ends its chain with an error: it halts, signals, and its source fires (R466). -/
def haltMover (s : State) (n code : Nat) : State :=
  let s := modMover s n fun m => { m with st := .halted, code := code, signals := m.signals ++ [(m.descAddr, code)] }
  fire s (moverSource n)

/-- CHAIN_START (R456). -/
def execChainStart (block chan head : Nat) (s : State) : Host.Outcome State Fault Refusal :=
  .next (giveChain s (globalChan block chan) head)

/-- DESCRIPTOR_FETCH (R455, R456): the descriptor arrives and is checked before any byte moves. -/
def descriptorArrives (s : State) (n : Nat) (f : DescFetch) : State :=
  if (getMover s n).st ≠ .fetch then s
  else match f with
    | .failed => haltMover s n 3
    | .desc src dst length control next =>
      let d : Desc := { src := src, dst := dst, length := length, control := control, next := next }
      if descInvalid s n d then haltMover (modMover s n fun m => { m with desc := some d, remain := length % 16777216 }) n 5
      else tryPace (modMover s n fun m => { m with st := .wait, desc := some d, remain := length, paced := false, owed := 0 }) n

def execDescriptorFetch (block chan : Nat) (d : DescFetch) (s : State) : Host.Outcome State Fault Refusal :=
  .next (descriptorArrives s (globalChan block chan) d)

/-- PACE_TIMER (R460): the first burst of a timer-paced descriptor may start once its time has passed. -/
def execPaceTimer (block chan : Nat) (s : State) : Host.Outcome State Fault Refusal := .next (tryPace s (globalChan block chan))

/-- PERIPHERAL_REQUEST (R463): the sequencer of NAND channel `ch` asserts its request; its mover channel may move. -/
def peripheralAsserts (s : State) (ch : Nat) : State :=
  let m := getMover s ch
  match m.desc with
  | some d => if m.st = .wait ∧ ctlPace d = 1 ∧ 0 < m.remain then
      modMover s ch fun x => { x with st := .move, paced := true, issuedAt := s.now }
    else s
  | none => s

def execPeripheralRequest (ch : Nat) (s : State) : Host.Outcome State Fault Refusal := .next (peripheralAsserts s ch)

/-- The channel requests the port (R461). -/
def requests (s : State) (block : Nat) (r : MoverReady) : Bool :=
  let m := getMover s (globalChan block r.chan)
  decide (r.chan < 8) && decide (0 < m.remain) && match m.desc with
    | some d => if ctlPace d = 1 then r.portRequest && (decide (m.st = .move) || decide (m.st = .wait)) else decide (m.st = .move)
    | none => false

/-- BURST_GRANT (R461): the requesting channel first after the rotating pointer gets one burst. -/
def grantBurst (s : State) (block : Nat) (ready : List MoverReady) : State :=
  let p := (getMoverBlock s block).pointer
  match minBy (fun r => (r.chan + 8 - p) % 8) (ready.filter (requests s block)) with
  | none => s
  | some w =>
    let s := moveBurst s (globalChan block w.chan) w.poisoned
    modMoverBlock s block fun b => { b with pointer := (w.chan + 1) % 8, grants := satAdd 65535 b.grants 1 }

def execBurstGrant (block : Nat) (ready : List MoverReady) (s : State) : Host.Outcome State Fault Refusal :=
  .next (grantBurst s block ready)

/-- WRITE_RESPONSE (R458, R464): a response for one burst; one that arrives after a disable is discarded. -/
def responseArrives (s : State) (n : Nat) : State :=
  if (getMover s n).st = .disabled then s else modMover s n fun m => { m with owed := m.owed - 1 }

def execWriteResponse (block chan : Nat) (s : State) : Host.Outcome State Fault Refusal :=
  .next (responseArrives s (globalChan block chan))

/-- Close the window of a restarted channel once its first descriptor has completed (R512). -/
def closeMoverWindow (s : State) (n : Nat) : State :=
  s.onFh fun h => { h with windows := h.windows.filter fun w => !decide (w.reaction = .mover n) }

/-- DESCRIPTOR_COMPLETE (R456, R457): the descriptor is counted, signalled, gives its pace credit, and the chain ends, loops
too long, or goes on. -/
def descriptorDone (s : State) (n : Nat) : State :=
  let m := getMover s n
  match m.desc with
  | none => s
  | some d =>
    let moved := decide (m.remain = 0) && (decide (m.st = .move) || decide (m.st = .wait) || decide (m.st = .resp))
    if !moved || (ctlWresp d && decide (0 < m.owed)) then s
    else
      let s := closeMoverWindow s n
      let tell := ctlNotify d || ctlLast d
      let s := modMover s n fun x => { x with
        done := satAdd 4294967295 x.done 1, hops := x.hops + 1, desc := none, paced := false
        signals := if tell then x.signals ++ [(x.descAddr, 0)] else x.signals, prevBurst := x.firstBurst, firstBurst := none }
      let s := if ctlNotify d then addCredits s n else s
      if ctlLast d then modMover s n fun x => { x with st := .idle, code := 0 }
      else if s.policy.dmHopLimit ≤ m.hops + 1 then haltMover s n 2
      else modMover s n fun x => { x with st := .fetch, issuedAt := s.now, descAddr := d.next }

def execDescriptorComplete (block chan : Nat) (s : State) : Host.Outcome State Fault Refusal :=
  .next (descriptorDone s (globalChan block chan))

/-- The address lies in DRAM, and its DC is in FREQ_CHANGE, SELF_REFRESH or REPLAY (R467). -/
def dcAway (s : State) (a : Nat) : Bool :=
  let st := (getDc s (dramMap s.image.board.dramChannels (offsetOf a)).1).st
  decide (spaceOf a = 0) && (decide (st = .freqChange) || decide (st = .selfRefresh) || decide (st = .replay))

/-- The timer of a channel stands while the DC it addresses is away (R467). -/
def timerStands (s : State) (m : Mover) : Bool :=
  match m.desc with
  | some d =>
    let moved := d.length % 16777216 - m.remain
    dcAway s (d.src + moved) || dcAway s (d.dst + moved)
  | none => dcAway s m.descAddr

/-- DTIMEOUT (R467): a beat, a response or a descriptor fetch has not returned within dm_bus_timeout. -/
def moverTimedOut (s : State) (n : Nat) : State :=
  let m := getMover s n
  let waits := !timerStands s m && elapsed s m.issuedAt s.policy.dmBusTimeout &&
    (decide (m.st = .fetch) || decide (m.st = .move) || decide (m.st = .resp))
  if waits then haltMover s n (if m.st = .fetch then 3 else 4) else s

def execDTimeout (block chan : Nat) (s : State) : Host.Outcome State Fault Refusal := .next (moverTimedOut s (globalChan block chan))

end Sys2Proof.Machine
end

