-- ==== Sys2Proof/Machine/Dram.lean ====
section
/-! DEFINITION. The DRAM controllers' commands: the request queue and read-modify-write (R420 to R422, R438), row-hammer
protection (R423, R424), parity alerts (R427, R428), frequency points and training (R430 to R432), errors by region (R439), patrol
scrub (R443), and remap tables (R444, R445). -/
namespace Sys2Proof.Machine

/-! ### Errors -/

/-- What a read of a burst reports (R433, R434, R436): correct, so many symbols corrected, or uncorrectable. -/
inductive EccResult where
  | clean
  | corrected (n : Nat)
  | uncorrectable
  deriving DecidableEq, Repr

/-- The symbol that a bit belongs to: the eight bits one DQ of a device carries in one half of the burst, beats 0 to 7 or 8 to 15 (R434). -/
def symbolOf (device dq beat : Nat) : Nat := device * 16 + beat / 8 * 8 + dq

/-- Symbols of a burst that arrive with an error (R434). -/
def badSymbols (seen : EccSeen) : List Nat := (seen.flips.map fun x => symbolOf x.1 x.2.1 x.2.2).dedup

/-- The DRAM code corrects any eight symbols; the address is part of its check bits, so a read at the wrong address is never corrected
(R433, R434, R435). -/
def eccResult (seen : EccSeen) (more : Nat) : EccResult :=
  let n := (badSymbols seen).length + more
  if seen.astray || decide (8 < n) then .uncorrectable else if n = 0 then .clean else .corrected n

/-- What a read of a burst meets: what an injection or a poisoned write left in it, and what the devices do to it (R434 to R437, R518). An
inverted bit that an injection left is one symbol more. -/
def burstSeen (b : Burst) (seen : EccSeen) : EccResult :=
  if b.poison || decide (b.flaw = 2) then .uncorrectable else eccResult seen (b2n (decide (b.flaw = 1)))

/-- DRAM address bits 35:6 of a burst of a channel (R418, R449). -/
def burstAddress (s : State) (ch burst : Nat) : Nat := dramAddr s.image.board.dramChannels ch burst 0 / 64 % 1073741824

/-- Record an error in DCn_ERR_ADDR (R449). -/
def recordError (s : State) (ch burst : Nat) (unc : Bool) (symbols : Nat) : State :=
  modDc s ch fun d =>
    if d.errValid && !(unc && !d.errUnc) then d
    else { d with errValid := true, errUnc := unc, errSymbols := symbols, errBurst := burstAddress s ch burst }

/-- The copy at a position of the copy list is discarded, its source stays mapped, and upkeep makes it again (R335, R439). -/
def remakeCopy (s : State) (i : Nat) : State :=
  match s.path.copies[i]? with
  | none => s
  | some c => s.onPath fun p => { p with copies := p.copies.map fun x => if x.id = c.id then { x with dead := true } else x }

/-- An uncorrectable or poisoned burst: the source of its region fires, critical or soft (R439); the refuge pages of a flacon that holds one
do not decode (R440). -/
def uncorrectableAt (s : State) (ch burst : Nat) : State :=
  let addr := dramAddr s.image.board.dramChannels ch burst 0
  let detail := burstAddress s ch burst
  let crit := fire s (dcSource ch 1) detail
  match dramRegion s addr with
  | .map | .overlay => crit
  | .staging =>
    let f := (addr - (mapBytes s + 2147483648)) / 65536
    if (getFlacon s f).st = .free then fire s (dcSource ch 2) detail
    else fire (modFlacon s f fun x => { x with poisoned := true }) (dcSource ch 1) detail
  | .tables =>
    match Config.tableUse addr with
    | 1 => (fire s (dcSource ch 2) detail).onMedia fun m => { m with rlt := m.rlt.filter fun e => decide (e.1 ≠ Config.tableIndex addr) }
    | 2 => remakeCopy (fire s (dcSource ch 2) detail) (Config.tableIndex addr)
    | _ => crit

/-- Install a remap entry for a burst, or fire REMAP_FULL (R444, R445). -/
def installRemap (s : State) (ch burst : Nat) : State :=
  let d := getDc s ch
  if burst ∈ d.remap then s
  else if d.remap.length < 8 then
    modDc s ch fun x => { x with
      remap := x.remap ++ [burst], correctedLast := x.correctedLast.filter (· ≠ burst), overwritten := x.overwritten.filter (· ≠ burst)
      reported := x.reported.filter (· ≠ burst) }
  else fire s (dcSource ch 6) (burstAddress s ch burst)

/-- Count what a read met, record it, and act on it (R437, R439, R444, R449). -/
def noteSeen (s : State) (ch burst : Nat) (seen : EccSeen) : State :=
  let b := tget {} (getDc s ch).mem burst
  match burstSeen b seen with
  | .clean => s
  | .corrected n =>
    let more := fun (d : Dc) => { d with
      corrected := satAdd 65535 d.corrected 1, ceTimes := (s.now :: d.ceTimes).take s.policy.dramCeThresh }
    recordError (modDc s ch more) ch burst false n
  | .uncorrectable =>
    let again := decide (burst ∈ (getDc s ch).overwritten)
    let s := modDc s ch fun d =>
      let d := if b.poison then { d with poisoned := satAdd 255 d.poisoned 1 } else { d with uncorrectable := satAdd 255 d.uncorrectable 1 }
      { d with reported := addOnce burst d.reported }
    let s := uncorrectableAt (recordError s ch burst true 0) ch burst
    if again then installRemap s ch burst else s

/-! ### Requests -/

/-- An armed injection hits this write: the checker of the DC is named, and the address matches where it is asked for (R518,
R519). -/
def injectHits (s : State) (ch burst : Nat) : Bool :=
  s.fh.injArmed && decide (dcSource ch 0 ≤ s.fh.injSource) && decide (s.fh.injSource ≤ dcSource ch 2)
    && (!s.fh.injAddrEn || decide (field s.fh.injAddr.toNat 35 6 = burstAddress s ch burst))

/-- Store a burst with fresh check bits, or with what an armed injection makes of them (R438, R518). -/
def storeBurst (s : State) (ch burst : Nat) (data : BitVec 512) (poison : Bool) : State :=
  let hit := injectHits s ch burst
  let mode := s.fh.injMode
  let b : Burst := { data := data, poison := poison || (hit && decide (mode = 2))
                     flaw := if hit && decide (mode = 0) then 1 else if hit && decide (mode = 1) then 2 else 0 }
  let s := modDc s ch fun d => { d with mem := tput {} d.mem burst b }
  if hit then s.onFh fun h => { h with injArmed := false } else s

/-- Merge written bytes into a burst. -/
def mergeBytes (x : BitVec 512) (bs : List (Nat × BitVec 8)) : BitVec 512 := bs.foldl (fun x b => setByte x (b.1 % 64) b.2) x

/-- The write covers the whole burst (R438). -/
def wholeBurst (bs : List (Nat × BitVec 8)) : Bool := (List.range 64).all fun i => bs.any fun b => decide (b.1 = i)

/-- A write: whole bursts are overwritten, a part is read, merged and written back; a part of an uncorrectable burst is
written with the poison syndrome and its read raises the source of the region (R422, R438). -/
def dramWrite (s : State) (ch burst : Nat) (bs : List (Nat × BitVec 8)) (seen : EccSeen) : State :=
  let b := tget {} (getDc s ch).mem burst
  let data := mergeBytes b.data bs
  if wholeBurst bs then
    let s := modDc s ch fun d => if burst ∈ d.reported then { d with overwritten := addOnce burst d.overwritten } else d
    storeBurst s ch burst data false
  else
    let bad := decide (burstSeen b seen = .uncorrectable)
    storeBurst (noteSeen s ch burst seen) ch burst data bad

/-- A read: the data goes to the requester. -/
def dramRead (s : State) (ch burst : Nat) (seen : EccSeen) : State :=
  noteSeen (modDc s ch fun d => { d with lastRead := (tget {} d.mem burst).data }) ch burst seen

/-! ### Row hammer -/

/-- Position of the entry with the lowest count, the lowest index first. -/
def lowestEntry (l : List RhEntry) : Nat := ((minBy (fun i => (nth ⟨0, 0⟩ l i).cnt * 64 + i) (List.range l.length))).getD 0

/-- Count an activate in a bank's table (R424). -/
def countActivate (l : List RhEntry) (row : Nat) : List RhEntry :=
  if l.any fun e => decide (e.row = row) then l.map fun e => if e.row = row then { e with cnt := e.cnt + 1 } else e
  else if l.length < 32 then l ++ [{ row := row, cnt := 1 }]
  else setNth l (lowestEntry l) fun e => { row := row, cnt := e.cnt + 1 }

/-- The lowest count among the other 31 entries; an entry not in use counts 0 (R424, R425; DEDUCED, log entry 90). -/
def lowestOther (l : List RhEntry) (row : Nat) : Nat :=
  if l.length < 32 then 0 else (((l.filter fun e => decide (e.row ≠ row)).map (·.cnt)).min?).getD 0

/-- Rows of a channel's banks, by density code (R418). -/
def rowsOf (density : Nat) : Nat := if density = 0 then 65536 else if density = 1 then 98304 else 131072

/-- Activate a row: a pending targeted refresh of the bank is issued first; a row that reaches rh_threshold queues one of
its neighbours that exist (R424). -/
def activateRow (s : State) (ch burst : Nat) : State :=
  let bank := dramBank burst
  let row := dramRow burst
  let limit := s.policy.rhThreshold
  modDc s ch fun d =>
    let due := (d.pendingRefresh.filter fun p => decide (p.1 = bank)).length
    let l := countActivate (tget [] d.rh bank) row
    let hit := l.any fun e => decide (e.row = row) && decide (limit ≤ e.cnt)
    let cand : List Int := [(row : Int) - 2, (row : Int) - 1, (row : Int) + 1, (row : Int) + 2]
    let near : List Nat := (cand.filter fun (r : Int) => decide (0 ≤ r) && decide (r < (rowsOf d.density : Int))).map Int.toNat
    let l' := if hit then l.map fun e => if e.row = row then { e with cnt := lowestOther l row } else e else l
    let rest := d.pendingRefresh.filter fun p => decide (p.1 ≠ bank)
    { d with targeted := satAdd 65535 d.targeted due, rh := tput [] d.rh bank l', pendingRefresh := if hit then rest ++ [(bank, near)] else rest }

/-! ### Meanings -/

/-- The address of a request. -/
def reqAddr (r : DramReq) : Nat :=
  match r with
  | .read a => a
  | .write a _ => a

/-- Issue the request at the head of the queue, which the DC does strictly in order (R420). -/
def issueRequest (s : State) (ch : Nat) (seen : EccSeen) (activates : Bool) : State :=
  match (getDc s ch).queue with
  | [] => s
  | r :: rest =>
    let burst := (dramMap s.image.board.dramChannels (reqAddr r)).2.1
    let s := modDc s ch fun d =>
      let l := d.retryBuf ++ [r]
      { d with queue := rest, retryBuf := l.drop (l.length - 64) }
    let s := if activates then activateRow s ch burst else s
    match r with
    | .read _ => dramRead s ch burst seen
    | .write _ bs => dramWrite s ch burst bs seen

/-- DRAM_REQUEST (R420): arrivals enter the queue of 64 in order, those that find it full being turned away (DESIGN CHOICE, log entry
91), and the next request is issued while the DC is ACTIVE. A replay that no alert has broken ends before the request (R427, R428;
DESIGN CHOICE, log entry 16). -/
def dramRequestNext (s : State) (ch : Nat) (arrivals : List DramReq) (seen : EccSeen) (activates : Bool) : State :=
  let s := modDc s ch fun d => { d with
    queue := (d.queue ++ arrivals).take 64
    st := if d.st = .replay ∧ !d.alerting then .active else d.st
    run := if d.st = .replay ∧ !d.alerting then 0 else d.run }
  if (getDc s ch).st = .active ∧ dcOn s ch then issueRequest s ch seen activates else s

def execDramRequest (ch : Nat) (arrivals : List DramReq) (seen : EccSeen) (activates : Bool) (s : State) :
    Host.Outcome State Fault Refusal := .next (dramRequestNext s ch arrivals seen activates)

/-- An interval, halved while MR4 reports more than 85 °C (R423). -/
def whileHot (d : Dc) (t : Nat) : Nat := if d.hot then t / 2 else t

/-- tREFI in ns: the image's clock cycles for the point in effect, at 1,600 or 800 MHz (R419, R423, R586). -/
def refreshNs (s : State) (d : Dc) : Nat :=
  whileHot d (if d.point3200 then nth 0 s.image.dram.set3200 15 * 5 / 4 else nth 0 s.image.dram.set6400 15 * 5 / 8)

/-- The next refresh is due (R423). -/
def refreshDue (s : State) (d : Dc) : Bool := d.refreshAt.elim true fun t => decide (refreshNs s d ≤ 1000 * (s.now - t))

/-- DRAM_REFRESH (R423): a refresh is issued once tREFI has passed; the devices' MR4 says how long the next interval is. -/
def refreshDram (s : State) (ch : Nat) (hot : Bool) : State :=
  if refreshDue s (getDc s ch) then modDc s ch fun d => { d with refreshes := d.refreshes + 1, refreshAt := some s.now, hot := hot } else s

def execDramRefresh (ch : Nat) (hot : Bool) (s : State) : Host.Outcome State Fault Refusal := .next (refreshDram s ch hot)

/-- The refresh window, tREFW, has passed; its timer runs on through self-refresh (R423, R424). -/
def rhWindowOver (s : State) (d : Dc) : Bool := elapsed s d.windowAt (whileHot d (s.image.dram.tRefw * 1000))

/-- REFRESH_WINDOW_START (R424): every table is cleared. -/
def newRefreshWindow (s : State) (ch : Nat) : State :=
  if rhWindowOver s (getDc s ch) then modDc s ch fun d => { d with rh := [], windowAt := s.now } else s

def execRefreshWindowStart (ch : Nat) (s : State) : Host.Outcome State Fault Refusal := .next (newRefreshWindow s ch)

/-- Bursts of a channel. -/
def chanBursts (s : State) : Nat := chanBytes s.image.dram.density / 64

/-- DRAM_PATROL_SCRUB (R443): the next burst is read; corrected data is written back, and a burst corrected on its previous
visit too is remapped (R444). -/
def patrolScrub (s : State) (ch : Nat) (seen : EccSeen) : State :=
  if (getDc s ch).st ≠ .active then s
  else
    let burst := (getDc s ch).scrubPos
    let b := tget {} (getDc s ch).mem burst
    let s := noteSeen s ch burst seen
    let s := match burstSeen b seen with
      | .corrected _ =>
        let again := decide (burst ∈ (getDc s ch).correctedLast)
        let s := modDc s ch fun d => { d with
          mem := tput {} d.mem burst { b with flaw := 0 }, rewrites := satAdd 65535 d.rewrites 1, correctedLast := addOnce burst d.correctedLast }
        if again then installRemap s ch burst else s
      | _ => modDc s ch fun d => { d with correctedLast := d.correctedLast.filter (· ≠ burst) }
    modDc s ch fun d =>
      if burst + 1 < chanBursts s then { d with scrubPos := burst + 1 } else { d with scrubPos := 0, passes := satAdd 65535 d.passes 1 }

def execDramPatrolScrub (ch : Nat) (seen : EccSeen) (s : State) : Host.Outcome State Fault Refusal := .next (patrolScrub s ch seen)

/-- dram_ce_thresh bursts have been corrected within one second (R448). -/
def ceRateReached (s : State) (ch : Nat) : Bool :=
  decide (s.policy.dramCeThresh ≤ ((getDc s ch).ceTimes.filter fun t => decide (s.now < t + 1000000)).length)

/-- ECC_CE_RATE (R448): the source fires, and counting begins anew. -/
def ceRateFires (s : State) (ch : Nat) : State :=
  if ceRateReached s ch then fire (modDc s ch fun d => { d with ceTimes := [] }) (dcSource ch 0) else s

def execEccCeRate (ch : Nat) (s : State) : Host.Outcome State Fault Refusal := .next (ceRateFires s ch)

/-- ALERT_N_ASSERT (R427, R428): the DC stops and CA_ALERT fires; an alert before a replay has ended fails it, and the third
failure in a row fires CA_RETRY_FAIL. -/
def alertAsserts (s : State) (ch : Nat) : State :=
  let d := getDc s ch
  if d.st ≠ .active ∧ d.st ≠ .replay then s
  else
    let failed := decide (d.st = .replay) && !d.alerting
    let third := failed && decide (2 ≤ d.run)
    let s := modDc s ch fun x => { x with
      st := .replay, alerting := true, alerts := satAdd 65535 x.alerts 1
      failedReplays := if failed then satAdd 255 x.failedReplays 1 else x.failedReplays
      run := if third then 0 else if failed then x.run + 1 else x.run }
    let s := fire s (dcSource ch 3)
    if third then fire s (dcSource ch 4) else s

def execAlertNAssert (ch : Nat) (s : State) : Host.Outcome State Fault Refusal := .next (alertAsserts s ch)

/-- ALERT_N_DEASSERT (R427): parity errors are cleared, banks precharged and the retry buffer replayed. Replayed writes store
the same data again, so memory stays as it is. -/
def alertDeasserts (s : State) (ch : Nat) : State := modDc s ch fun d => { d with alerting := false }

def execAlertNDeassert (ch : Nat) (s : State) : Host.Outcome State Fault Refusal := .next (alertDeasserts s ch)

/-- The point that PS3, PS4 and the housekeeping unit ask for together (R92, R431, R486, R489); a flush asks for 6,400 MT/s (R487). -/
def wantedPoint (s : State) : Bool :=
  decide (s.journal.pls ≠ 2) && (s.hk.want3200 || decide (3 ≤ s.misc.drivePs) && s.misc.psExiting.isNone)

/-- FREQUENCY_CHANGE (R432): the change to the wanted point, of every enabled channel together; a point never trained is
trained on its first entry, and a failure leaves 6,400 MT/s in effect and 3,200 MT/s unusable. -/
def changeFrequency (s : State) (failing : List Nat) : State :=
  let on := (List.range 4).filter fun n => dcOn s n && decide ((getDc s n).st = .active)
  let want := wantedPoint s
  if on.isEmpty ∨ on.all (fun n => decide ((getDc s n).point3200 = want)) ∨ (want ∧ on.any fun n => (getDc s n).unusable3200) then s
  else
    let bad := on.filter fun n => decide (n ∈ failing) && want && !(getDc s n).trained3200
    let s := on.foldl (fun s n => modDc s n fun d =>
      { d with point3200 := want && bad.isEmpty, trained3200 := d.trained3200 || (want && bad.isEmpty), unusable3200 := d.unusable3200 || !bad.isEmpty }) s
    fireAll s (bad.map fun n => { source := dcSource n 5, detail := 0, injected := false })

def execFrequencyChange (failing : List Nat) (s : State) : Host.Outcome State Fault Refusal := .next (changeFrequency s failing)

/-- TRAINING_STEP (R431): periodic retraining at the current point; a failed check fires TRAIN_FAIL. -/
def trainStep (s : State) (ch : Nat) (passes : Bool) : State := if passes then s else fire s (dcSource ch 5)

def execTrainingStep (ch : Nat) (passes : Bool) (s : State) : Host.Outcome State Fault Refusal := .next (trainStep s ch passes)

end Sys2Proof.Machine
end

