-- ==== Sys2Proof/Machine/AdminOps.lean ====
section
/-! DEFINITION. How an admin command is admitted: the controller must be ready (R565, R566), SAFE and recovery restrict it
(R525, R566, R573), a handover holds it (R117), ownership refuses it (R99), and a Sanitize under way refuses it (R634). -/
namespace Sys2Proof.Machine

/-- Classes of admin commands, by what restricts them. -/
inductive AdminClass where
  /-- Identify and Get Log Page: executed in SAFE too (R525). -/
  | report
  /-- Commands of R566's list and the observer's rights (R99). -/
  | free
  /-- Set Features of a controller's own feature (R99). -/
  | ownSet
  /-- Any other Set Features (R99). -/
  | driveSet
  /-- Format NVM, Sanitize, Namespace Management and Attachment, firmware commands, Device Self-test (R99). -/
  | drive
  /-- Commands that neither R99 nor R566 lists. -/
  | other
  deriving DecidableEq, Repr

/-- Admin command slots of a port that are taken (R69): Asynchronous Event Requests, commands that a handover holds, repeats held
during a handover, and the Claim, commit or activation of the port that has not completed. -/
def adminSlots (s : State) (p : PortId) : Nat :=
  let pt := s.port p
  let claim := s.own.claim.elim false fun c => decide (c.port = p) && c.cid.isSome
  let commit := s.commit.elim false fun c => decide (c.port = p) && c.cid.isSome
  let act := s.activation.elim false fun a => decide (a.port = p) && a.cid.isSome
  pt.aers.length + pt.heldAdmin.length + pt.heldRepeats.length + b2n claim + b2n commit + b2n act

/-- The port's controller takes admin commands: it is enabled and ready, its link is clocked (R30), one of its 16 admin slots is free
(R69), and nothing has stopped its fetching but SAFE (R163, R382, R499, R525, R565, R568). -/
def adminLive (s : State) (p : PortId) : Bool :=
  decide (p ∈ ports s) && (s.port p).ccEn && (s.port p).rdy && ((s.port p).fetching || s.fh.latch) && (s.port p).refclk
    && decide (adminSlots s p < 16)

/-- A Sanitize is in progress (R634, R635). -/
def sanitizing (s : State) : Bool := decide (s.sec.sanitize ≠ .none)

/-- Hold a drive-changing admin command during a handover (R117). -/
def holdAdmin (s : State) (p : PortId) (i : Instr) : State := s.onPort p fun pt => { pt with heldAdmin := pt.heldAdmin ++ [i] }

/-- Ownership and progress checks of a command that changes the drive (R99, R117, R634). -/
def driveCmd (s : State) (a : AdminId) (isSet : Bool) (i : Instr) (go : State → State) : State :=
  if s.own.phase = .handover then holdAdmin s a.port i
  else if !isOwner s a.port then adminDone s a (if isSet then .nsWriteProtected else .ownershipNotHeld)
  else if !isSet && sanitizing s then adminDone s a .sanitizeInProgress
  else go s

/-- An admin command whose data pointer is an SGL completes with SGL Descriptor Type Invalid (R72). -/
def prpOnly (s : State) (a : AdminId) (go : State → State) : State := if a.ptr = .prp then go s else adminDone s a .sglTypeInvalid

/-- Admit an admin command and run it (R72, R99, R117, R525, R566). A command to a controller that is not ready is not fetched. -/
def adminCmd (s : State) (a : AdminId) (k : AdminClass) (i : Instr) (go : State → State) : State :=
  if !adminLive s a.port then s
  else if s.fh.latch then (if k = .report then prpOnly s a go else refuseInSafe s a)
  else if s.run = .recovery && decide (k ≠ .report) && decide (k ≠ .free) then adminDone s a .commandSequenceError
  else prpOnly s a fun s => match k with
    | .drive => driveCmd s a false i go
    | .driveSet => driveCmd s a true i go
    | _ => go s

/-- The data an admin command returns to the host. -/
def answerData (s : State) (p : PortId) (bs : List Byte) : State := s.onPort p fun pt => { pt with hostData := bs }

end Sys2Proof.Machine
end

