-- ==== Sys2Proof/Machine/Features.lean ====
section
/-! DEFINITION. What an admin command reads or sets: Identify (R67, R79, R80, R82, R92, R573), Get and Set Features (R78, R79,
R84, R85, R94, R99, R352, R484, R619), Device Self-test and the Identify directive (R78). Bytes that the spec leaves to the
NVMe base specification are free values (Config.stdByte); the places of the fields it names are that specification's
(log entry 3). -/
namespace Sys2Proof.Machine

/-! ### Building a data structure -/

/-- A structure of `n` bytes: the given pieces (offset and bytes), and a default for every other byte. -/
def patched (n : Nat) (other : Nat → Byte) (ps : List (Nat × List Byte)) : List Byte :=
  (List.range n).map fun i =>
    match ps.find? fun x => x.1 ≤ i ∧ i < x.1 + x.2.length with
    | some x => nth 0 x.2 (i - x.1)
    | none => other i

/-- Text of a fixed length, padded with spaces. -/
def padded (n : Nat) (bs : List Byte) : List Byte := (bs ++ List.replicate n 0x20).take n

/-- A structure of free standard bytes: its number and the controller. -/
def stdBytes (k : Nat) (p : PortId) : Nat → Byte := Config.stdByte k p.toNat

/-! ### Controller registers and Identify -/

/-- The capabilities of R67 in the places of the base specification's CAP register (log entry 3): MQES, CQR, AMS, TO, DSTRD, NSSRS, CSS,
MPSMIN, MPSMAX, PMRS and CMBS. -/
def capValue : Nat := 0x0FFF + 2 ^ 16 + 2 ^ 17 + 60 * 2 ^ 24 + 0 * 2 ^ 32 + 2 ^ 36 + 2 ^ 37 + 0 * 2 ^ 48 + 4 * 2 ^ 52 + 0 * 2 ^ 56 + 0 * 2 ^ 57

/-- Entries that an admin queue may have (R67). -/
def adminEntriesOk (n : Nat) : Bool := decide (2 ≤ n) && decide (n ≤ 256)

/-- What lies in BAR0 of a function (R66). -/
inductive Bar0Region where
  | nvmeRegisters
  | doorbells
  | msixTable
  | msixPba
  | reserved
  deriving DecidableEq, Repr

/-- The region of an offset in BAR0 (R66). -/
def bar0Region (o : Nat) : Bar0Region :=
  if o ≤ 0x0FFF then .nvmeRegisters else if o ≤ 0x1407 then .doorbells
  else if 0x2000 ≤ o ∧ o ≤ 0x281F then .msixTable else if 0x3000 ≤ o ∧ o ≤ 0x3017 then .msixPba else .reserved

/-- The doorbell at an offset of BAR0: its queue, and whether it is a completion queue's head (R66, stride 4 bytes). -/
def bar0Doorbell (o : Nat) : Nat × Bool := ((o - 0x1000) / 8, decide ((o - 0x1000) / 4 % 2 = 1))

/-! ### Identify -/

/-- CNTLID of a port (R53). -/
def cntlid (p : PortId) : Nat := p.toNat + 1

/-- Bytes of capacity not allocated to a namespace (R177). -/
def unallocated (s : State) : Nat := (driveSegs s - (s.path.spaces.map fun n => n.segs.length).sum) * 1073741824

/-- One power state descriptor: non-operational flag and latencies (R92); the maximum power is the image's, whose sections the
spec gives no place for it, so it stays a free byte. -/
def powerDesc (i nops enlat exlat : Nat) : List (Nat × List Byte) :=
  [(2048 + 32 * i + 3, leBytes 1 (nops * 2)), (2048 + 32 * i + 4, leBytes 4 enlat), (2048 + 32 * i + 8, leBytes 4 exlat)]

/-- Identify Controller (R53, R67, R79, R80, R82, R83, R90, R92, R163, R483, R572, R587, R597, R633). -/
def identifyController (s : State) (p : PortId) : List Byte :=
  let i := hostIdentity s
  patched 4096 (stdBytes 1 p)
    ([(0, leBytes 2 i.vid), (2, leBytes 2 i.ssvid), (4, padded 20 i.serial), (24, padded 40 i.model), (64, padded 8 i.fr)
      , (73, leBytes 3 i.ieee), (77, [9]), (78, leBytes 2 (cntlid p)), (258, [7]), (259, [7]), (260, [0x14]), (262, [63]), (263, [4])
      , (266, leBytes 2 343), (268, leBytes 2 358), (270, leBytes 2 1), (280, leBytes 16 i.userCapacity)
      , (296, leBytes 16 (unallocated s)), (319, [1]), (328, leBytes 4 3), (340, leBytes 2 1), (342, [10]), (344, leBytes 4 1), (348, leBytes 4 1)
      , (516, leBytes 4 32), (524, [4]), (525, [1]), (526, leBytes 2 (subsPerIu s - 1)), (528, leBytes 2 (subsPerIu s - 1))
      , (768, (i.subnqn ++ List.replicate 256 0).take 256)]
      ++ powerDesc 0 0 0 0 ++ powerDesc 1 0 4000 50 ++ powerDesc 2 0 4000 50 ++ powerDesc 3 1 6000 1000 ++ powerDesc 4 1 50000 5000)

/-- Identify Namespace (R67, R80, R83, R173, R185). -/
def identifyNamespace (s : State) (p : PortId) (n : Namespace) : List Byte :=
  patched 4096 (stdBytes 0 p)
    [(0, leBytes 8 n.nsze), (8, leBytes 8 n.nsze), (25, [1]), (26, leBytes 1 n.flbas), (28, [0]), (29, [0]), (33, [0x09])
    , (34, leBytes 2 (lbasPerIu s n - 1)), (36, leBytes 2 (lbasPerIu s n - 1)), (92, leBytes 4 1), (102, leBytes 2 1)
    , (128, [0, 0, 12, 0]), (132, [0, 0, 9, 3])]

/-- A list of namespace identifiers above a given one, padded with zeros. -/
def nsList (ns : List Namespace) (above : Nat) : List Byte :=
  let ids := ((ns.map (·.nsid)).filter fun i => decide (above < i)).foldr addRising []
  ((ids.flatMap fun i => leBytes 4 i) ++ List.replicate 4096 0).take 4096

/-- A controller list: its length and the identifiers (R53). -/
def ctrlList (ids : List Nat) : List Byte := ((leBytes 2 ids.length ++ ids.flatMap fun i => leBytes 2 i) ++ List.replicate 4096 0).take 4096

/-- Identifiers of the enabled controllers. -/
def allCtrls (s : State) : List Nat := (ports s).map cntlid

/-- What Identify answers: data, or a status (R573 for the boot ROM; inactive namespaces answer zeros). The Endurance Group List (CNS 19h)
names the one group, identifier 1 (R83), where the identifier it starts from, carried in `nsid`, is no higher. -/
def identifyAnswer (s : State) (p : PortId) (cns nsid : Nat) : List Byte ⊕ Status :=
  let zeros : List Byte := List.replicate 4096 0
  if s.boot.romServes then
    (if cns = 1 then .inl (identifyController s p) else if cns = 0 ∨ cns = 2 then .inl zeros else .inr .invalidField)
  else if cns = 1 then .inl (identifyController s p)
  else if cns = 0 ∨ cns = 0x11 then
    (if nsid = 0 ∨ (32 < nsid ∧ nsid ≠ 0xFFFFFFFF) then .inr .invalidNamespace
     else match findNs s nsid with
      | some n => if n.attached ∨ cns = 0x11 then .inl (identifyNamespace s p n) else .inl zeros
      | none => .inl zeros)
  else if cns = 2 then .inl (nsList (s.path.spaces.filter (·.attached)) nsid)
  else if cns = 0x10 then .inl (nsList s.path.spaces nsid)
  else if cns = 0x12 then .inl (ctrlList ((findNs s nsid).elim [] fun n => if n.attached then allCtrls s else []))
  else if cns = 0x13 then .inl (ctrlList (allCtrls s))
  else if cns = 0x19 then .inl (ctrlList (if nsid ≤ 1 then [1] else []))
  else if cns = 3 ∨ cns = 5 ∨ cns = 6 ∨ cns = 8 ∨ cns = 0x1C then .inl (patched 4096 (stdBytes (0x100 + cns) p) [])
  else .inr .invalidField

/-- Complete a command that returns data, or a status. -/
def answerWith (s : State) (a : AdminId) (r : List Byte ⊕ Status) : State :=
  match r with
  | .inl bs => adminDone (answerData s a.port bs) a .success
  | .inr st => adminDone s a st

def runIdentify (a : AdminId) (cns nsid : Nat) (s : State) : State := answerWith s a (identifyAnswer s a.port cns nsid)

def execIdentify (a : AdminId) (cns nsid : Nat) (s : State) : Host.Outcome State Fault Refusal :=
  .next (adminCmd s a .report (.identify a cns nsid) (runIdentify a cns nsid))

/-! ### Features -/

/-- Features of a controller's own that have no row of their own (R99). -/
def ownFeature (fid : Nat) : Bool := decide (fid ∈ [0x01, 0x07, 0x08, 0x09, 0x0C])

/-- Drive-wide features without a row of their own: Temperature Threshold, Error Recovery, Write Atomicity Normal, and the FDP
Events feature that R88 presupposes, whose bit n stands for event n of R88's list (log entry 31). -/
def driveFeature (fid : Nat) : Bool := decide (fid ∈ [0x04, 0x05, 0x0A, 0x1E])

/-- What a drive-wide feature reads before a host has set it: the Temperature Threshold the warning temperature of Identify, the others 0
(base specification, log entry 3). -/
def featureDefault (fid : Nat) : Nat := if fid = 4 then 343 else 0

/-- DW0 of Get Features (R78, R79, R84, R95). none: not supported. -/
def featureDw0 (s : State) (p : PortId) (fid : Nat) : Option (BitVec 32) :=
  let pt := s.port p
  if fid = 0x02 then some (BitVec.ofNat 32 pt.selPs)
  else if fid = 0x06 then some (if s.path.vwcOff then 0 else 1)
  else if fid = 0x07 then some 0x007F007F
  else if fid = 0x0B then some pt.asyncCfg
  else if fid = 0x0E then some 0
  else if fid = 0x10 then some (BitVec.ofNat 32 (s.hk.tmt1 * 65536 + s.hk.tmt2))
  else if fid = 0x1D then some (if s.path.fdp then 1 else 0)
  else if ownFeature fid then some (BitVec.ofNat 32 (tget 0 pt.features fid))
  else if driveFeature fid then some (BitVec.ofNat 32 (tget (featureDefault fid) s.misc.features fid))
  else none

/-- GET_FEATURES (R78). The Timestamp comes as data. -/
def runGetFeatures (a : AdminId) (fid : Nat) (s : State) : State :=
  match featureDw0 s a.port fid with
  | none => adminDone s a .invalidField
  | some d =>
    let s := if fid = 0x0E then answerData s a.port (leBytes 8 (hostStamp s)) else s
    adminDone s a .success d

def execGetFeatures (a : AdminId) (fid : Nat) (s : State) : Host.Outcome State Fault Refusal :=
  .next (adminCmd s a .free (.getFeatures a fid) (runGetFeatures a fid))

/-- Set the port's power-state selection; the drive takes the state that R95 derives (R94, R95). -/
def setPower (a : AdminId) (ps : Nat) (s : State) : State :=
  if 5 ≤ ps then adminDone s a .invalidField
  else adminDone (takePs (s.onPort a.port fun p => { p with selPs := ps, lastOpPs := if ps < 3 then ps else p.lastOpPs })) a .success

/-- Disabling the volatile write cache makes every Write behave as FUA (R79). -/
def setCache (a : AdminId) (on : Bool) (s : State) : State := adminDone (s.onPath fun p => { p with vwcOff := !on }) a .success

/-- TMT1 and TMT2, used from the next round on (R484). -/
def setThermal (a : AdminId) (t1 t2 : Nat) (s : State) : State :=
  if t1 ≠ 0 ∧ t2 ≠ 0 ∧ t2 ≤ t1 then adminDone s a .invalidField
  else adminDone (s.onHk fun h => { h with tmt1 := t1, tmt2 := t2 }) a .success

/-- Notices enabled on the controller (R81, R619). -/
def setAsync (a : AdminId) (v : BitVec 32) (s : State) : State := adminDone (s.onPort a.port fun p => { p with asyncCfg := v }) a .success

/-- The host timestamp (R352). -/
def setStamp (a : AdminId) (ms : Nat) (s : State) : State :=
  adminDone (s.onPath fun p => { p with timestamp := ms, timestampAt := some s.now }) a .success

/-- FDP changes only while the endurance group holds no namespace, and is journalled in the anchor (R84, R85). -/
def setFdp (a : AdminId) (on : Bool) (s : State) : State :=
  if !s.path.spaces.isEmpty then adminDone s a .commandSequenceError
  else adminDone (putAnchor (s.onPath fun p => { p with fdp := on }) fun x => { x with fdp := on }) a .success

/-- Number of Queues: 128 of each are allocated; it cannot change once an I/O queue exists (R67; base specification, log entry
3). -/
def setQueues (a : AdminId) (v : Nat) (s : State) : State :=
  let pt := s.port a.port
  if v % 65536 = 65535 ∨ v / 65536 = 65535 then adminDone s a .invalidField
  else if !pt.sqs.isEmpty ∨ !pt.cqs.isEmpty then adminDone s a .commandSequenceError
  else adminDone (s.onPort a.port fun p => { p with features := tput 0 p.features 7 v }) a .success 0x007F007F

/-- SET_FEATURES (R99): a feature without a row of its own, and any identifier that is not supported. Those with a row of their
own act as that row does. -/
def runSetFeatures (a : AdminId) (fid value : Nat) (s : State) : State :=
  if fid = 0x02 then setPower a (value % 32) s
  else if fid = 0x06 then setCache a (decide (value % 2 = 1)) s
  else if fid = 0x07 then setQueues a value s
  else if fid = 0x0B then setAsync a (BitVec.ofNat 32 value) s
  else if fid = 0x0E then setStamp a value s
  else if fid = 0x10 then setThermal a (value / 65536) (value % 65536) s
  else if fid = 0x1D then setFdp a (decide (value % 2 = 1)) s
  else if ownFeature fid then adminDone (s.onPort a.port fun p => { p with features := tput 0 p.features fid value }) a .success
  else if driveFeature fid then adminDone (s.onMisc fun m => { m with features := tput 0 m.features fid value }) a .success
  else adminDone s a .invalidField

/-- The class of a Set Features by its identifier (R99). -/
def setClass (fid : Nat) : AdminClass := if ownFeature fid || decide (fid = 0x02) || decide (fid = 0x0B) then .ownSet else .driveSet

def execSetFeatures (a : AdminId) (fid value : Nat) (s : State) : Host.Outcome State Fault Refusal :=
  .next (adminCmd s a (setClass fid) (.setFeatures a fid value) (runSetFeatures a fid value))

def execSetFeaturesFdp (a : AdminId) (enable : Bool) (s : State) : Host.Outcome State Fault Refusal :=
  .next (adminCmd s a .driveSet (.setFeaturesFdp a enable) (setFdp a enable))

def execSetFeaturesPowerManagement (a : AdminId) (ps : Nat) (s : State) : Host.Outcome State Fault Refusal :=
  .next (adminCmd s a .ownSet (.setFeaturesPowerManagement a ps) (setPower a ps))

def execSetFeaturesVwc (a : AdminId) (enable : Bool) (s : State) : Host.Outcome State Fault Refusal :=
  .next (adminCmd s a .driveSet (.setFeaturesVwc a enable) (setCache a enable))

def execSetFeaturesHctm (a : AdminId) (tmt1 tmt2 : Nat) (s : State) : Host.Outcome State Fault Refusal :=
  .next (adminCmd s a .driveSet (.setFeaturesHctm a tmt1 tmt2) (setThermal a tmt1 tmt2))

def execSetFeaturesAsyncEvent (a : AdminId) (value : BitVec 32) (s : State) : Host.Outcome State Fault Refusal :=
  .next (adminCmd s a .ownSet (.setFeaturesAsyncEvent a value) (setAsync a value))

def execSetFeaturesTimestamp (a : AdminId) (ms : Nat) (s : State) : Host.Outcome State Fault Refusal :=
  .next (adminCmd s a .driveSet (.setFeaturesTimestamp a ms) (setStamp a ms))

/-! ### Self-test and directives -/

/-- DEVICE_SELF_TEST (R78): the short test runs within the command; the extended test is not supported, and there is nothing to
abort. -/
def runSelfTest (a : AdminId) (stc : Nat) (s : State) : State :=
  if stc = 1 then adminDone (s.onMisc fun m => { m with selfTests := m.selfTests + 1 }) a .success
  else if stc = 0xF then adminDone s a .success
  else adminDone s a .invalidField

def execDeviceSelfTest (a : AdminId) (stc : Nat) (s : State) : Host.Outcome State Fault Refusal :=
  .next (adminCmd s a .drive (.deviceSelfTest a stc) (runSelfTest a stc))

/-- DIRECTIVE_SEND (R78): the Identify directive only. -/
def sendDirective (a : AdminId) (dtype : Nat) (s : State) : State := adminDone s a (if dtype = 0 then .success else .invalidField)

def execDirectiveSend (a : AdminId) (dtype : Nat) (s : State) : Host.Outcome State Fault Refusal :=
  .next (adminCmd s a .other (.directiveSend a dtype) (sendDirective a dtype))

/-- DIRECTIVE_RECEIVE (R78): the Identify directive's parameters: Identify is supported and enabled, Streams is not, and Data
Placement is as FDP is (R86). -/
def receiveDirective (a : AdminId) (dtype : Nat) (s : State) : State :=
  if dtype = 0 then
    let on : Byte := if s.path.fdp then 5 else 1
    adminDone (answerData s a.port (patched 4096 (fun _ => 0) [(0, [5]), (32, [on])])) a .success
  else adminDone s a .invalidField

def execDirectiveReceive (a : AdminId) (dtype : Nat) (s : State) : Host.Outcome State Fault Refusal :=
  .next (adminCmd s a .other (.directiveReceive a dtype) (receiveDirective a dtype))

end Sys2Proof.Machine
end

