-- ==== Sys2Proof/Machine/ImageOps.lean ====
section
/-! DEFINITION. The configuration image: reading a copy (R576 to R589), the checks of R590 with their reason codes (R592), and
the selection records (R577). -/
namespace Sys2Proof.Machine

/-! ### Fields of a byte string -/

/-- Bytes o to o + n − 1. -/
def cut (b : List Byte) (o n : Nat) : List Byte := (b.drop o).take n

/-- Little-endian number of n bytes at an offset (R11). -/
def num (b : List Byte) (o n : Nat) : Nat := leNat (cut b o n)

/-- Signed byte at an offset. -/
def snum (b : List Byte) (o : Nat) : Int := byteInt (nth 0 b o)

/-- Every byte of a range is zero. -/
def zeroAt (b : List Byte) (o n : Nat) : Bool := (cut b o n).all fun x => decide (x = 0)

/-- A number lies within bounds. -/
def within (lo hi x : Nat) : Bool := decide (lo ≤ x) && decide (x ≤ hi)

/-! ### The OTP row -/

/-- A byte of the OTP row. -/
def otpByte (s : State) (a : Nat) : Byte := memGet 0 s.sec.otp a

/-- Bytes of the OTP row. -/
def otpBytes (s : State) (a n : Nat) : List Byte := memRead 0 s.sec.otp a n

/-- Bitwise majority of three bytes (R621). -/
def majority (a b c : Byte) : Byte := (a &&& b) ||| (a &&& c) ||| (b &&& c)

/-- Lifecycle byte by majority (R621, R625). -/
def lifecycleOf (s : State) : Byte := majority (otpByte s 160) (otpByte s 161) (otpByte s 162)

/-- The thermometer sec_floor by majority, as a number (R621). -/
def floorBits (s : State) : Nat :=
  leNat ((List.range 32).map fun i => majority (otpByte s (168 + i)) (otpByte s (200 + i)) (otpByte s (232 + i)))

/-- Number of bits set from bit 0 upwards, up to n. -/
def lowOnes : Nat → Nat → Nat
  | 0, _ => 0
  | n + 1, x => if x % 2 = 1 then 1 + lowOnes n (x / 2) else 0

/-- The floor (R623): the bits set, counted from bit 0 of the first byte. -/
def floorOf (s : State) : Nat := lowOnes 256 (floorBits s)

/-- A trim curve of the OTP row passes its CRC-32C (R480, R620). A blank row fails it. -/
def curveOk (s : State) (a : Nat) : Bool := decide ((crc32c (otpBytes s a 32)).toNat = num (otpBytes s a 36) 32 4)

/-! ### Where a copy lies -/

/-- First address of a copy: 1 is A, 2 is B (R576). -/
def copyBase (c : Nat) : Nat := if c = 2 then 0x800000 else 0

/-- First address of a copy's selection record (R576). -/
def recordBase (c : Nat) : Nat := copyBase c + 0x7FF000

/-- Effective serial of a copy (R577). -/
def effSerial (s : State) (c : Nat) : Nat :=
  let r := memRead 0xFF s.spi (recordBase c) 32
  if cut r 0 8 = [0x59#8, 0x4D#8, 0x34#8, 0x36#8, 0x53#8, 0x45#8, 0x4C#8, 0#8] ∧ (crc32c (cut r 0 28)).toNat = num r 28 4 then
    num r 8 8 else 0

/-- The 32 bytes of a valid selection record (R577). -/
def selRecord (serial : Nat) : List Byte :=
  let b := [0x59#8, 0x4D#8, 0x34#8, 0x36#8, 0x53#8, 0x45#8, 0x4C#8, 0#8] ++ leBytes 8 serial ++ leBytes 12 0
  b ++ leBytes 4 (crc32c b).toNat

/-- The copy tried first (R594). -/
def firstCopy (s : State) : Nat := if effSerial s 1 < effSerial s 2 then 2 else 1

/-- A source of image bytes: offset from the header, and length. -/
abbrev Reader := Nat → Nat → List Byte

/-- A copy in the SPI NOR. -/
def spiReader (s : State) (c : Nat) : Reader := fun o n => memRead 0xFF s.spi (copyBase c + o) n

/-- The download buffer (R597). -/
def bufReader (s : State) : Reader := fun o n => memRead 0 s.dlBuf o n

/-! ### Sections -/

/-- Offset and length of a section (R579). -/
def sectionAt (r : Reader) (t : Nat) : Nat × Nat :=
  let e := r (64 + 64 * (t - 1)) 64
  (num e 4 4, num e 8 4)

/-- All bytes of a section, its header first. -/
def sectionBytes (r : Reader) (t : Nat) : List Byte := r (sectionAt r t).1 (sectionAt r t).2

/-- Body of a section (R580). -/
def body (r : Reader) (t : Nat) : List Byte := (sectionBytes r t).drop 16

/-- The hash of a section is that of its table entry (R579). -/
def hashOk (r : Reader) (t : Nat) : Bool := decide (sha384 (sectionBytes r t) = cut (r (64 + 64 * (t - 1)) 64) 16 48)

/-- body_length of the sections of fixed size (R580). -/
def fixedLen (t : Nat) : Option Nat :=
  match t with
  | 1 => some 512
  | 2 => some 400
  | 3 => some 48
  | 5 => some 132
  | 6 => some 612
  | 7 => some 128
  | 8 => some 320
  | _ => none

/-- body_length that a section's own fields give (R580). -/
def bodyLen (t : Nat) (b : List Byte) : Nat :=
  match fixedLen t with
  | some n => n
  | none => if t = 4 then 36 + 4 * num b 6 1 * num b 4 2 else 224 + num b 0 4 + num b 4 4

/-- A section header matches its table entry (R580, R590 check 7). -/
def secHeaderOk (r : Reader) (t : Nat) : Bool :=
  let s := sectionBytes r t
  decide (num s 0 1 = t) && decide (num s 1 1 = 1) && zeroAt s 2 2 && decide (num s 4 4 + 16 = (sectionAt r t).2) && zeroAt s 8 8
    && decide (num s 4 4 = bodyLen t (body r t))

/-- Structure of one section table entry, whose predecessor ended at `prev` (R579). -/
def entryOk (r : Reader) (t prev size : Nat) : Bool :=
  let e := r (64 + 64 * (t - 1)) 64
  let (o, l) := sectionAt r t
  decide (num e 0 1 = t) && zeroAt e 1 3 && zeroAt e 12 4 && decide (o % 4096 = 0) && decide (4096 ≤ o) && decide (prev ≤ o)
    && decide (o + l ≤ size) && (match fixedLen t with
      | some n => decide (l = 16 + n)
      | none => decide (16 ≤ l))

/-- Check 2 (R578 to R580). -/
def formatOk (r : Reader) : Bool :=
  let h := r 0 4096
  let size := num h 12 4
  decide (cut h 0 8 = [0x59#8, 0x4D#8, 0x34#8, 0x36#8, 0x30#8, 0x30#8, 0x49#8, 0x4D#8]) && decide (num h 8 2 = 1) && decide (num h 10 2 = 9)
    && decide (size % 4096 = 0) && decide (size ≤ 4194304) && zeroAt h 40 24 && zeroAt h 736 3232 && zeroAt h 4064 32
    && (List.range 9).all fun i =>
      let prev := if i = 0 then 4096 else (sectionAt r i).1 + (sectionAt r i).2
      entryOk r (i + 1) prev size

/-- Check 3 (R582, R625). -/
def keyOk (s : State) (r : Reader) : Bool :=
  let stored := otpBytes s 112 48
  (decide (lifecycleOf s = 1) && stored.all fun x => decide (x = 0)) || decide (sha384 (r 640 96) = stored)

/-- Check 4 (R581). -/
def signatureOk (r : Reader) : Bool := ecdsaOk (r 640 96) (r 0 3968) (r 3968 96)

/-- Checks 1 to 5 of a copy: its reason code, none where it passes (R590, R592, R623). -/
def checkHeader (s : State) (r : Reader) (answers : Bool) : Option Nat :=
  if !answers || (r 0 4096).all fun x => decide (x = 0xFF) then some 0x0100
  else if !formatOk r then some 0x0200
  else if !keyOk s r then some 0x0300
  else if !signatureOk r then some 0x0400
  else if !within (floorOf s) 256 (num (r 16 4) 0 4) then some 0x0500
  else none

/-- Check 6 (R590). -/
def checkIdentity (r : Reader) : Option Nat := if hashOk r 6 then none else some 0x0606

/-- Checks 7 of the sections, in offset order (R590). -/
def checkHashes (r : Reader) : Option Nat :=
  (List.range 9).findSome? fun i =>
    let t := i + 1
    if t ≠ 6 ∧ !hashOk r t then some (0x0600 + t) else if !secHeaderOk r t then some (0x0200 + t) else none

/-- Check 8: the vendor key and signature (R582, R589). -/
def checkVendor (s : State) (r : Reader) : Option Nat :=
  let b := body r 9
  let n := 32 + num b 0 4 + num b 4 4
  if sha384 (cut b n 96) ≠ otpBytes s 64 48 then some 0x0309
  else if !ecdsaOk (cut b n 96) (b.take n) (cut b (n + 96) 96) then some 0x0409
  else none

/-! ### Check 9: ranges and reserved fields -/

/-- A lane of dq_map holds each value 0 to 7 once. -/
def laneOk (l : List Byte) : Bool := (List.range 8).all fun v => decide ((l.filter fun x => decide (x.toNat = v)).length = 1)

/-- A temperature input entry (R583). -/
def inputOk (n : Nat) (e : List Byte) : Bool :=
  let role := num e 0 1
  if role = 0 then zeroAt e 0 16
  else
    decide (role ≤ 2) && zeroAt e 1 1 && zeroAt e 14 2 && (decide (role = 1) || zeroAt e 4 4)
      && (if n < 8 then within 10000 10500 (num e 2 2) && zeroAt e 8 6
          else zeroAt e 2 2 && within 4700 100000 (num e 8 4) && within 3000 4500 (num e 12 2))

def boardOk (b : List Byte) : Bool :=
  (decide (num b 4 1 = 2) || decide (num b 4 1 = 4)) && zeroAt b 5 3 && ((List.range 16).all fun n => inputOk n (cut b (8 + 16 * n) 16))
    && ((List.range (5 * num b 4 1)).all fun i => laneOk (cut b (264 + 8 * i) 8))
    && within 0 2 (num b 424 1) && within 0 5 (num b 425 1) && within 0 2 (num b 426 1) && within 0 3 (num b 427 1) && zeroAt b 428 84

/-- References of a native cell type (R275). -/
def nativeRefs (cellType : Nat) : Nat := if cellType = 1 then 7 else 15

/-- A reference entry (R584). -/
def refOk (n ppw k : Nat) (e : List Byte) : Bool :=
  if n ≤ k then zeroAt e 0 4
  else decide (num e 0 1 < ppw) && (decide (num e 1 1 = 1) || decide (num e 1 1 = 255)) && zeroAt e 3 1

def geometryOk (b : List Byte) : Bool :=
  let cell := num b 0 1
  let n := nativeRefs cell
  within 1 2 cell && within 1 4 (num b 1 1) && within 1 4 (num b 2 1) && within 1 8 (num b 3 1) && within 1 8 (num b 4 1)
    && within 3 4 (num b 5 1) && within 64 1024 (num b 8 2) && zeroAt b 10 2 && within 256 32768 (num b 12 4)
    && within 18432 20480 (num b 16 4) && within 100 100000 (num b 20 4) && zeroAt b 25 3 && decide (snum b 48 < snum b 49)
    && zeroAt b 51 1 && ((List.range 15).all fun k => refOk n (if cell = 1 then 3 else 4) k (cut b (52 + 4 * k) 4))
    && zeroAt b (112 + n) (15 - n) && zeroAt b 135 1 && within 0 16 (num b 140 1) && zeroAt b 141 3
    && (List.range 16).all fun i => zeroAt b (159 + 16 * i) 1

/-- A time of the timing section: within its range, or zero where the part does not have its mode (R222, R585). -/
def timeOk (has : Bool) (lo hi x : Nat) : Bool := if has then within lo hi x else decide (x = 0)

def timingOk (cell : Nat) (b : List Byte) : Bool :=
  let iface := num b 0 1
  let rate := num b 1 1
  let t := fun i => num b (4 + 2 * i) 2
  let tlc := decide (cell = 1)
  (if iface = 1 then within 1 4 rate else decide (iface = 2) && within 5 8 rate) && zeroAt b 2 2
    && within 10 500 (t 0) && timeOk tlc 10 500 (t 1) && timeOk (!tlc) 10 500 (t 2) && within 50 3500 (t 3) && timeOk tlc 200 3500 (t 4)
    && timeOk (!tlc) 200 3500 (t 5) && timeOk (!tlc) 200 3500 (t 6) && within 500 3500 (t 7) && within 10 500 (t 8) && within 10 3500 (t 9)
    && within 1 500 (num b 24 2) && within 1 500 (num b 26 2) && within 1 500 (num b 28 2) && within 1 140 (num b 30 2)
    && (List.range 8).all fun i => within 1 5000 (num b (32 + 2 * i) 2)

def ldpcOk (b : List Byte) : Bool :=
  decide (0 < num b 0 4) && within 144 160 (num b 4 2) && decide (num b 6 1 = 8) && decide (num b 7 1 = 15) && decide (num b 8 2 = 256)
    && within 4 40 (num b 10 1) && within 8 80 (num b 11 1) && within 1 16 (num b 12 1) && within 8 16 (num b 13 1) && zeroAt b 14 2
    && ((List.range 5).all fun i => within 1 7 (num b (16 + i) 1)) && zeroAt b 21 3
    && decide (num b 24 4 = num b 6 1 * num b 4 2) && zeroAt b 28 4
    && (List.range (2 * num b 24 4)).all fun i => decide (num b (32 + 2 * i) 2 < 256) || decide (num b (32 + 2 * i) 2 = 0xFFFF)

/-- A timing set: all zero, or every field non-zero (R586). -/
def setOk (b : List Byte) : Bool :=
  let l := (List.range 16).map fun i => num b (2 * i) 2
  (l.all (· = 0) || l.all (· ≠ 0)) && zeroAt b 32 32

def dramOk (b : List Byte) : Bool :=
  within 0 2 (num b 0 1) && within 16 64 (num b 1 1) && within 0 64 (num b 2 1) && zeroAt b 3 1 && setOk (cut b 4 64) && setOk (cut b 68 64)

def identityOk (b : List Byte) : Bool :=
  decide (num b 8 3 = 0x010802) && zeroAt b 83 1 && zeroAt b 92 4 && within 0 256 (num b 352 2) && zeroAt b 354 2
    && zeroAt b (356 + num b 352 2) (256 - num b 352 2)

/-- Ranges of R588: offset, size, lowest, highest value. Bounds that name another field belong to check 10. -/
def policyRanges : List (Nat × Nat × Nat × Nat) :=
  [(32, 2, 100, 60000), (34, 1, 1, 100), (35, 1, 0, 1), (36, 1, 0, 1), (37, 1, 1, 32), (38, 1, 0, 1), (39, 1, 0, 2), (40, 4, 0, 65536),
   (44, 4, 500, 100000), (48, 1, 25, 90), (49, 1, 10, 90), (50, 1, 2, 15), (51, 1, 0, 1), (52, 2, 0, 720), (54, 2, 0, 4096),
   (56, 1, 0, 64), (57, 1, 0, 16), (58, 2, 8, 1024), (60, 2, 100, 3000), (62, 1, 1, 64), (63, 1, 1, 10), (64, 2, 8, 256)]
  ++ [(66, 1, 1, 64), (67, 1, 1, 255), (68, 1, 1, 31), (69, 1, 10, 120), (70, 1, 0, 32), (71, 1, 0, 16), (72, 2, 200, 20000),
   (74, 2, 0, 256), (76, 1, 0, 16), (77, 1, 1, 90), (78, 1, 4, 40), (80, 2, 48, 1024), (82, 2, 48, 4096), (84, 2, 10, 10000),
   (86, 2, 50, 2000), (88, 2, 100, 1000), (92, 2, 48, 1024), (94, 2, 1, 65535), (96, 2, 0, 60000), (98, 2, 100, 10000)]
  ++ [(100, 1, 1, 20), (101, 1, 1, 255), (102, 1, 1, 8), (103, 1, 0, 1), (104, 2, 256, 16384), (106, 2, 1, 65535), (108, 1, 1, 168),
   (109, 1, 1, 10), (110, 2, 16, 65535), (112, 2, 10, 10000), (114, 2, 100, 60000), (116, 1, 4, 64), (118, 2, 100, 10000),
   (120, 2, 1000, 60000)]

def policyOk (b : List Byte) : Bool :=
  (policyRanges.all fun x => within x.2.2.1 x.2.2.2 (num b x.1 x.2.1))
    && (decide (num b 90 2 = 0) || within 100 1000 (num b 90 2)) && zeroAt b 79 1 && zeroAt b 117 1 && zeroAt b 122 6

def ucodeOk (b : List Byte) : Bool :=
  decide (num b 0 4 % 8 = 0) && decide (num b 0 4 ≤ 2097152) && decide (num b 4 4 % 8 = 0) && decide (num b 4 4 ≤ 1572864) && zeroAt b 16 16

/-- Check 9, section by section in type order (R590). -/
def checkRanges (r : Reader) : Option Nat :=
  if !boardOk (body r 1) then some 0x0701
  else if !geometryOk (body r 2) then some 0x0702
  else if !timingOk (num (body r 2) 0 1) (body r 3) then some 0x0703
  else if !ldpcOk (body r 4) then some 0x0704
  else if !dramOk (body r 5) then some 0x0705
  else if !identityOk (body r 6) then some 0x0706
  else if !policyOk (body r 7) then some 0x0707
  else if !ucodeOk (body r 9) then some 0x0709
  else none

/-! ### The typed image -/

def parseInput (e : List Byte) : BoardInput :=
  { role := num e 0 1, ideality := num e 2 2, channels := num e 4 4, r25 := num e 8 4, beta := num e 12 2 }

def parseBoard (b : List Byte) : Board :=
  { chanMask := num b 0 4, dramChannels := num b 4 1, inputs := (List.range 16).map fun n => parseInput (cut b (8 + 16 * n) 16)
    dqMap := (cut b 264 160).map (·.toNat), ddrDrive := num b 424 1, ddrOdt := num b 425 1, nandDrive := num b 426 1, nandOdt := num b 427 1 }

def parseGeometry (b : List Byte) : Geometry :=
  { cellType := num b 0 1, density := num b 1 1, targets := num b 2 1, diesPerTarget := num b 3 1, planes := num b 4 1, rowCycles := num b 5 1
    lunShift := num b 6 1, pageBits := num b 7 1, wordlines := num b 8 2, blocksPerDie := num b 12 4, pageBytes := num b 16 4, peRated := num b 20 4
    onfiMfr := num b 24 1, onfiModel := (cut b 28 20).map (·.toNat), vrefMin := snum b 48, vrefMax := snum b 49, eraseCheckOffset := snum b 50
    refs := (List.range 15).map fun k =>
      { page := num b (52 + 4 * k) 1, pol := if num b (53 + 4 * k) 1 = 255 then -1 else 1, tc := snum b (54 + 4 * k) }
    defQlc := (List.range 15).map fun k => snum b (112 + k)
    defTlc := (List.range 7).map fun k => snum b (127 + k)
    defSlc := snum b 134
    rltZone := (List.range 4).map fun k => snum b (136 + k)
    retryCount := num b 140 1
    retryTable := (List.range 16).map fun i => (List.range 15).map fun k => snum b (144 + 16 * i + k) }

def parseTiming (b : List Byte) : Timing :=
  let t := fun i => num b (4 + 2 * i) 2
  { iface := num b 0 1, rate := num b 1 1, tReadSlc := t 0, tReadTlc := t 1, tReadQlc := t 2, tProgSlc := t 3, tProgTlc := t 4
    tProgCoarse := t 5, tProgFine := t 6, tErase := t 7, tEsusp := t 8, tRst := t 9, pDieRead := num b 24 2, pDieProg := num b 26 2
    pDieErase := num b 28 2, pSlcProg := num b 30 2, onfi := (List.range 8).map fun i => num b (32 + 2 * i) 2 }

def parseLdpc (b : List Byte) : LdpcCode :=
  { codeId := num b 0 4, cols := num b 4 2, rows := num b 6 1, halfRows := num b 7 1, circ := num b 8 2, hardIterMax := num b 10 1
    softIterMax := num b 11 1, softDelta := num b 12 1, msScale := num b 13 1, llr1 := (cut b 16 2).map (·.toNat)
    llr2 := (cut b 18 3).map (·.toNat), entryCount := num b 24 4
    entries := (List.range (num b 24 4)).map fun i => (num b (32 + 4 * i) 2, num b (34 + 4 * i) 2) }

def parseSet (b : List Byte) : List Nat :=
  let l := (List.range 16).map fun i => num b (2 * i) 2
  if l.all (· = 0) then [] else l

def parseDram (b : List Byte) : DramSection :=
  { density := num b 0 1, tRefw := num b 1 1, tParAlert := num b 2 1, set6400 := parseSet (cut b 4 64), set3200 := parseSet (cut b 68 64) }

def parseIdentity (b : List Byte) : Identity :=
  { vid := num b 0 2, did := num b 2 2, ssvid := num b 4 2, ssid := num b 6 2, classCode := num b 8 3, revisionId := num b 11 1
    serial := cut b 12 20, model := cut b 32 40, fr := cut b 72 8, ieee := num b 80 3, userCapacity := num b 84 8, subnqn := cut b 96 256
    vpdLength := num b 352 2, vpd := cut b 356 256 }

def parsePolicy (b : List Byte) : Policy :=
  let n1 := fun o => num b o 1
  let n2 := fun o => num b o 2
  { takeoverKeyHash := BitVec.ofNat 256 (num b 0 32), takeoverHold := n2 32, handoverDrain := n1 34, ownTie := n1 35
    anaObserverState := n1 36, fdpRuhCount := n1 37, iuSize := n1 38, rebuildPriority := n1 39, admitFloat := num b 40 4
    sealPadDelay := num b 44 4, overlayFillLimit := n1 48, overlayFoldStart := n1 49, overlayFoldCount := n1 50, drydownAuto := n1 51
    ruActiveLimit := n2 52, cacheMax := n2 54, cacheFraction := n1 56, eraseSuspendMax := n1 57, placeFloor := n2 58
    eraseResumeMin := n2 60, eraseSuspendReads := n1 62, csResetLimit := n1 63, rltBatch := n2 64, rltThresh := n1 66, raFail := n1 67
    raIters := n1 68, raDeltaT := n1 69, raQueueMax := n1 70, retrySteps := n1 71, readRecoverBudget := n2 72, readaheadDepth := n2 74
    readaheadBuf := n1 76, scrubPeriod := n1 77, scrubRefreshIters := n1 78, gcUrgent := n2 80, gcBgTarget := n2 82, gcIdleMs := n2 84
    wearSpread := n2 86, peRetire := n2 88, preserveWear := n2 90, spareMin := n2 92, scrubSbRefresh := n2 94, holdupReadyMv := n2 96
    journalFlushMs := n2 98, pfDeglitch := n1 100, holdupRatio := n1 101, refugeDies := n1 102, dramTrainBoth := n1 103
    rhThreshold := n2 104, dramCeThresh := n2 106, dramScrubHours := n1 108, fhC3Limit := n1 109, dmHopLimit := n2 110
    dmBusTimeout := n2 112, fhLogInterval := n2 114, hkRoundMs := n1 116, throttleStepMs := n2 118, nandPowerBudget := n2 120 }

/-- The typed form of a copy that passes checks 1 to 9. -/
def parseImage (r : Reader) : Image :=
  { secVersion := num (r 16 4) 0 4, integratorKey := r 640 96, board := parseBoard (body r 1), geo := parseGeometry (body r 2)
    timing := parseTiming (body r 3), ldpc := parseLdpc (body r 4), dram := parseDram (body r 5), ident := parseIdentity (body r 6)
    policy := parsePolicy (body r 7), classes := (body r 8).map (·.toNat), ucodeVersion := num (body r 9) 8 8 }

/-! ### Check 10: rules between fields -/

/-- Bits set of a number below 2^32. -/
def ones32 (x : Nat) : Nat := popFrom 32 x 0

/-- R39: the largest user capacity, from raw capacity × 430 / 524, in whole IUs. -/
def capacityLimit (m : Image) (iu : Nat) : Nat :=
  let dies := ones32 m.board.chanMask * m.geo.targets * m.geo.diesPerTarget
  430000000000000 * dies * m.geo.density / 4096 / iu * iu

/-- Nonzero blocks of a block column, over the rows in use. -/
def colDegree (c : LdpcCode) (j : Nat) : Nat :=
  ((List.range c.halfRows).filter fun r => decide (ldpcShift c (r / 2) j (r % 2) ≠ 0xFFFF)).length

/-- R269: the parity part is block lower-triangular with circulant(0) on its diagonal. -/
def parityPartOk (c : LdpcCode) : Bool :=
  (List.range 15).all fun r => (List.range 15).all fun j =>
    let x := ldpcShift c (r / 2) (c.cols - 15 + j) (r % 2)
    if j = r then decide (x = 0) else decide (j < r) || decide (x = 0xFFFF)

/-- R270, with the CRC over the body before its last four bytes. -/
def ldpcRules (c : LdpcCode) (b : List Byte) : Bool :=
  let n := 32 + 4 * c.entryCount
  decide ((crc32c (b.take n)).toNat = num b n 4)
    && ((List.range c.cols).all fun j => decide (ldpcShift c 7 j 1 = 0xFFFF)) && parityPartOk c
    && ((List.range 129).all fun i => within 2 8 (colDegree c (ldpcShort c + i)))
    && ((List.range 15).all fun r => decide ((ldpcRow c r).length ≤ 48))
    && decide (sumOf (fun r => (ldpcRow c r).length) (List.range 15) ≤ 640)

/-- Blocks and slots of R171 for an image: N_sb and S. -/
def imageSbs (m : Image) : Nat × Nat :=
  let d := m.geo.targets * m.geo.diesPerTarget
  let ppw := if m.geo.cellType = 1 then 3 else 4
  let iu := if m.policy.iuSize = 1 then 16384 else 65536
  (m.geo.blocksPerDie * (ones32 m.board.chanMask * d) / (18 * d), 16 * d * (m.geo.planes * m.geo.wordlines * ppw * 16384) / iu)

/-- Check 10 (R591), with the type of the section of the first field each rule names (R592). -/
def checkRules (m : Image) (ldpcBody : List Byte) : Option Nat :=
  let iu := if m.policy.iuSize = 1 then 16384 else 65536
  let cap := m.ident.userCapacity
  let p := m.policy
  let g := m.geo
  let ppw := if g.cellType = 1 then 3 else 4
  if !within 18 32 (ones32 m.board.chanMask) then some 0x0801
  else if cap < 2 ^ 30 ∨ cap % iu ≠ 0 ∨ capacityLimit m iu < cap then some 0x0806
  else if p.iuSize = 1 ∧ 107000000000000 < cap then some 0x0807
  else if 2 ^ 33 < (imageSbs m).1 * (imageSbs m).2 then some 0x0802
  else if m.board.dramChannels * (8 + 4 * m.dram.density) * 2 ^ 30 < 5 * (cap / iu) + 21 * 2 ^ 28 then some 0x0801
  else if (List.range 32).any fun c => m.board.chanMask.testBit c && !(m.board.inputs.any fun i => decide (i.role = 1) && i.channels.testBit c) then
    some 0x0801
  else if m.dram.set6400.isEmpty || m.dram.set3200.isEmpty then some 0x0805
  else if !ldpcRules m.ldpc ldpcBody then some 0x0804
  else if (List.range 320).any fun n => !classByteOk n (nth 0 m.classes n) then some 0x0808
  else if p.gcUrgent < p.placeFloor + 16 ∨ p.spareMin < p.gcUrgent ∨ p.gcBgTarget < p.gcUrgent then some 0x0807
  else if p.overlayFillLimit < p.overlayFoldStart ∨ iu / 4096 - 1 < p.overlayFoldCount then some 0x0807
  else if g.retryCount < p.retrySteps then some 0x0807
  else if m.ldpc.hardIterMax < p.scrubRefreshIters then some 0x0807
  else if g.targets * g.diesPerTarget < p.refugeDies then some 0x0807
  else if g.pageBits < addrBits (g.wordlines * ppw) ∨ g.lunShift < g.pageBits + addrBits (g.blocksPerDie * g.planes)
      ∨ 8 * g.rowCycles < g.lunShift + 3 then some 0x0802
  else none

/-- Checks 7 to 10 of a copy. -/
def checkRest (s : State) (r : Reader) : Option Nat :=
  match checkHashes r with
  | some c => some c
  | none =>
    match checkVendor s r with
    | some c => some c
    | none =>
      match checkRanges r with
      | some c => some c
      | none => checkRules (parseImage r) (body r 4)

/-- All checks of R590 in order. -/
def checkCopy (s : State) (r : Reader) (answers : Bool) : Option Nat :=
  match checkHeader s r answers with
  | some c => some c
  | none =>
    match checkIdentity r with
    | some c => some c
    | none => checkRest s r

/-- FRS field of a copy: its fr, or zeros where it fails one of checks 1 to 6 (R596). -/
def frOf (s : State) (c : Nat) : List Byte :=
  let r := spiReader s c
  if (checkHeader s r true).isNone && (checkIdentity r).isNone then cut (body r 6) 72 8 else List.replicate 8 0

end Sys2Proof.Machine
end

