-- ==== Sys2Proof/Machine/StartUp.lean ====
section
/-! DEFINITION. Internal reset and start-up up to recovery: what a reset keeps (R569), and steps 1 to 8 of R559 with the fatal
codes of R572. -/
namespace Sys2Proof.Machine

/-! ### Internal reset -/

/-- How the operation that ends is reported by prev_end at the next start-up (R575): SAFE, NVM subsystem reset, clean
shutdown, or power loss. -/
def endingOf (s : State) (byReset : Bool) : Nat :=
  if s.boot.starts = 0 then 0 else if s.fh.latch then 3 else if byReset then 4 else if s.journal.anchor.clean then 1 else 2

/-- A port in reset: only its pins stay (R569). -/
def freshPort (p : Port) : Port := { perst := p.perst, refclk := p.refclk }

/-- Housekeeping in reset: what it keeps in MRAM stays (R569, R610). -/
def freshHk (h : Hk) : Hk :=
  { inputs := h.inputs.map fun x => { lifePeak := x.lifePeak, usWarn := x.usWarn, usThrottle := x.usThrottle }
    vauxOut := h.vauxOut, vioOut := h.vioOut, history := h.history, historyNext := h.historyNext
    usThrottled := h.usThrottled, usHalted := h.usHalted, halts := h.halts }

/-- Upkeep in reset: the journalled state and the counts over the life of the drive stay (R353, R362, R363, R390, R605, R613). -/
def freshUpkeep (u : Upkeep) : Upkeep :=
  { scrubSb := u.scrubSb, scrubStart := u.scrubStart, scrubPasses := u.scrubPasses, overruns := u.overruns, lost := u.lost
    lostChange := u.lostChange, lostNext := u.lostNext, mediaErrors := u.mediaErrors, spareNew := u.spareNew, reserve := u.reserve
    spareSet := u.spareSet, cursorGen := u.cursorGen, rebuildMoved := u.rebuildMoved, lastLossMin := u.lastLossMin
    columnsRebuilt := u.columnsRebuilt, columnsLost := u.columnsLost, exposedNoticed := u.exposedNoticed, hostUnits := u.hostUnits
    mediaUnits := u.mediaUnits, fdpEvents := u.fdpEvents }

/-- A super-block's descriptor as it stays through reset. -/
def freshSb (b : SuperBlock) : SuperBlock :=
  { b with pins := 0, victim := false, copied := 0, relocated := 0, fillWait := [], openedAt := 0 }

/-- MRAM through reset (R569): the ring, the anchor, the segments and the refuge sets; a chunk's time counts from now. -/
def freshJournal (now : Nat) (j : Journal) : Journal :=
  { chunks := j.chunks.map fun c => { c with firstAt := c.firstAt.map fun _ => now }
    nextSerial := j.nextSerial, laps := j.laps, anchor := j.anchor, segments := j.segments.filter (·.done)
    nextSegment := j.nextSegment, chunksSince := j.chunksSince, setA := j.setA, setB := j.setB, pwrFail := j.pwrFail }

/-- The controller enters internal reset; `t` is its clock from now on, 0 where the power goes. What R569 keeps stays, all else
takes its reset value. -/
def enterReset (s : State) (byReset : Bool) (t : Nat) : State :=
  { now := t, run := .inReset
    boot := { starts := s.boot.starts, prevSafe := s.boot.prevSafe, strapPort := s.boot.strapPort, strapSb := s.boot.strapSb
              strapSpi := s.boot.strapSpi, strapTest := s.boot.strapTest, strapsSampled := s.boot.strapsSampled
              porLow := s.boot.porLow, ending := endingOf s byReset }
    spi := s.spi, portA := freshPort s.portA, portB := freshPort s.portB
    path := { spaces := s.path.spaces, ceiling := s.path.ceiling, fdp := s.journal.anchor.fdp }
    media := { blocks := s.media.blocks, pages := (cutParity s).media.pages, sbs := s.media.sbs.map freshSb, sbSerial := s.media.sbSerial }
    upkeep := freshUpkeep s.upkeep
    journal := freshJournal t s.journal
    hk := freshHk s.hk
    fh := { history := s.fh.history, historyNext := s.fh.historyNext }
    sec := { otp := s.sec.otp, keyStore := s.sec.keyStore, keySerial := s.sec.keySerial, storeA := s.sec.storeA, storeB := s.sec.storeB
             sanitize := s.sec.sanitize }
    misc := { mramCorrected := s.misc.mramCorrected, mramUncorrectable := s.misc.mramUncorrectable, mramRemap := s.misc.mramRemap, mramBad := s.misc.mramBad
              features := s.misc.features.filter fun e => decide (e.1 = 0x1E)
              selfTests := s.misc.selfTests, powerOnBase := s.misc.powerOnBase + s.now - t }
    freeCtr := s.freeCtr, pending := s.pending }

/-! ### Fatal codes -/

/-- Start-up ends in SAFE with a fatal code (R572, R527): CSTS.CFS is 1, ALIVE is low, and nothing is written. -/
def fatalBoot (s : State) (code hi lo : Nat) : State :=
  let s := s.onBoth fun p => { p with cfs := true }
  let s := s.onFh fun h => { h with latch := true, aliveDriving := false, aliveLevel := false }
  let s := s.onJournal fun j => { j with pls := 3 }
  let s := s.onSec fun x => { x with debugOpen := x.debugOpen && decide (x.lifecycle ≠ 3) }
  { s.onBoot fun b => { b with stage := 9, fatal := code, detailHi := hi, detailLo := lo } with run := .safe }

/-- A step of start-up runs only while the fault latch is clear. -/
def unlessSafe (f : State → State) (s : State) : State := if s.fh.latch then s else f s

/-! ### Steps 1 and 2 -/

/-- ASCII text as bytes. -/
def ascii (t : String) : List Byte := t.toList.map fun c => BitVec.ofNat 8 c.toNat

/-- KDF(label) over the root key and die_id (R627). -/
def deviceKey (s : State) (label : String) : BitVec 256 := deriveKey (otpBytes s 32 32) (ascii label) (otpBytes s 4 16)

/-- The device keys are derived, but not in RETURNED, VOID or an unlisted state (R625 to R627). -/
def deriveKeys (s : State) : State :=
  if (lifecycleOf s).toNat ≤ 3 ∧ (lifecycleOf s).toNat ≠ 2 then
    let kek := deviceKey s "YM46 KEK"
    let mdk := deviceKey s "YM46 MDK"
    s.onSec fun x => { x with kek := kek, mdk := mdk }
  else s

/-- The lifecycle state forbids operation: not PROVISION, and not DEPLOYED with both key hashes programmed (R625). -/
def lifecycleBad (s : State) : Bool :=
  match (lifecycleOf s).toNat with
  | 1 => false
  | 3 => ((otpBytes s 64 48).all fun b => decide (b = 0)) || ((otpBytes s 112 48).all fun b => decide (b = 0))
  | _ => true

/-- Step 1: the OTP row is read, the first housekeeping round starts, ALIVE toggles, and JTAG and UART open where the
lifecycle state says so (R477, R480, R528, R554, R559, R621, R625). The trim codes loaded here are not stated (free value). -/
def otpStep (env : StartEnv) (s : State) : State :=
  let (s, k) := drawFree s
  let life := lifecycleOf s
  let floor := floorOf s
  let ok := curveOk s 264 && curveOk s 300
  let s := s.onSec fun x => { x with lifecycle := life, floor := floor }
  let s := s.onHk fun h => { h with
    inRound := true, roundAt := some s.now, curvesOk := ok, oscTrim := (Config.freeReg (2 * k)).toNat % 1024
    bgTrim := (Config.freeReg (2 * k + 1)).toNat % 1024 }
  let s := s.onFh fun h => { h with aliveDriving := true }
  let s := s.onBoot fun b => { b with stage := 1 }
  let s := deriveKeys s
  let s := if lifecycleOpen life then fire (s.onSec fun x => { x with debugOpen := true }) (coreSource 21) else s
  if s.fh.latch then s else if env.otpUncorrectable then fatalBoot s 1 0 0 else if lifecycleBad s then fatalBoot s 2 0 0 else s

/-- Words of one SRAM macro that fail the test. -/
def badIn (l : List (Nat × Nat)) (m : Nat) : Nat := (l.filter fun x => decide (x.1 = m)).length

/-- A failed self-test: SELFTEST fires, and the fatal code names the checker (R447, R503, R572). -/
def selfTestFails (s : State) (checker : Nat) : State :=
  let s := fire s (coreSource 19) checker
  fatalBoot (s.onBoot fun b => { b with selfTest := some checker }) 3 checker 0

/-- Step 2: the self-test (R446, R447, R445), and STRAP_TEST (R537). More than four bad words of a macro name SRAM_UE. -/
def selfTestStep (env : StartEnv) (s : State) : State :=
  let s := s.onBoot fun b => { b with stage := 2 }
  match env.checkerFail with
  | some n => selfTestFails s n
  | none =>
    if env.sramBad.any fun x => decide (4 < badIn env.sramBad x.1) then selfTestFails s (coreSource 3)
    else
      let s := s.onMisc fun m => { m with sramRemap := env.sramBad }
      if s.boot.strapTest then fatalBoot s 4 0 0 else s

/-! ### Steps 3 to 5: the image -/

/-- Configuration-space identity of an identity section (R562): the fields compared. -/
def cfgFields (i : Identity) : List Nat := [i.vid, i.did, i.ssvid, i.ssid, i.classCode, i.revisionId]

/-- Reason of checks 1 to 6 of a copy. -/
def step3Reason (hdr : Option Nat) (r : Reader) : Option Nat :=
  match hdr with
  | some c => some c
  | none => checkIdentity r

/-- Reason of all checks of a copy, from its header's. -/
def allReason (s : State) (hdr : Option Nat) (r : Reader) : Option Nat :=
  match step3Reason hdr r with
  | some c => some c
  | none => checkRest s r

/-- A thermometer of v ones is programmed over one copy of the floor; a programmed bit stays 1 (R620, R624). -/
def thermometer (m : List Host.Cell) (v base : Nat) : List Host.Cell :=
  let bits := leBytes 32 (2 ^ v - 1)
  (List.range 32).foldl (fun m i => memPut 0 m (base + i) (memGet 0 m (base + i) ||| nth 0 bits i)) m

/-- The three copies of the floor at a value. -/
def floorRow (m : List Host.Cell) (v : Nat) : List Host.Cell := thermometer (thermometer (thermometer m v 168) v 200) v 232

/-- Program sec_floor up to a value in all three copies (R620, R624). -/
def raiseFloor (s : State) (v : Nat) : State :=
  let s := s.onSec fun x => { x with otp := floorRow x.otp v }
  let f := floorOf s
  s.onSec fun x => { x with floor := f }

/-- Both copies have passed checks 1 to 5 and carry a security version above the floor: the floor rises (R624). -/
def floorRises (s : State) (ha hb : Option Nat) : State :=
  let v := min (num (spiReader s 1 16 4) 0 4) (num (spiReader s 2 16 4) 0 4)
  if ha.isNone && hb.isNone && decide (s.sec.floor < v) then raiseFloor s v else s

/-- Units that the validated image enables leave reset (R42, R644). -/
def enableUnits (s : State) : State :=
  let s := (chansOn s).foldl (fun s c => enableMover (modChan s c fun x => { x with st := .init }) c) s
  let s := ((List.range 4).filter (groupOn s)).foldl (fun s g => modCluster s g fun x => { x with st := .active }) s
  ((List.range 4).filter (dcOn s)).foldl (fun s n => modDc s n fun x => { x with st := .training }) s

/-- A copy is in use: its image, its fault classes, and the units it enables; the microcode runs (R43, R504, R559, R644). -/
def useCopy (s : State) (c : Nat) : State :=
  let m := parseImage (spiReader s c)
  let s := { s with image := m, copyInUse := c, ucodeVersion := m.ucodeVersion }
  let s := s.onBoot fun b => { b with copy := c, configSet := true, romServes := false, stage := 4 }
  let s := s.onFh fun h => { h with classes := m.classes }
  enableUnits (s.onSec fun x => { x with secVersionInUse := m.secVersion })

/-- Steps 3 to 5: the headers of both copies, the choice, the identity, and the rest of the copy in use (R559 to R562, R590,
R594, R595). -/
def imageStep (env : StartEnv) (s : State) : State :=
  let ra := spiReader s 1
  let rb := spiReader s 2
  let ha := checkHeader s ra env.spiAnswersA
  let hb := checkHeader s rb env.spiAnswersB
  let first := firstCopy s
  let other := 3 - first
  let hdr := fun (c : Nat) => if c = 1 then ha else hb
  let rd := fun (c : Nat) => if c = 1 then ra else rb
  let id1 := step3Reason (hdr first) (rd first)
  let id2 := step3Reason (hdr other) (rd other)
  let idCopy := if id1.isNone then some first else if id2.isNone then some other else none
  let ident := idCopy.map fun c => parseIdentity (body (rd c) 6)
  let s := s.onBoot fun b => { b with stage := 3, cfgIdentity := ident }
  let r1 := if id1.isNone then checkRest s (rd first) else id1
  let r2 := if r1.isNone then none else if id1.isSome && id2.isSome then id2 else allReason s (hdr other) (rd other)
  let s := floorRises s ha hb
  let reasons := fun (c : Nat) => if c = first then r1.getD 0 else r2.getD 0
  if r1.isNone then useCopy s first
  else if r2.isNone then
    let mine := cfgFields (parseIdentity (body (rd other) 6))
    let diff := match ident with
      | some i => decide (cfgFields i ≠ mine)
      | none => false
    useCopy (s.onBoot fun b => { b with copyFallback := true, identMismatch := diff, detailHi := reasons 1, detailLo := reasons 2 }) other
  else fatalBoot s 5 (reasons 1) (reasons 2)

/-! ### Steps 6 to 8 -/

/-- Steps 6 and 7: the density is read, the points are trained, and DRAM initialisation leaves every burst written (R430, R559,
R563). A 3,200 MT/s point that fails is unusable (R432). -/
def dramStep (env : StartEnv) (s : State) : State :=
  let s := s.onBoot fun b => { b with stage := 5 }
  if env.dramDensity ≠ s.image.dram.density then fatalBoot s 7 0 0
  else if !env.train6400 then fatalBoot s 6 0 0
  else
    let both := decide (s.policy.dramTrainBoth = 1)
    let s := ((List.range 4).filter (dcOn s)).foldl (fun s n => modDc s n fun x => { x with
      st := .active, trained6400 := true, trained3200 := both && env.train3200, unusable3200 := both && !env.train3200
      density := env.dramDensity, windowAt := s.now }) s
    if both && !env.train3200 then fire s (dcSource 0 5) else s

/-- Dies that NAND discovery finds failed (R221). -/
def discoveredBad (s : State) (env : StartEnv) : List Nat :=
  (allDies s).filter fun d => decide ((dieChan d, d % 32 / 8) ∈ env.badTargets) || decide (d ∈ env.badLuns)

/-- One channel after discovery: ACTIVE, or failed where every die is, at the image's rate, with its training (R221, R258,
R259). -/
def discoverChan (env : StartEnv) (bad : List Nat) (s : State) (ch : Nat) : State :=
  let allBad := (diesOf s ch).all fun d => decide (d ∈ bad)
  let ts := (List.range s.geo.targets).filter fun t => !decide ((ch, t) ∈ env.untrained) && !decide ((ch, t) ∈ env.badTargets)
  modChan s ch fun c => { c with
    st := if allBad then .failed else .active, rate := s.image.timing.rate, iface := s.image.timing.iface
    trained := ts.foldl (fun (m : BitVec 4) t => setBit m t) 0, readDqs := nth 0 env.readDqsDelay ch, writeDq := nth 0 env.writeDqDelay ch
    lastTarget := (ts.getLast?).getD 0 }

/-- No unlock outlives a start-up (R640). -/
def noUnlock (s : State) : State := s.onSec fun x => { x with unlock := none }

/-- The anchor: on a drive that has one, its owner, mode and FDP state are restored, and a bad copy is written again (R49, R84,
R121, R396, R442); both copies bad is fatal (R572). In single x4 mode port A owns (R121). -/
def anchorStep (env : StartEnv) (s : State) : State :=
  let a := s.journal.anchor
  let owner := if s.boot.strapPort then a.owner else .A
  if !a.written then s
  else if !env.anchorAGood && !env.anchorBGood then fatalBoot s 9 0 0
  else
    let s := (noUnlock { s with mediaMode := a.mediaMode }).onOwn fun o => { o with owner := owner, generation := BitVec.ofNat 32 a.generation }
    let s := s.onPath fun p => { p with fdp := a.fdp }
    if env.anchorAGood && env.anchorBGood then s else fire s (mjSource 2)

/-- The key store: without a good copy SEC_XTS fires (R631). -/
def keyStep (env : StartEnv) (s : State) : State :=
  if !env.keyStoreGood && decide (0 < s.sec.keySerial) then fire s (coreSource 11) else s

/-- Step 8 once dies may be addressed: NAND discovery (R221, R564), the anchor and the key store; start-up before recovery then
ends (R575). Losses on a drive that holds data are judged in recovery, when the map stands. -/
def discover (env : StartEnv) (s : State) : State :=
  let bad := discoveredBad s env
  let s := bad.foldl (fun s d => modDie s d fun x => { x with isFailed := true }) s
  let s := (chansOn s).foldl (discoverChan env bad) s
  let s := s.onBoot fun b => { b with
    stage := 6, nandDies := !bad.isEmpty
    detailHi := if bad.isEmpty || b.copyFallback || b.identMismatch then b.detailHi else bad.length }
  let good := (chansOn s).filter fun c => (diesOf s c).all fun d => !decide (d ∈ bad)
  if s.media.sbSerial = 0 ∧ good.length < 18 then fatalBoot s 8 0 0
  else
    let s := unlessSafe (keyStep env) (anchorStep env s)
    let s := match env.startC4 with
      | some n => unlessSafe (fun s => if classOf s n = 4 then fire s n else s) s
      | none => s
    unlessSafe (fun s => s.onBoot fun b => { b with stage := 7, preMs := min 65535 env.preMs }) s

/-- Step 8: NAND discovery waits while PWR_FAIL_N counts as asserted (R549). -/
def nandStep (env : StartEnv) (s : State) : State :=
  if env.pwrFailLow then
    { (s.onJournal fun j => { j with pwrFail := true }).onBoot fun b => { b with stage := 0xA, pfWait := true } with run := .pfWait }
  else discover env s

/-- Start-up from ts to the start of recovery, of any kind (R558, R559). -/
def startUp (s : State) (env : StartEnv) (cause : Nat) : State :=
  let s := { s with run := .recovery, movers := (List.range 32).map fun i => (32 + i, { st := .idle }) }
  let s := s.onBoot fun b => { b with
    starts := min 65535 (b.starts + 1), ts := s.now, cause := cause, prevEnd := b.ending, spiSlow := !b.strapSpi }
  let s := otpStep env s
  let s := unlessSafe (selfTestStep env) s
  let s := unlessSafe (imageStep env) s
  let s := unlessSafe (dramStep env) s
  unlessSafe (nandStep env) s

/-! ### The first start-up of a drive -/

/-- Die slots of a refuge set on one channel (R377): the formula's, each moved to the next die that is not failed and not yet
in the set. -/
def refugeSlots (s : State) (set ch : Nat) : List Nat :=
  let d := diesPerChan s
  let rd := s.policy.refugeDies
  (List.range rd).foldl (fun acc i =>
    let at0 := (i * d / rd + set * max 1 (d / (2 * rd))) % d
    let cands := (List.range d).map fun j => (at0 + j) % d
    match cands.find? fun x => !(getDie s (slotDie s ch x)).isFailed && !decide (x ∈ acc) with
    | some x => acc ++ [x]
    | none => acc) []

/-- Form a refuge set of a new drive from the dirty pool; its blocks' erases are queued (R377, R646). -/
def formSet (s : State) (set : Nat) : State :=
  let dies := ((chansOn s).filter fun c => !chanFailed s c).flatMap fun c => (refugeSlots s set c).map (slotDie s c)
  let (s, blocks) := dies.foldl (fun (acc : State × List (Nat × Nat)) d =>
    match takeBlock acc.1 d .refuge with
    | (t, some b) => (t, acc.2 ++ [(d, b)])
    | (t, none) => (t, acc.2)) (s, [])
  let r : RefugeSet := { st := .releasing, blocks := blocks, toErase := blocks, isNew := true }
  (checkUrgent s).onJournal (putSet set r)

/-- The first start-up (R114, R121, R357, R362, R377, R646, R647): the owner is the own_tie port, generation 1; reserve and
spare_new are fixed; both refuge sets are formed. -/
def firstStart (s : State) : State :=
  let tie : PortId := if s.policy.ownTie = 1 then .B else .A
  let owner : PortId := if s.boot.strapPort then tie else .A
  let s := (noUnlock s).onOwn fun o => { o with owner := owner, generation := 1 }
  let s := putAnchor s fun a => { a with owner := tie, generation := 1, iuSize := s.policy.iuSize, codeId := s.image.ldpc.codeId }
  let r := reserveOf s
  let s := s.onUpkeep fun u => { u with reserve := r }
  let n := spareEquiv s
  let s := s.onUpkeep fun u => { u with spareNew := n, spareSet := true }
  formSet (formSet s 0) 1

end Sys2Proof.Machine
end

