-- ==== Sys2Proof/Machine/Upkeep.lean ====
section
/-! DEFINITION. Media upkeep: forming and releasing super-blocks (R205, R206, R299, R330, R401), collection, wear moves, folds
and rebuild by copies (R199, R200, R211, R317 to R322, R331 to R346), patrol scrub (R347 to R350), and the Drydown Cursor
(R363, R366, R367). -/
namespace Sys2Proof.Machine

/-! ### Copies -/

/-- 4 KiB units of copy buffers in use: from the read to the last pass of the wordline that holds the data (R333). -/
def copyBuffers (s : State) : Nat :=
  sumOf (copyUnits s) (s.path.copies.filter fun c => match c.place with
    | none => true
    | some pl => decide (placeDone s pl = 0))

/-- The copy buffers of 128 MiB have room for one more copy (R333). -/
def copyRoom (s : State) (n : Nat) : Bool := decide (copyBuffers s + n ≤ 32768)

/-- Begin the copy of a unit: its codewords are read through the retry order (R332). -/
def startCopy (s : State) (kind : CopyKind) (cls : Nat) (u : SrcUnit) : State :=
  match mapOwner s u.mi with
  | none => s
  | some (n, iu) =>
    let subs := match u.sub with
      | none => List.range (subsPerIu s)
      | some i => [i]
    if !copyRoom s subs.length then s
    else
      let id := s.path.copyNext
      let c : Copy := { id := id, kind := kind, sb := u.pa / slotsS s, pa := u.pa, nsid := n.nsid, iu := iu, sub := u.sub, psub := u.psub
                        seq := 0, ruh := 0xFF, need := subs }
      let s := s.onPath fun p => { p with copyNext := id + 1, copies := p.copies ++ [c] }
      let one := fun (s : State) (i : Nat) =>
        (readAt s u.pa (u.sub.elim i fun _ => u.psub) (.copy id i) (some { nsid := n.nsid, iu := iu, sub := i, kind := b2n u.sub.isSome }) cls).1
      subs.foldl one s

/-- COPY (R332): the next valid unit of a source super-block is read. -/
def copyNextUnit (s : State) (sb : Nat) : State :=
  match findSb s sb with
  | none => s
  | some b =>
    match (if upkeepRuns s then copyKindOf s b else none) with
    | none => s
    | some kind =>
      let all := (sbUnits s sb).filter fun u => !inCopy s u
      let units := if kind = .scrub then all.filter (toRelocate s sb) else all
      match minBy unitKey units with
      | none => s
      | some u =>
        let t := startCopy s kind 7 u
        if kind = .scrub ∧ t.path.copyNext ≠ s.path.copyNext then modSb t sb fun b => { b with relocated := b.relocated + 1 } else t

def execCopy (sb : Nat) (s : State) : Host.Outcome State Fault Refusal := .next (copyNextUnit s sb)

/-! ### Super-blocks -/

/-- Close a journal super-block without room for another segment, so that the next one takes over (R329, R401). Its slots are
64 KiB, four a stripe, and a segment takes 129 stripes. -/
def closeFullJournal (s : State) : State :=
  s.media.sbs.foldl (fun s b =>
    if b.use = .journal ∧ b.st = .isOpen ∧ stripesIn s 0 * 4 < b.nextSlot + 516 then
      modSb (jot s (.sbClose b.num (b.nextSlot / 4 / diesPerChan s) 0xFFFFFF)) b.num fun x => { x with st := .closed }
    else s) s

/-- A READY flacon of the handle waits for a place. -/
def packWaits (s : State) (h : Nat) : Bool := s.path.flacons.any fun e => decide (e.2.st = .ready) && decide (e.2.handle = h)

/-- Open super-blocks of a use and handle. -/
def openOf (s : State) (u : SbUse) (h : Nat) : List SuperBlock :=
  s.media.sbs.filter fun b => decide (b.use = u) && decide (b.handle = h) && decide (b.st = .isOpen)

/-- A handle is due a reclaim unit: its first flacon, or a copy of a fold of its SLC cache, is to be packed and no unit of it has room, or
its one open unit has less than one eighth of RUNS left (R202, R203, R211). -/
def unitDue (s : State) (h : Nat) : Bool :=
  match openOf s .hostRu h with
  | [] => packWaits s h || groupWaits s (.hostRu, h)
  | [b] => decide (sbRoom s b * 8 < ruUnits s)
  | _ => (packWaits s h || groupWaits s (.hostRu, h)) && (sbWithRoom s .hostRu h 1).isNone

/-- A handle is due an SLC super-block (R210). -/
def slcDue (s : State) (h : Nat) : Bool :=
  packWaits s h && (openOf s .slc h).isEmpty && decide (slcCount s < slcCacheSize s) && slcAllowed s

/-- A use is due a super-block: no open one of it takes data, and for host data a handle asks (R202, R203, R210). A refuge
replacement takes single blocks (R377). -/
def formDue (s : State) (use : SbUse) (handle : Nat) : Bool :=
  match use with
  | .refuge => false
  | .journal => (openOf s .journal 0xFF).isEmpty
  | .collection => (sbWithRoom s .collection 0xFF 1).isNone
  | .rebuildDest => (sbWithRoom s .rebuildDest 0xFF 1).isNone
  | .hostRu => unitDue s handle
  | .slc => slcDue s handle

/-- The handle that a use's super-block is formed for. -/
def formHandle (use : SbUse) (handle : Nat) : Nat :=
  match use with
  | .hostRu | .slc => handle
  | _ => 0xFF

/-- A full journal super-block is closed before the next is formed; other uses close theirs as they fill. -/
def beforeForm (s : State) (use : SbUse) : State := if use = .journal then closeFullJournal s else s

/-- SUPER_BLOCK_FORMATION (R215, R299): for a use that is due a super-block, after the uses that stand before it. -/
def formFor (s : State) (use : SbUse) (handle : Nat) : State :=
  let s := beforeForm s use
  if formDue s use handle then formSb (formBefore s use) use (formHandle use handle) else s

def execSuperBlockFormation (use : SbUse) (handle : Nat) (s : State) : Host.Outcome State Fault Refusal :=
  .next (formFor s use handle)

/-- Position in the record stream, of a chunk and a record. -/
def recPos (chunk r : Nat) : Nat := chunk * 65536 + r

/-- Newest completed copy of each segment index: the current checkpoint set (R401). -/
def currentSegments (s : State) : List Segment :=
  s.journal.segments.filter fun g => g.done && !(s.journal.segments.any fun h =>
    h.done && decide (h.index = g.index) && decide (recPos g.startChunk g.startRec < recPos h.startChunk h.startRec))

/-- A journal super-block holds no current segment and no chunk that replay needs (R401). -/
def journalSpent (s : State) (b : SuperBlock) : Bool :=
  let cur := currentSegments s
  let low := (cur.map (·.startChunk)).min?
  !(cur.any fun g => decide (g.sb = b.num)) && !(s.journal.segments.any fun g => !g.done && decide (g.sb = b.num))
    && b.chunks.all fun c => match low with
      | some l => decide (c < l) && decide (segmentCount s ≤ cur.length)
      | none => false

/-- SUPER_BLOCK_RELEASE (R330, R401). -/
def releaseIfDue (s : State) (sb : Nat) : State :=
  match findSb s sb with
  | none => s
  | some b =>
    if b.st ≠ .closed ∨ b.valid ≠ 0 ∨ b.pins ≠ 0 ∨ sbReferenced s b ∨ (b.use = .journal ∧ !journalSpent s b) then s
    else
      let s := releaseSb s sb
      let s := if b.use = .journal then
          let held := fun (n : Nat) => s.media.sbs.any fun x => decide (x.use = .journal) && decide (n ∈ x.chunks)
          let s := s.onJournal fun j => { j with
            segments := j.segments.filter fun g => g.sb ≠ sb
            chunks := j.chunks.filter fun c => !(c.inDelta && decide (c.serial ∈ b.chunks) && !held c.serial) }
          putAnchor s fun a => { a with sbs := a.sbs.filter (· ≠ sb) }
        else s
      checkUrgent (checkPreserve s)

def execSuperBlockRelease (sb : Nat) (s : State) : Host.Outcome State Fault Refusal := .next (releaseIfDue s sb)

/-- RU_ACTIVE_LIMIT_EXPIRY (R206, R207). -/
def unitTooOld (s : State) (sb : Nat) : State :=
  match findSb s sb with
  | none => s
  | some b =>
    let limit := s.policy.ruActiveLimit
    if b.use = .hostRu ∧ b.st = .isOpen ∧ limit ≠ 0 ∧ elapsed s b.openedAt (limit * 3600000000) then
      fdpEvent (fdpEvent (closeUnit s sb none) 2 b.handle) 6 b.handle
    else s

def execRuActiveLimitExpiry (sb : Nat) (s : State) : Host.Outcome State Fault Refusal := .next (unitTooOld s sb)

/-! ### Collection and wear -/

/-- IDLE_ENTRY (R337). -/
def enterIdle (s : State) : State :=
  if noIo s ∧ elapsed s s.upkeep.idleSince (s.policy.gcIdleMs * 1000) then s.onUpkeep fun u => { u with idle := true } else s

def execIdleEntry (s : State) : Host.Outcome State Fault Refusal := .next (enterIdle s)

/-- A closed super-block in native mode that is not a victim, not under a wear move and not left to rebuild (R329, R331). -/
def collectable (s : State) (b : SuperBlock) : Bool :=
  decide (b.st = .closed) && decide (b.mode = nativeMode s) && decide (b.use ≠ .journal) && !b.victim && decide (s.upkeep.wearing ≠ some b.num)
    && !rebuildNeeds s b

/-- The next victim by the classes of R331. -/
def nextVictim (s : State) : Option SuperBlock :=
  let of := fun (l : List Nat) => (l.filterMap (findSb s)).find? (collectable s)
  match of s.upkeep.class1 with
  | some b => some b
  | none =>
    match of s.upkeep.class2 with
    | some b => some b
    | none => minBy (fun b => (b.valid * 4294967296 + b.serial) * 16777216 + b.num) (s.media.sbs.filter (collectable s))

/-- Victims of collection under way. -/
def victims (s : State) : Nat := (s.media.sbs.filter fun b => b.victim && decide (b.use ≠ .slc)).length

/-- Victims that collection works on at once: four in the foreground, one while the drive is idle below gc_bg_target; none
otherwise, and none for host space in PRESERVE (R337, R338, R359). -/
def victimLimit (s : State) : Nat :=
  if gcUrgentNow s then 4
  else if s.upkeep.idle && decide (freeBlocks s < s.policy.gcBgTarget) && decide (s.mediaMode = 0) then 1
  else 0

/-- COLLECTION_START (R331). -/
def startCollection (s : State) : State :=
  let s := checkUrgent s
  if upkeepRuns s ∧ victims s < victimLimit s then
    match nextVictim s with
    | some b => modSb s b.num fun x => { x with victim := true, copied := 0 }
    | none => s
  else s

def execCollectionStart (s : State) : Host.Outcome State Fault Refusal := .next (startCollection s)

/-- The mean erase count of a super-block's blocks, in units so fine that two means that differ differ here (R346). -/
def sbErases (s : State) (b : SuperBlock) : Nat :=
  let is := (List.range b.blocks.length).filter fun i => decide (nth 0 b.blocks i ≠ noBlock)
  sumOf (fun i => (getBlock s (sbDie s b (i / diesPerChan s) (i % diesPerChan s)) (nth 0 b.blocks i)).erases) is * 1099511627776 / is.length

/-- WEAR_MOVE (R346): one move at a time, until the spread is three quarters of wear_spread. -/
def startWearMove (s : State) : State :=
  let w := s.policy.wearSpread
  let d := eraseSpread s
  let s := s.onUpkeep fun u => { u with levelling := decide (w < d) || (u.levelling && decide (w * 3 / 4 < d)) }
  if upkeepRuns s ∧ s.mediaMode = 0 ∧ !gcUrgentNow s ∧ s.upkeep.levelling ∧ s.upkeep.wearing = none then
    match minBy (fun b => sbErases s b * 4294967296 + b.serial) (s.media.sbs.filter (collectable s)) with
    | some b => modSb (s.onUpkeep fun u => { u with wearing := some b.num }) b.num fun x => { x with copied := 0 }
    | none => s
  else s

def execWearMove (s : State) : Host.Outcome State Fault Refusal := .next (startWearMove s)

/-! ### Folds -/

/-- Overlay entries of an IU. -/
def ovlCount (s : State) (mi : Nat) : Nat := (ovlOf s mi).length

/-- The IU is to be folded: it has overlay_fold_count entries, or used entries exceed overlay_fold_start and no IU that can be folded has
more (R199). -/
def foldDue (s : State) (mi : Nat) : Bool :=
  let n := ovlCount s mi
  let fewer := fun (e : OvlEntry) => (getMap s e.mapIndex).poisoned || decide (ovlCount s e.mapIndex ≤ n)
  decide (0 < n) && (decide (s.policy.overlayFoldCount ≤ n)
    || (decide (134217728 * s.policy.overlayFoldStart < 100 * ovlUsed s) && s.path.ovl.all fewer))

/-- Begin the fold of an IU: each sub-unit is read from the overlay or the base; one that reads as zeros is encrypted as
such (R183, R199, R200). The fold takes the highest number among what it reads; that of a trimmed entry, which has no sillage, is its
seq_low (R188; DESIGN CHOICE, log entry 97). -/
def startFold (s : State) (n : Namespace) (iu : Nat) : State :=
  let mi := mapIndex s n iu
  let all := List.range (subsPerIu s)
  let places := all.map fun i => (i, selMap s mi i)
  let low := maxOf ((ovlOf s mi).map (·.seqLow))
  let zero := places.filterMap fun x => match x.2 with
    | .media .. => none
    | _ => some (x.1, secEncrypt n.key (tweakOf s iu x.1) 0)
  let id := s.path.copyNext
  let e := getMap s mi
  let c : Copy := { id := id, kind := .fold, sb := 0xFFFFFF, pa := e.pa, nsid := n.nsid, iu := iu, sub := none, seq := low, ruh := 0xFF
                    foldAt := low, got := zero, need := (places.filter fun x => !zero.any fun z => decide (z.1 = x.1)).map (·.1) }
  let s := s.onPath fun p => { p with copyNext := id + 1, copies := p.copies ++ [c] }
  let one := fun (s : State) (x : Nat × Sel) => match x.2 with
    | .media pa psub kind => (readAt s pa psub (.copy id x.1) (some { nsid := n.nsid, iu := iu, sub := x.1, kind := kind }) 7).1
    | _ => s
  packCopies (places.foldl one s)

/-- FOLD (R199): background work, at the priority of collection copies. A poisoned IU has no base to fold. -/
def foldIu (s : State) (nsid iu : Nat) : State :=
  match findNs s nsid with
  | none => s
  | some n =>
    let mi := mapIndex s n iu
    let busy := s.path.copies.any fun c => decide (c.kind = .fold) && decide (c.nsid = nsid) && decide (c.iu = iu) && !c.dead
    if !upkeepRuns s ∨ !foldDue s mi ∨ busy ∨ (getMap s mi).poisoned ∨ !copyRoom s (subsPerIu s) then s else startFold s n iu

def execFold (nsid iu : Nat) (s : State) : Host.Outcome State Fault Refusal := .next (foldIu s nsid iu)

/-- SLC_FOLD (R211): the super-block's valid data is copied by COPY, and its blocks return with its release. -/
def foldSlc (s : State) (sb : Nat) : State :=
  match findSb s sb with
  | none => s
  | some b =>
    if b.use = .slc ∧ b.st = .closed ∧ upkeepRuns s ∧ (s.upkeep.idle ∨ slcOver s) then modSb s sb fun x => { x with victim := true }
    else s

def execSlcFold (sb : Nat) (s : State) : Host.Outcome State Fault Refusal := .next (foldSlc s sb)

/-! ### Rebuild -/

/-- Order of R319: exposed-2 and broken before exposed-1, more valid units first, then super-block and stripe. -/
def rebuildKey (s : State) (x : SuperBlock × SrcUnit) : Nat :=
  let cls := if 2 ≤ stripeState s x.1 (unitStripe s x.2) then 0 else 1
  (((cls * 4294967296 + (4294967295 - x.1.valid)) * 16777216 + x.1.num) * 16777216 + unitStripe s x.2) * 4096 + unitKey x.2 % 4096

/-- Rebuild reads are class 6, or 5 where rebuild_priority is 2 (R321). -/
def rebuildClass (s : State) : Nat := if s.policy.rebuildPriority = 2 then 5 else 6

/-- REBUILD (R317): the units of the next stripe of R319 are copied; with none left, rebuild is complete (R322, R326, R327). -/
def rebuildStripe (s : State) : State :=
  let all := rebuildUnits s
  if all.isEmpty then endRebuild s
  else
    let s := s.onUpkeep fun u => { u with rebuilding := true }
    match (if rebuildRuns s then minBy (rebuildKey s) (all.filter fun x => !inCopy s x.2) else none) with
    | none => s
    | some x =>
      let mine := all.filter fun y => decide (y.1.num = x.1.num) && decide (unitStripe s y.2 = unitStripe s x.2) && !inCopy s y.2
      mine.foldl (fun s y => startCopy s .rebuild (rebuildClass s) y.2) s

def execRebuild (s : State) : Host.Outcome State Fault Refusal := .next (rebuildStripe s)

/-! ### Patrol scrub -/

/-- Super-blocks that the present pass still reads (R347). -/
def scrubSbs (s : State) : List SuperBlock :=
  s.media.sbs.filter fun b => decide (b.use ≠ .journal) && decide (s.upkeep.scrubSb ≤ b.num) && !b.victim && !rebuildNeeds s b

/-- Pages of a super-block. -/
def sbPages (s : State) (b : SuperBlock) : Nat := 18 * stripesIn s b.mode

/-- Checkpoint segments and delta-log chunks, in that order: whether it is a segment, and its number (R347, R397, R398). -/
def scrubSystem (s : State) : List (Bool × Nat) :=
  ((s.journal.segments.filter (·.done)).map fun g => (true, g.index)) ++ ((s.journal.chunks.filter (·.inDelta)).map fun c => (false, c.serial))

/-- Pages of a segment's 129 stripes, or of a chunk's four (R397, R398). -/
def systemPages (x : Bool × Nat) : Nat := if x.1 then 18 * 129 else 18 * 4

/-- Where a segment or a chunk begins: super-block and stripe. -/
def systemPlace (s : State) (x : Bool × Nat) : Option (Nat × Nat) :=
  if x.1 then (s.journal.segments.find? fun g => g.done && decide (g.index = x.2)).map fun g => (g.sb, g.first)
  else (s.journal.chunks.find? fun c => decide (c.serial = x.2)).bind (·.place)

/-- Pages not yet read in the pass (R348). -/
def scrubLeft (s : State) : Nat :=
  sumOf (sbPages s) (scrubSbs s) + sumOf systemPages (scrubSystem s) - s.upkeep.scrubAt

/-- The rate of R348 in pages per second, set at the start of each super-block. -/
def setScrubRate (s : State) : State :=
  let due := s.upkeep.scrubStart * 60 + s.policy.scrubPeriod * 86400
  let left := due - powerOnUs s / 1000000
  s.onUpkeep fun u => { u with scrubRate := scrubLeft s / max left 3600 }

/-- Journal the position of the pass at the end of a super-block (R347). -/
def noteScrub (s : State) (next : Nat) : State :=
  let s := jot s (.scrubPos next s.upkeep.scrubStart)
  setScrubRate (s.onUpkeep fun u => { u with scrubSb := next, scrubAt := 0 })

/-- The valid unit that has its codeword c on member j of stripe k, as its sillage entry names it (R234, R349). -/
def scrubExpect (s : State) (units : List SrcUnit) (k j c : Nat) : Option Expect :=
  let at' := fun (u : SrcUnit) (i : Nat) => decide (subElem s (u.pa % slotsS s) i = (j, c))
  let of := fun (u : SrcUnit) => if unitStripe s u ≠ k then none else match u.sub with
    | some sub => if at' u u.psub then some (u, sub, 1) else none
    | none => ((List.range (subsPerIu s)).find? (at' u)).map fun i => (u, i, 0)
  (units.findSome? of).bind fun x => (mapOwner s x.1.mi).map fun o => { nsid := o.1.nsid, iu := o.2, sub := x.2.1, kind := x.2.2 }

/-- The page of a member is sensed once, and its four codewords are decoded, in class 8 (R229, R347). -/
def scrubIssue (s : State) (b : SuperBlock) (k j : Nat) (sys : Option (Bool × Nat)) : State :=
  let units := sbUnits s b.num
  let id := s.upkeep.scrubNext
  let s := s.onUpkeep fun u => { u with
    scrubNext := id + 1, scrubReads := u.scrubReads ++ [{ id := id, sb := b.num, k := k, member := j, system := sys }] }
  (List.range 4).foldl (fun s c => (issueRead s b k j c (.scrub id c) (if j < 16 then scrubExpect s units k j c else none) 8).1) s

/-- Nothing is sensed on a lost member, nor on a block that recovery took out of the super-block. -/
def scrubSkips (s : State) (b : SuperBlock) (k j : Nat) : Bool :=
  let m := memberSlot s k j
  dieLost s (sbDie s b m (k % diesPerChan s)) || decide (blockIdx s k m ∈ b.lost) || decide (sbBlock s b m (k % diesPerChan s) = noBlock)

/-- Scrub's read of a page waits while the channel is in block reset. -/
def scrubWaits (s : State) (b : SuperBlock) (k j : Nat) : Bool :=
  decide ((getChan s (dieChan (sbDie s b (memberSlot s k j) (k % diesPerChan s)))).st = .reset)

/-- Read a page, or pass it by, and count it. -/
def scrubTake (s : State) (b : SuperBlock) (k j : Nat) (sys : Option (Bool × Nat)) : State :=
  let s := if scrubSkips s b k j then s else scrubIssue s b k j sys
  s.onUpkeep fun u => { u with scrubPages := u.scrubPages + 1, scrubAt := u.scrubAt + 1 }

/-- The pass has ended; the next begins (R347, R348). -/
def endScrubPass (s : State) : State :=
  let s := s.onUpkeep fun u => { u with
    scrubPasses := u.scrubPasses + 1, scrubStart := powerOnMin s, scrubSys := 0, scrubPages := 0, overrunCounted := false }
  let s := s.onMedia fun m => { m with sbs := m.sbs.map fun b => { b with relocated := 0 } }
  noteScrub s 0

/-- Scrub works: not in PS3, PS4, HALTED or DRYDOWN (R347, R348). -/
def scrubRuns (s : State) : Bool :=
  mediaLive s && decide (s.run = .running) && decide (s.mediaMode ≠ 2) && !s.hk.halt && decide (s.misc.drivePs < 3)

/-- The next page of a super-block of the pass; its last page ends it (R347). -/
def scrubSb (s : State) (b : SuperBlock) : State :=
  let s := if s.upkeep.scrubAt = 0 ∨ b.num ≠ s.upkeep.scrubSb then
      setScrubRate (s.onUpkeep fun u => { u with scrubSb := b.num, scrubAt := 0 }) else s
  let n := s.upkeep.scrubAt
  if scrubWaits s b (n / 18) (n % 18) then s
  else
    let s := scrubTake s b (n / 18) (n % 18) none
    if sbPages s b ≤ n + 1 then noteScrub s (b.num + 1) else s

/-- On to the next segment or chunk. -/
def nextSystem (s : State) : State := s.onUpkeep fun u => { u with scrubSys := u.scrubSys + 1, scrubAt := 0 }

/-- The next page of the checkpoint segments and delta-log chunks (R347). -/
def scrubSys (s : State) (x : Bool × Nat) : State :=
  match (systemPlace s x).bind fun p => (findSb s p.1).map fun b => (b, p.2) with
  | none => nextSystem s
  | some (b, first) =>
    let n := s.upkeep.scrubAt
    if scrubWaits s b (first + n / 18) (n % 18) then s
    else
      let s := scrubTake s b (first + n / 18) (n % 18) (some x)
      if systemPages x ≤ n + 1 then nextSystem s else s

/-- The next page of the pass is sensed (R347, R349); what its codewords give is acted on as their decodes end. -/
def scrubNext (s : State) : State :=
  if !scrubRuns s then s
  else
    match minBy (·.num) (scrubSbs s) with
    | some b => scrubSb s b
    | none =>
      match (scrubSystem s)[s.upkeep.scrubSys]? with
      | none => endScrubPass s
      | some x => scrubSys s x

/-- SCRUB_READ (R347, R349) names a page by its number in the pass, and only the next one is read (log entry 63). -/
def scrubNamed (s : State) (page : Nat) : State := if page = s.upkeep.scrubPages then scrubNext s else s

def execScrubRead (page : Nat) (s : State) : Host.Outcome State Fault Refusal := .next (scrubNamed s page)

/-- SCRUB_SB_REFRESH (R350). -/
def refreshBlock (s : State) (sb : Nat) : State :=
  match findSb s sb with
  | none => s
  | some b =>
    if b.relocated < s.policy.scrubSbRefresh then s
    else s.onUpkeep fun u => { u with class2 := addOnce sb u.class2, relocate := u.relocate.filter fun x => x.1 ≠ sb }

def execScrubSbRefresh (sb : Nat) (s : State) : Host.Outcome State Fault Refusal := .next (refreshBlock s sb)

/-- SCRUB_PERIOD_OVERRUN (R348). -/
def scrubLate (s : State) : State :=
  if s.upkeep.overrunCounted ∨ powerOnMin s < s.upkeep.scrubStart + s.policy.scrubPeriod * 1440 then s
  else s.onUpkeep fun u => { u with overruns := u.overruns + 1, overrunCounted := true }

def execScrubPeriodOverrun (s : State) : Host.Outcome State Fault Refusal := .next (scrubLate s)

/-! ### The Drydown Cursor -/

/-- Insert by key, keeping equal keys in order. -/
def insertBy {α : Type} (key : α → Nat) (x : α) : List α → List α
  | [] => [x]
  | y :: r => if key x < key y then x :: y :: r else y :: insertBy key x r

/-- Sort by key. -/
def sortBy {α : Type} (key : α → Nat) (l : List α) : List α := l.foldl (fun acc x => insertBy key x acc) []

/-- Where the cursor lists each IU: at its base, or at its lowest overlay sub-unit where it has no valid base (R366). -/
def cursorUnits (s : State) : List SrcUnit :=
  let base := s.path.map.filterMap fun e => if e.2.valid then some (⟨e.2.pa, 0, e.1, none⟩ : SrcUnit) else none
  let mis := ((s.path.ovl.filter fun e => !e.held).map (·.mapIndex)).dedup
  let ovl := mis.filterMap fun mi =>
    if (getMap s mi).valid ∨ (getMap s mi).poisoned then none
    else (minBy (·.sub) ((ovlOf s mi).filter fun e => !e.trimmed)).map fun e => (⟨e.pa, e.psub, mi, some e.sub⟩ : SrcUnit)
  base ++ ovl

/-- Channels of a super-block that are not failed and not yet covered. -/
def newCover (s : State) (covered : List Nat) (b : SuperBlock) : Nat :=
  (b.chans.filter fun c => !chanFailed s c && !decide (c ∈ covered)).length

/-- Fill a band to at most four super-blocks (R366). -/
def fillBand (s : State) : Nat → List SuperBlock → List SuperBlock → List SuperBlock
  | 0, _, band => band
  | n + 1, cand, band =>
    let covered := band.flatMap (·.chans)
    match minBy (fun b => (32 - newCover s covered b) * 16777216 + b.num) (cand.filter fun b => decide (0 < newCover s covered b)) with
    | none => band
    | some b => fillBand s n (cand.filter fun x => x.num ≠ b.num) (band ++ [b])

/-- The bands, in order (R366). -/
def cursorBands (s : State) : Nat → List SuperBlock → List (List SuperBlock)
  | 0, _ => []
  | n + 1, cand =>
    match minBy (·.num) cand with
    | none => []
    | some b =>
      let band := fillBand s 3 (cand.filter fun x => x.num ≠ b.num) [b]
      band :: cursorBands s n (cand.filter fun x => !(band.any fun y => decide (y.num = x.num)))

/-- The IUs of one band in reading order (R366). -/
def bandUnits (s : State) (units : List SrcUnit) (band : List SuperBlock) : List SrcUnit :=
  let key := fun (u : SrcUnit) => ((unitStripe s u * 16777216 + u.pa / slotsS s) * 16777216 + u.pa % slotsS s) * 16 + u.psub
  sortBy key (units.filter fun u => band.any fun b => decide (b.num = u.pa / slotsS s))

/-- Merge listed IUs into extents of at most 65,536 IUs (R367). -/
def mergeExtents : List (Nat × Nat × Nat) → List (Nat × Nat) → List (Nat × Nat × Nat)
  | acc, [] => acc
  | acc, (ns, iu) :: r =>
    match acc.getLast? with
    | some (n, f, c) => if n = ns ∧ f + c = iu ∧ c < 65536 then mergeExtents (acc.dropLast ++ [(n, f, c + 1)]) r else mergeExtents (acc ++ [(ns, iu, 1)]) r
    | none => mergeExtents [(ns, iu, 1)] r

/-- The extents of the cursor (R366, R367). -/
def cursorExtents (s : State) : List (Nat × Nat × Nat) :=
  let units := cursorUnits s
  let cand := s.media.sbs.filter fun b => decide (b.use ≠ .journal) && decide (b.st = .closed) && units.any fun u => decide (u.pa / slotsS s = b.num)
  let listed := (cursorBands s cand.length cand).flatMap (bandUnits s units)
  mergeExtents [] (listed.filterMap fun u => (mapOwner s u.mi).map fun x => (x.1.nsid, x.2))

/-- CURSOR_READY (R363 step 4): every staged write is Sealed and every copy is applied or stale. The generation rises, or is kept
at a repeat of the steps (R367), and the notice for C5h becomes due again on both controllers. -/
def cursorIsReady (s : State) : State :=
  let s := advanceHorizon (drydownSeal s)
  if s.mediaMode ≠ 2 ∨ !s.upkeep.drydownEntry ∨ s.hk.halt ∨ !s.path.unsealed.isEmpty ∨ !s.path.copies.isEmpty then s
  else
    let s := s.onUpkeep fun u => { u with
      drydownEntry := false, cursorRepeat := false, cursorState := 2, cursor := cursorExtents s
      cursorGen := if u.cursorRepeat then u.cursorGen else u.cursorGen + 1 }
    notice s 0xC5 true

def execCursorReady (s : State) : Host.Outcome State Fault Refusal := .next (cursorIsReady s)

end Sys2Proof.Machine
end

