-- ==== Sys2Proof/Machine/Journal.lean ====
section
/-! DEFINITION. The journal's own work: applying versions under the record rate (R138, R393), closing a chunk by time (R388),
checkpoint segments (R398 to R402), reserving sequence numbers (R394), the end of a refuge flush (R382, R524, R546) and the
release of a refuge set (R413). -/
namespace Sys2Proof.Machine

/-! ### Versions and numbers -/

/-- The version waits only for the record rate of R393. -/
def rateHeld (s : State) (trim : Bool) (id : Nat) : Bool :=
  let late := decide (s.now < s.journal.windowFrom + 100000)
  if trim then
    match s.path.trims.find? fun t => t.id = id with
    | some t => late && decide (2000000 < s.journal.windowBytes + 16 * (2 * t.subs.length + 1))
    | none => false
  else
    let f := getFlacon s id
    late && decide (f.st = .safe) && f.subs.any (fun x => !x.applied && !x.stale)
      && decide (2000000 < s.journal.windowBytes + 32 * f.subs.length)

/-- VERSION_APPLY (R138, R393): the version is applied, or waits while the record rate is reached, which RATE_LIMIT reports. -/
def execVersionApply (trim : Bool) (id : Nat) (s : State) : Host.Outcome State Fault Refusal :=
  .next (if rateHeld s trim id then fire s (mjSource 4) else judgeExposure (applyVersion s trim id))

/-- SEQ_RESERVE (R394): MAP has reached its ceiling, and reserves 2^20 numbers more with a record of the new one. -/
def reserveSeqs (s : State) : State :=
  if s.run ≠ .running ∨ s.fh.latch ∨ s.path.nextSeq ≤ s.path.ceiling then s
  else
    let top := s.path.ceiling + 1048576
    (jot s (.seqReserve top)).onPath fun p => { p with ceiling := top }

def execSeqReserve (s : State) : Host.Outcome State Fault Refusal := .next (reserveSeqs s)

/-- JOURNAL_FLUSH_EXPIRY (R388): the chunk being filled is closed journal_flush_ms after its first record. -/
def expireChunk (s : State) : State :=
  match s.journal.chunks.find? fun c => !c.closed with
  | none => s
  | some c =>
    match c.firstAt with
    | none => s
    | some t => if mediaLive s && elapsed s t (s.policy.journalFlushMs * 1000) then closeChunk s else s

def execJournalFlushExpiry (s : State) : Host.Outcome State Fault Refusal := .next (expireChunk s)

/-! ### Checkpoints -/

/-- Blocks whose erase is under way or suspended: T0 shows them unclean (R398, R403). -/
def erasing (s : State) : List Nat :=
  s.media.dies.flatMap fun e => (e.2.busy.toList ++ e.2.susp.toList).filterMap fun o => match o.kind with
    | .erase b _ _ => some (blockKey e.1 b)
    | _ => none

/-- What a segment holds: its part of the map or of the overlay, the block table, or the Lost-IU log (R398). -/
def segBody (s : State) (i : Nat) : SegBody :=
  let m := mapSegments s
  if i < m then .map (s.path.map.filter fun e => decide (e.1 / 6553600 = i))
  else if i < m + 64 then .overlay (s.path.ovl.filter fun e => decide (e.bucket / 524288 = i - m) && !e.held)
  else if i = m + 64 then
    let under := erasing s
    .blocks (s.media.blocks.map fun e => (e.1, if e.1 ∈ under then { e.2 with unclean := true } else e.2))
  else .lost (s.upkeep.lost.map fun e => (lostBytes e).map BitVec.toNat) s.media.sbSerial

/-- The segment that is written next: one whose page scrub found failing, else the next in turn (R399, R402). -/
def dueSegment (s : State) : Nat := (s.upkeep.segAgain.head?).getD s.journal.nextSegment

/-- Stripes of a segment: 2,049 pages. -/
def segmentStripes : Nat := 129

/-- The segment as it stands: its start position is that of the next record (R398). -/
def newSegment (s : State) (i sb : Nat) : Segment :=
  let at' := match s.journal.chunks.find? fun c => !c.closed with
    | some c => (c.serial, c.recs.length + 1)
    | none => (s.journal.nextSerial, 0)
  { index := i, startChunk := at'.1, startRec := at'.2, iuSize := s.policy.iuSize, codeId := s.image.ldpc.codeId, body := segBody s i
    sb := sb, done := true }

/-- Account for a segment written in turn, or out of turn (R399, R402). -/
def countSegment (s : State) (g : Segment) : State :=
  let turn := s.upkeep.segAgain.isEmpty
  let s := s.onJournal fun j => { j with
    segments := (j.segments.filter fun h => decide (h.index ≠ g.index)) ++ [g]
    chunksSince := if turn then j.chunksSince - 2 else j.chunksSince
    nextSegment := if turn then (g.index + 1) % segmentCount s else j.nextSegment }
  s.onUpkeep fun u => { u with segAgain := u.segAgain.drop 1 }

/-- A segment may start: two chunks have closed since the previous one started, or one is written out of turn (R92, R399, R402, R414). -/
def segmentDue (s : State) : Bool :=
  decide (s.run = .running) && !s.fh.latch && !s.journal.anchor.clean && !systemIdle s
    && (!s.upkeep.segAgain.isEmpty || decide (2 ≤ s.journal.chunksSince))

/-- CHECKPOINT_SEGMENT_START (R398, R399): the segment is programmed into the open journal super-block as one step, and CKPT_DONE follows
(spec/95, CHECKPOINT_SEGMENT_START; log entry 8). -/
def startSegment (s : State) : State :=
  match (if segmentDue s then journalSb s else none) with
  | none => s
  | some b =>
    if stripesIn s 0 * 4 < b.nextSlot + 4 * segmentStripes then s
    else
      let g := { newSegment s (dueSegment s) b.num with first := b.nextSlot / 4 }
      let s := programSystem s b.num segmentStripes (segmentElement s g)
      let s := countSegment (modSb s b.num fun x => { x with segments := x.segments ++ [g.index] }) g
      jot s (.ckptDone g.index g.startChunk g.startRec b.num (b.nextSlot / 4 / diesPerChan s))

def execCheckpointSegmentStart (s : State) : Host.Outcome State Fault Refusal := .next (startSegment s)

/-! ### Refuge sets -/

/-- The controller enters reset after POR_N, and waits for the pin (R546). -/
def holdInReset (s : State) : State :=
  { (enterReset s false s.now).onBoot fun b => { b with nextCause := 1 } with run := .porHeld }

/-- REFUGE_FLUSH_END (R382 step 5): in SAFE the SAFE cause is journalled (R524 step 4); after POR_N the reset follows (R546), else
PLS idles. -/
def flushEnds (s : State) : State :=
  if s.journal.pls ≠ 2 then s
  else
    let s := endFlush s
    let s := if s.fh.latch then s.onBoot fun b => { b with prevSafe := s.fh.safe } else s
    if s.journal.porAfter then holdInReset s
    else if s.run = .safe then s
    else { s with run := .idle }

def execRefugeFlushEnd (s : State) : Host.Outcome State Fault Refusal := .next (flushEnds s)

/-- A version that a flush staged is not yet SAFE (R413). -/
def stagedFrom (s : State) (serial : Nat) : Bool := s.path.flacons.any fun e => decide (e.2.refuge = some serial) && decide (e.2.st ≠ .safe)

/-- REFUGE_SET_RELEASE (R413): every version of the set is SAFE; its blocks are erased and checked before the set stands erased. -/
def releaseSet (s : State) (set : Nat) : State :=
  let r := if set = 0 then s.journal.setA else s.journal.setB
  match r.flush with
  | none => s
  | some f =>
    if r.st ≠ .inUse ∨ s.run ≠ .running ∨ s.fh.latch ∨ stagedFrom s f.serial then s
    else
      let free : RefugeSet := { r with st := .releasing, toErase := r.blocks, flush := none }
      let s := s.onJournal (putSet set free)
      let s := r.blocks.foldl (fun s x => queueOp s x.1 (.erase x.2 .refuge false) (eraseClass .refuge)) s
      refreshRefuge (putAnchor s id)

def execRefugeSetRelease (set : Nat) (s : State) : Host.Outcome State Fault Refusal := .next (releaseSet s set)

end Sys2Proof.Machine
end

