-- ==== Sys2Proof/Machine/Links.lean ====
section
/-! DEFINITION. Pins and links of a port, and its controller's enable: PERST#, REFCLK, link state (R30, R54, R56 to R58, R65, R103, R106,
R548), function-level reset (R63), CC.EN (R160, R565), configuration requests (R548, R561). -/
namespace Sys2Proof.Machine

/-- The port's HFE works: the controller is not in reset, not in a flush and not idle after one (R382, R545, R553). -/
def hfePowered (s : State) (p : PortId) : Bool :=
  decide (p ∈ ports s) && match s.run with
    | .recovery | .running | .safe | .pfWait | .subsystemReset => true
    | _ => false

/-- The HFE works and its link layers are clocked (R30). -/
def hfeRuns (s : State) (p : PortId) : Bool := hfePowered s p && (s.port p).refclk

/-- The owner's link goes down: HELD becomes LINK_DOWN, and the timer starts (R103, R104, R106). -/
def ownerDown (s : State) (p : PortId) : State :=
  if isOwner s p then
    s.onOwn fun o => { o with phase := if o.phase = .held then .linkDown else o.phase, downSince := some (o.downSince.getD s.now) }
  else s

/-- The owner's link comes up: LINK_DOWN and LAPSED become HELD (R106). -/
def ownerUp (s : State) (p : PortId) : State :=
  if isOwner s p then
    s.onOwn fun o => { o with phase := if o.phase = .linkDown ∨ o.phase = .lapsed then .held else o.phase, downSince := none }
  else s

/-- A port whose link is down, in an LTSSM state: speed and width read 0 (R97). -/
def downIn (l : Ltssm) (pt : Port) : Port := { pt with ltssm := l, speed := 0, width := 0, flit := false, laneReversed := false }

/-- The configuration-space items of a port take their reset values (PCI Express base specification, log entry 3). -/
def resetConfig (pt : Port) : Port :=
  { pt with maxPayload := 128, maxReadReq := 512, pmeEn := false, d3hot := false, inL2 := false, pcieOn := [] }

/-- The link of a port ends in an LTSSM state: the port's controller is reset, OWN sees the owner's link go down, and the port's
power selection no longer counts (R56, R95, R106). -/
def linkEnds (s : State) (p : PortId) (l : Ltssm) : State :=
  let s := s.onPort p fun pt => resetConfig (downIn l pt)
  takePs (controllerReset (ownerDown s p) p)

/-! ### PERST# and REFCLK -/

/-- A low pulse of PERST# resets the port: at least 1 µs does, up to 100 ns does not, and in between it may or may not (R548; a
free value). -/
def pulseResets (s : State) (lowNs : Nat) : State × Bool :=
  if 1000 ≤ lowNs then (s, true)
  else if lowNs ≤ 100 then (s, false)
  else ({ s with freeCtr := s.freeCtr + 1 }, Config.freePulse s.freeCtr)

/-- PERST_ASSERT (R56, R65, R97, R548): the pin is low; where the HFE runs, the port is reset, its link registers too, and WAKE#
is released. -/
def perstLow (s : State) (p : PortId) (lowNs : Nat) : State :=
  let (s, hit) := pulseResets s lowNs
  if !hit then s
  else
    let s := s.onPort p fun pt => { pt with perst := true, wake := false, replayCount := 0, fecCorrected := 0 }
    if hfePowered s p then linkEnds s p .detect else s

def execPerstAssert (p : PortId) (lowNs : Nat) (s : State) : Host.Outcome State Fault Refusal := .next (perstLow s p lowNs)

/-- PERST_DEASSERT (R547): the pin is high, and the LTSSM is in Detect. -/
def perstHigh (s : State) (p : PortId) : State :=
  s.onPort p fun pt => if pt.perst then downIn .detect { pt with perst := false } else pt

def execPerstDeassert (p : PortId) (s : State) : Host.Outcome State Fault Refusal := .next (perstHigh s p)

/-- REFCLK_LOSS (R30): the port's PIPE clocks stop, and with them its link layers only: the link carries neither doorbells, window
accesses, configuration requests nor fetches until REFCLK returns or LINK_DOWN is reported (R56). -/
def execRefclkLoss (p : PortId) (s : State) : Host.Outcome State Fault Refusal := .next (s.onPort p fun pt => { pt with refclk := false })

/-- REFCLK_RETURN (R30): the port's link layers can run again. -/
def execRefclkReturn (p : PortId) (s : State) : Host.Outcome State Fault Refusal := .next (s.onPort p fun pt => { pt with refclk := true })

/-! ### Link state -/

/-- LINK_DOWN (R56, R106): the data link layer reports the link down, after the loss of REFCLK among other causes. -/
def linkFalls (s : State) (p : PortId) : State :=
  if hfePowered s p && !linkIsDown (s.port p) then linkEnds s p .detect else s

def execLinkDown (p : PortId) (s : State) : Host.Outcome State Fault Refusal := .next (linkFalls s p)

/-- What a port's link can train to: x1, x2 or, in single x4 mode, x4 (R54); 2.5 to 64 GT/s, in the codes of HFEx_LINK (R57, R97);
64 GT/s in FLIT mode only (R58). -/
def trains (s : State) (speed width : Nat) (flit : Bool) : Bool :=
  (decide (width = 1) || decide (width = 2) || (decide (width = 4) && !s.boot.strapPort))
    && decide (1 ≤ speed) && decide (speed ≤ 6) && (decide (speed ≠ 6) || flit)

/-- LINK_UP (R54, R57, R58, R95, R97, R106): the link reaches L0. It cannot while PERST# is asserted or REFCLK is missing. -/
def linkRises (s : State) (p : PortId) (speed width : Nat) (flit rev : Bool) : State :=
  if !hfeRuns s p || (s.port p).perst || !(s.port p).refclk || !trains s speed width flit then s
  else
    let s := s.onPort p fun pt => { pt with ltssm := .l0, speed := speed, width := width, flit := flit, laneReversed := rev, inL2 := false }
    takePs (ownerUp s p)

def execLinkUp (p : PortId) (speed width : Nat) (flit rev : Bool) (s : State) : Host.Outcome State Fault Refusal :=
  .next (linkRises s p speed width flit rev)

/-- HOT_RESET (R56). -/
def hotResets (s : State) (p : PortId) : State :=
  if hfeRuns s p && linkUp (s.port p) then linkEnds s p .hotReset else s

def execHotReset (p : PortId) (s : State) : Host.Outcome State Fault Refusal := .next (hotResets s p)

/-- LINK_DISABLE (R56). -/
def linkDisabled (s : State) (p : PortId) : State :=
  if hfeRuns s p && linkUp (s.port p) then linkEnds s p .disabled else s

def execLinkDisable (p : PortId) (s : State) : Host.Outcome State Fault Refusal := .next (linkDisabled s p)

/-! ### Controller enable and reset -/

/-- A function-level reset acts as a controller reset of the port; the link stays up (R63, R103). The function returns to D0
with PME_En clear (PCI Express base specification, log entry 3). -/
def flr (s : State) (p : PortId) : State :=
  if hfeRuns s p then controllerReset (s.onPort p fun pt => { pt with d3hot := false, pmeEn := false }) p else s

/-- FUNCTION_LEVEL_RESET (R63). -/
def execFunctionLevelReset (p : PortId) (s : State) : Host.Outcome State Fault Refusal := .next (flr s p)

/-- CC_EN_SET (R525, R565, R566): the controller is enabled; CSTS.RDY sets once recovery has ended, and in SAFE. A controller
whose reset is held stays disabled (R499). -/
def enableCtrl (s : State) (p : PortId) (ams : Nat) : State :=
  let pt := s.port p
  if !hfeRuns s p || pt.ccEn || pt.resetHeld then s
  else
    let ready := decide (s.run = .running) || s.fh.latch
    s.onPort p fun pt => { pt with ccEn := true, ccAms := ams, ccEnAt := s.now, rdy := ready }

def execCcEnSet (p : PortId) (ams : Nat) (s : State) : Host.Outcome State Fault Refusal := .next (enableCtrl s p ams)

/-- CC_EN_CLEAR (R160). -/
def disableCtrl (s : State) (p : PortId) : State := if hfeRuns s p && (s.port p).ccEn then controllerReset s p else s

def execCcEnClear (p : PortId) (s : State) : Host.Outcome State Fault Refusal := .next (disableCtrl s p)

/-- RECOVERY_TIMEOUT (R566): recovery has not ended 25 s after CC.EN became 1, and CSTS.RDY sets without waiting. -/
def readyLate (s : State) (p : PortId) : State :=
  let pt := s.port p
  if s.run = .recovery ∧ pt.ccEn ∧ !pt.rdy ∧ elapsed s pt.ccEnAt 25000000 then
    (s.onPort p fun pt => { pt with rdy := true }).onBoot fun b => { b with lateRdy := true }
  else s

def execRecoveryTimeout (p : PortId) (s : State) : Host.Outcome State Fault Refusal := .next (readyLate s p)

/-! ### Configuration space -/

/-- Largest power of two within bounds is a legal size field (R63). -/
def sizeOk (lo hi b : Nat) : Bool := decide (b ∈ [128, 256, 512, 1024, 2048, 4096]) && within lo hi b

/-- Identity bytes of the configuration space: vendor, device, revision, class code, subsystem (R562, R587). -/
def cfgBytes (i : Identity) : List Byte :=
  leBytes 2 i.vid ++ leBytes 2 i.did ++ leBytes 1 i.revisionId ++ leBytes 3 i.classCode ++ leBytes 2 i.ssvid ++ leBytes 2 i.ssid

/-- Support of a feature: 0 none, 1 partial, 2 full, by R63's table; in dual x2 mode L1 PM Substates are reported as not supported
(R64). -/
def pcieSupport (dual : Bool) (f : PcieFeature) : Nat :=
  match f with
  | .msi | .pme => 1
  | .l0p | .l1Substates => if dual then 0 else 1
  | .intx | .aspmL0s | .other => 0
  | _ => 2

/-- What a read of a base address register tells: its size in bytes, and its kind: 1 for the low half of a 64-bit non-prefetchable
memory BAR, 2 for its high half, 0 for one that is not implemented (R66). -/
def barShape (n : Nat) : Nat × Nat :=
  if n = 0 then (0x4000, 1) else if n = 1 then (0x4000, 2) else if n = 2 then (0x100000, 1) else if n = 3 then (0x100000, 2) else (0, 0)

/-- Features that a host switches on and off (R63); 14-bit tags need FLIT mode. -/
def controlled (p : Port) (f : PcieFeature) : Bool :=
  match f with
  | .relaxedOrdering | .idOrdering | .tags10 | .ecrc | .aer | .msi | .msix | .aspmL1 | .l0p | .l1Substates => true
  | .tags14 => p.flit
  | _ => false

/-- Switch a feature that the function supports on or off (R63). -/
def setControl (dual : Bool) (f : PcieFeature) (on : Bool) (p : Port) : Port :=
  if !controlled p f || decide (pcieSupport dual f = 0) then p
  else { p with pcieOn := if on then (if f ∈ p.pcieOn then p.pcieOn else f :: p.pcieOn) else p.pcieOn.filter (· ≠ f) }

/-- The link enters L1 from L0 where ASPM L1 is on or the function is in D3hot, and returns to L0 (R63, R97). -/
def setL1 (on : Bool) (p : Port) : Port :=
  if on then (if p.ltssm = .l0 ∧ (.aspmL1 ∈ p.pcieOn ∨ p.d3hot) then { p with ltssm := .l1 } else p)
  else if p.ltssm = .l1 then { p with ltssm := .l0 } else p

/-- L0p takes a x4 link to x2 and back, in single x4 mode (R63, R97). -/
def setL0p (dual on : Bool) (p : Port) : Port :=
  if on then (if !dual ∧ p.ltssm = .l0 ∧ p.width = 4 ∧ .l0p ∈ p.pcieOn then { p with ltssm := .l0p, width := 2 } else p)
  else if p.ltssm = .l0p then { p with ltssm := .l0, width := 4 } else p

/-- In a handover the old owner's writes under way end at once where its link goes down (R119). -/
def endHandoverWrites (s : State) (p : PortId) : State :=
  if s.own.phase = .handover ∧ isOwner s p then ((s.port p).cmds.filter underWay).foldl endSilently s else s

/-- L2 is entered or left: in L2 link_up reads 0, so the link counts as down (R97, R103, R119). -/
def setL2 (s : State) (p : PortId) (on : Bool) : State :=
  if on && linkUp (s.port p) then
    takePs (endHandoverWrites (ownerDown (s.onPort p fun pt => { downIn .l2 pt with inL2 := true }) p) p)
  else if !on && (s.port p).inL2 then s.onPort p fun pt => { downIn .detect pt with inL2 := false }
  else s

/-- CONFIGURATION_REQUEST (R548, R561, R572): before the identity is loaded the answer is Request Retry Status and nothing changes. -/
def configure (s : State) (p : PortId) (r : CfgReq) : State :=
  match configIdentity s with
  | none => s
  | some i =>
    if !hfeRuns s p then s
    else match r with
      | .readId => s.onPort p fun pt => { pt with hostData := cfgBytes i }
      | .readSupport f => s.onPort p fun pt => { pt with hostData := leBytes 1 (pcieSupport s.boot.strapPort f) }
      | .readBar n => s.onPort p fun pt => { pt with hostData := leBytes 4 (barShape n).1 ++ leBytes 1 (barShape n).2 }
      | .setControl f on => s.onPort p (setControl s.boot.strapPort f on)
      | .setL1 on => s.onPort p (setL1 on)
      | .setL0p on => s.onPort p (setL0p s.boot.strapPort on)
      | .setMaxPayload b => if sizeOk 128 1024 b then s.onPort p fun pt => { pt with maxPayload := b } else s
      | .setMaxReadRequest b => if sizeOk 128 4096 b then s.onPort p fun pt => { pt with maxReadReq := b } else s
      | .setPmeEn on => s.onPort p fun pt => { pt with pmeEn := on }
      | .setPowerD3hot on => s.onPort p fun pt => { pt with d3hot := on }
      | .setL2 on => setL2 s p on
      | .initiateFlr => flr s p

def execConfigurationRequest (p : PortId) (r : CfgReq) (s : State) : Host.Outcome State Fault Refusal := .next (configure s p r)

end Sys2Proof.Machine
end

