-- ==== Sys2Proof/Machine/Namespaces.lean ====
section
/-! DEFINITION. Namespaces (R177, R179, R78), Format NVM (R179, R633), Sanitize (R634 to R636), and the end of DRYDOWN that a
Sanitize shares with Drydown Control (R369). -/
namespace Sys2Proof.Machine

/-! ### Keys -/

/-- Draw a namespace key (R628). -/
def drawKey (s : State) : State × BitVec 512 := ({ s with freeCtr := s.freeCtr + 1 }, Config.freeKey s.freeCtr)

/-- A slot of the key store (R630). -/
def keySlot (kek : BitVec 256) (n : Namespace) : List Byte :=
  leBytes 1 n.nsid ++ leBytes 7 0 ++ keyWrap (leBytes 32 kek.toNat) (leBytes 64 n.key.toNat) ++ leBytes 16 0

/-- A copy of the key store with a serial (R630). -/
def keyStoreCopy (s : State) (serial : Nat) : List Byte :=
  let san : Nat := match s.sec.sanitize with
    | .none => 0
    | .crypto => 1
    | .block => 2
  let slots := (s.path.spaces.take 32).flatMap (keySlot s.sec.kek)
  let b := leBytes 8 serial ++ leBytes 1 san ++ leBytes 7 0 ++ slots ++ List.replicate (4092 - 16 - slots.length) 0
  b ++ leBytes 4 (crc32c b).toNat

/-- SEC writes the copy of the key store with the older serial, A and B in turn; the keys of all namespaces take effect with it (R630,
R631). -/
def writeKeyStore (s : State) : State :=
  let serial := s.sec.keySerial + 1
  let copy := keyStoreCopy s serial
  s.onSec fun x => { x with
    keyStore := s.path.spaces.map fun n => (n.nsid, n.key), keySerial := serial
    storeA := if serial % 2 = 1 then copy else x.storeA, storeB := if serial % 2 = 0 then copy else x.storeB }

/-- Change one namespace. -/
def modNs (s : State) (nsid : Nat) (f : Namespace → Namespace) : State :=
  s.onPath fun p => { p with spaces := p.spaces.map fun n => if n.nsid = nsid then f n else n }

/-- A namespace receives a new key. -/
def rekey (s : State) (nsid : Nat) : State :=
  let (s, k) := drawKey s
  modNs s nsid fun n => { n with key := k }

/-! ### Trimming a namespace -/

/-- A map index lies in the namespace's segments. -/
def inNs (s : State) (n : Namespace) (mi : Nat) : Bool := decide (mi / perSeg s ∈ n.segs)

/-- Every version that the staging index holds for the namespace becomes stale; copies and read-ahead data of it are dropped.
Versions that MAP has not accepted are not affected (R179, R291). -/
def staleStaged (s : State) (n : Namespace) : State :=
  let waits := (s.path.trims.filter fun t => decide (t.nsid = n.nsid)).map (·.seq)
  let s := s.onPath fun p => { p with
    flacons := p.flacons.map fun e => (e.1, { e.2 with subs := e.2.subs.map fun x =>
      if x.nsid = n.nsid ∧ x.seq ≠ 0 then { x with stale := true } else x })
    trims := p.trims.filter fun t => !decide (t.nsid = n.nsid)
    copies := p.copies.map fun c => if c.nsid = n.nsid then { c with dead := true } else c
    bufs := p.bufs.filter fun b => !decide (b.nsid = n.nsid)
    applied := p.applied.filter fun e => !inNs s n (e.1 / 16) }
  waits.foldl (fun s q => match cmdOfSeq s q with
    | some c => protectIfDone s c.port c.sq c.entry.cid
    | none => s) s

/-- Remove one overlay entry of the namespace; a reservation that a version not yet accepted holds stays (R179, R191). -/
def trimOverlay (n : Namespace) (s : State) (e : OvlEntry) : State :=
  match mapOwner s e.mapIndex with
  | some (_, iu) => if e.held then ovlRelease s n iu [e.sub] else ovlRemove s n iu e.sub 0
  | none => s

/-- Set every map entry of the namespace's segments to trimmed and remove its overlay entries, journalled entry by entry
(R179; DEDUCED, log entry 17). -/
def clearNs (s : State) (n : Namespace) : State :=
  let s := staleStaged s n
  let s := ((s.path.map.map (·.1)).filter (inNs s n)).foldl (fun s mi => setBase (bumpVer s mi) mi none 0) s
  let s := (s.path.ovl.filter fun e => inNs s n e.mapIndex).foldl (trimOverlay n) s
  advanceHorizon s

/-! ### Namespace Management -/

/-- Segments that no namespace holds, ascending (R177). -/
def freeSegs (s : State) : List Nat :=
  let used := s.path.spaces.flatMap (·.segs)
  (List.range (driveSegs s)).filter fun g => !decide (g ∈ used)

/-- Segments a namespace needs (R177). -/
def segsFor (nsze flbas : Nat) : Nat := ceilDiv (nsze * (if flbas = 0 then 4096 else 512)) 1073741824

/-- Namespace Management create (R177, R628, R645); the statuses of a wrong size or format are the base specification's. -/
def createNs (a : AdminId) (nsze flbas : Nat) (handles : List Nat) (s : State) : State :=
  let free := freeSegs s
  let need := segsFor nsze flbas
  let ids := (List.range 33).filter fun i => decide (0 < i) && (findNs s i).isNone
  if 1 < flbas then adminDone s a .invalidFormat
  else if nsze = 0 then adminDone s a .invalidField
  else if handles.any (fun h => decide (s.policy.fdpRuhCount ≤ h)) || !decide handles.Nodup then adminDone s a .invalidField
  else match ids with
    | [] => adminDone s a .nsIdUnavailable
    | nsid :: _ =>
      if free.length < need then adminDone s a .nsInsufficientCapacity
      else
        let (s, k) := drawKey s
        let n : Namespace := { nsid := nsid, nsze := nsze, flbas := flbas, segs := free.take need
                               handles := if handles.isEmpty then List.range s.policy.fdpRuhCount else handles
                               attached := false, key := k }
        let s := clearNs (s.onPath fun p => { p with spaces := p.spaces ++ [n] }) n
        adminDone (writeKeyStore s) a .success (BitVec.ofNat 32 nsid)

/-- Remove one namespace (R179): its map is trimmed, its segments are free, and its Lost-IU entries go (R354). -/
def removeNs (s : State) (n : Namespace) : State :=
  let s := clearNs s n
  cleanLost (s.onPath fun p => { p with spaces := p.spaces.filter fun x => decide (x.nsid ≠ n.nsid) })

/-- Namespaces that an identifier names: one, or with FFFFFFFFh all (base specification). -/
def namedNs (s : State) (nsid : Nat) : List Namespace :=
  if nsid = 0xFFFFFFFF then s.path.spaces else (findNs s nsid).toList

/-- Namespace Management delete (R179). -/
def deleteNs (a : AdminId) (nsid : Nat) (s : State) : State :=
  match namedNs s nsid with
  | [] => adminDone s a (if nsid = 0xFFFFFFFF then .success else .invalidNamespace)
  | l => adminDone (writeKeyStore (l.foldl removeNs s)) a .success

/-- The list names every controller of the NVM subsystem and no other (R78). -/
def everyCtrl (s : State) (ctrls : List Nat) : Bool :=
  (allCtrls s).all (fun c => decide (c ∈ ctrls)) && ctrls.all fun c => decide (c ∈ allCtrls s)

/-- Namespace Attachment (R78): for every controller or for none; attaching twice, or detaching what is not attached, has the
base specification's status. -/
def setAttached (a : AdminId) (nsid : Nat) (ctrls : List Nat) (on : Bool) (s : State) : State :=
  match findNs s nsid with
  | none => adminDone s a .invalidNamespace
  | some n =>
    if !everyCtrl s ctrls then adminDone s a .controllerListInvalid
    else if n.attached = on then adminDone s a (if on then .nsAlreadyAttached else .nsNotAttached)
    else adminDone (modNs s nsid fun x => { x with attached := on }) a .success

/-- Format one namespace (R179, R633): with a Secure Erase Setting of 1 or 2 its key is replaced first. The size in bytes stays
(base specification). -/
def formatOne (ses lbaf : Nat) (s : State) (n : Namespace) : State :=
  let s := if ses = 0 then s else rekey s n.nsid
  let s := clearNs s n
  let size := n.nsze * (if n.flbas = 0 then 4096 else 512) / (if lbaf = 0 then 4096 else 512)
  cleanLost (modNs s n.nsid fun x => { x with flbas := lbaf, nsze := size })

/-- Format NVM (R179, R633). -/
def formatNs (a : AdminId) (nsid ses lbaf : Nat) (s : State) : State :=
  if 2 < ses then adminDone s a .invalidField
  else if 1 < lbaf then adminDone s a .invalidFormat
  else match namedNs s nsid with
    | [] => adminDone s a (if nsid = 0xFFFFFFFF then .success else .invalidNamespace)
    | l =>
      let s := l.foldl (formatOne ses lbaf) s
      adminDone (if ses = 0 then s else writeKeyStore s) a .success

/-! ### The end of DRYDOWN -/

/-- DRYDOWN ends (R369): PRESERVE if a condition of R358 holds, NORMAL otherwise, and the cursor log reports no extents. -/
def endDrydown (s : State) : State :=
  let mode := if preserveCond s then 1 else 0
  let t := putAnchor { s with mediaMode := mode } fun x => { x with mediaMode := mode }
  pmeOnChange s (t.onUpkeep fun u => { u with drydownEntry := false, cursorState := 0, cursor := [], cursorRepeat := false })

/-! ### Sanitize -/

/-- A map-changing command that a Sanitize finds outstanding ends, for the Sanitize discards its data (R634 step 1). -/
def endForSanitize (s : State) (c : OutCmd) : State :=
  if isWriteOp c.entry.op then ioDone (if c.prot then s else discardWrite s c) c.port c.sq c.entry.cid .sanitizeInProgress else s

/-- Staged writes are discarded and their numbers retire (R634 step 1): a flacon that is not packed returns to FREE, and what
is packed is stale. -/
def discardStaging (s : State) : State :=
  let s := ((s.portA.cmds ++ s.portB.cmds).foldl endForSanitize s)
  -- what is dropped before it is programmed is no longer claimed (R217)
  let packed := fun (f : Flacon) => decide (f.st = .packed) || decide (f.st = .programmed) || decide (f.st = .safe) || decide (0 < f.pins)
  let s := s.onPath fun p => { p with
    flacons := (p.flacons.filter fun e => packed e.2).map fun e => (e.1, { e.2 with subs := e.2.subs.map fun x => { x with stale := true } })
    claimed := p.claimed - sumOf (fun (e : Nat × Flacon) => if packed e.2 then 0 else e.2.subs.length) p.flacons
    trims := [], applied := []
    unsealed := p.unsealed.map fun r => { r with sealedSelf := true } }
  advanceHorizon s

/-- Steps 2 and 3 (R634): every namespace receives a new key in one key store copy; every map entry is trimmed, the overlay is
emptied and the Lost-IU log is cleared. -/
def trimAll (s : State) : State :=
  let s := (s.path.spaces.map (·.nsid)).foldl rekey s
  let s := writeKeyStore s
  let s := s.path.spaces.foldl clearNs s
  cleanLost (s.onPath fun p => { p with ovl := [] })

/-- Start a Sanitize (R634): it completes at t0, and steps 1, which writes the sanitize state to the key store, and 2 follow; step 3 ends
with SANITIZE_TRIM_END. -/
def startSanitize (a : AdminId) (kind : SanState) (s : State) : State :=
  if sanitizing s then adminDone s a .sanitizeInProgress
  else
    let s := adminDone s a .success
    let s := discardStaging s
    let s := if s.mediaMode = 2 then endDrydown s else s
    trimAll (writeKeyStore (s.onSec fun x => { x with sanitize := kind, sanStep := 3 }))

/-- Step 5 (R634): the sanitize state of the key store returns to none, and fetching resumes. -/
def endSanitize (s : State) : State := writeKeyStore (s.onSec fun x => { x with sanitize := .none, sanStep := 0, sanRerun := false })

/-- SANITIZE_TRIM_END (R634): step 3 ends; a crypto erase ends with it, and a block erase goes on with step 4, for which the
array operations of the old super-blocks go. -/
def trimEnds (s : State) : State :=
  if s.sec.sanStep ≠ 3 then s
  else if s.sec.sanitize = .block then
    (resetDies s).onSec fun x => { x with sanStep := 4 }
  else endSanitize s

/-- One block of a die is erased (R634 step 4), with its journal records (R391). -/
def wipeBlock (die : Nat) (s : State) (block : Nat) : State :=
  let n := (getBlock s die block).erases + 1
  let s := jot (jot s (.eraseBegin die block)) (.eraseEnd die block n)
  let keep := fun (p : Pool) => if p = .refuge then Pool.refuge else Pool.erased
  let s := modBlock s die block fun b => { b with erases := n, unclean := false, pool := keep b.pool }
  s.onMedia fun m => { m with pages := m.pages.filter fun e => e.1 < pageKey die block 0 ∨ pageKey die (block + 1) 0 ≤ e.1 }

/-- Blocks of a die that step 4 erases: not retired, not of a journal super-block (R634). -/
def wiped (s : State) (die : Nat) : List Nat :=
  (List.range s.geo.blocksPerDie).filter fun b =>
    decide ((getBlock s die b).pool ≠ .retired) && !decide (blockKey die b ∈ journalBlocks s)

/-- SANITIZE_ERASE_END (R634 steps 4 and 5): every block outside the journal's super-blocks is erased but for retired blocks and
lost members, and both refuge sets stand erased. -/
def erasesEnd (s : State) : State :=
  if s.sec.sanStep ≠ 4 then s
  else
    let s := ((allDies s).filter fun d => !dieLost s d).foldl (fun s d => (wiped s d).foldl (wipeBlock d) s) s
    let gone := (s.media.sbs.filter fun b => decide (b.use ≠ .journal)).map (·.num)
    let s := s.onMedia fun m => { m with
      sbs := m.sbs.filter fun b => decide (b.use = .journal)
      stripes := m.stripes.filter fun t => !decide (t.sb ∈ gone) }
    let s := s.onPath fun p => { p with flacons := [], copies := [], jobs := p.jobs.filter fun j => !decide (j.sb ∈ gone), claimed := 0 }
    let s := s.onUpkeep fun u => { u with class1 := [], class2 := [], wearing := none, relocate := [] }
    let fresh := fun (r : RefugeSet) => { r with st := .erased, toErase := [], flush := none }
    let s := putAnchor (s.onJournal fun j => { j with setA := fresh j.setA, setB := fresh j.setB }) id
    endSanitize (advanceHorizon s)

/-! ### Commands -/

/-- NAMESPACE_MANAGEMENT_CREATE (R177). -/
def execNamespaceCreate (a : AdminId) (nsze flbas : Nat) (handles : List Nat) (s : State) : Host.Outcome State Fault Refusal :=
  .next (adminCmd s a .drive (.namespaceCreate a nsze flbas handles) (createNs a nsze flbas handles))

/-- NAMESPACE_MANAGEMENT_DELETE (R179). -/
def execNamespaceDelete (a : AdminId) (nsid : Nat) (s : State) : Host.Outcome State Fault Refusal :=
  .next (adminCmd s a .drive (.namespaceDelete a nsid) (deleteNs a nsid))

/-- NAMESPACE_ATTACH (R78). -/
def execNamespaceAttach (a : AdminId) (nsid : Nat) (ctrls : List Nat) (s : State) : Host.Outcome State Fault Refusal :=
  .next (adminCmd s a .drive (.namespaceAttach a nsid ctrls) (setAttached a nsid ctrls true))

/-- NAMESPACE_DETACH (R78). -/
def execNamespaceDetach (a : AdminId) (nsid : Nat) (ctrls : List Nat) (s : State) : Host.Outcome State Fault Refusal :=
  .next (adminCmd s a .drive (.namespaceDetach a nsid ctrls) (setAttached a nsid ctrls false))

/-- FORMAT_NVM (R179, R633). -/
def execFormatNvm (a : AdminId) (nsid ses lbaf : Nat) (s : State) : Host.Outcome State Fault Refusal :=
  .next (adminCmd s a .drive (.formatNvm a nsid ses lbaf) (formatNs a nsid ses lbaf))

/-- SANITIZE_CRYPTO_ERASE (R634). -/
def execSanitizeCryptoErase (a : AdminId) (s : State) : Host.Outcome State Fault Refusal :=
  .next (adminCmd s a .drive (.sanitizeCryptoErase a) (startSanitize a .crypto))

/-- SANITIZE_BLOCK_ERASE (R634). -/
def execSanitizeBlockErase (a : AdminId) (s : State) : Host.Outcome State Fault Refusal :=
  .next (adminCmd s a .drive (.sanitizeBlockErase a) (startSanitize a .block))

/-- SANITIZE_TRIM_END (R634). -/
def execSanitizeTrimEnd (s : State) : Host.Outcome State Fault Refusal := .next (trimEnds s)

/-- SANITIZE_ERASE_END (R634). -/
def execSanitizeEraseEnd (s : State) : Host.Outcome State Fault Refusal := .next (erasesEnd s)

end Sys2Proof.Machine
end

