-- ==== Sys2Proof/Machine/Recovery.lean ====
section
/-! DEFINITION. Recovery (R405 to R412): checkpoints and journal are replayed into the map and the overlay, open super-blocks are
closed, the refuge sets are staged again, and the drive becomes ready. The block table, the descriptors, the namespace table, the
Lost-IU log and the ceiling are held through reset as what their records say (DEDUCED, log entry 18). -/
namespace Sys2Proof.Machine

/-! ### Sillage on the media -/

/-- A data codeword found by its sillage (R407, R408). -/
structure Hit where
  nsid  : Nat
  iu    : Nat
  sub   : Nat
  kind  : Nat
  seq   : Nat
  pa    : Nat
  psub  : Nat
  epoch : Nat
  data  : Blk
  deriving DecidableEq, Repr

/-- The decoded codewords of an element's page whose sillage passes its checks; where the tag fails the sillage is ignored (R234,
R235). -/
def decodedPage (s : State) (b : SuperBlock) (k j : Nat) : Option (List CwBits) :=
  (pageWords s b k j).filter fun vs => !(crcFails vs || tagFails s vs)

/-- The data codewords of one element. -/
def elemHits (s : State) (b : SuperBlock) (k j : Nat) : List Hit :=
  match decodedPage s b k j with
  | none => []
  | some vs =>
    let slot := k * iusPerStripe s + j / elemsPerIu s
    let epoch := leNat (((pageRecord vs).drop 52).take 4)
    ((List.range 4).zip vs).filterMap fun x =>
      let e := cwEntry x.2
      if entryKind e ≤ 1 then
        some { nsid := entryNsid e, iu := entryIu e, sub := entrySub e, kind := entryKind e, seq := entrySeq e, pa := paOf s b.num slot
               psub := j % elemsPerIu s * 4 + x.1, epoch := epoch, data := cwData x.2 }
      else none

/-- Every data codeword on the media outside the journal's super-blocks. -/
def mediaHits (s : State) : List Hit :=
  (s.media.sbs.filter fun b => decide (b.use ≠ .journal)).flatMap fun b =>
    (List.range (stripesIn s b.mode)).flatMap fun k => (List.range 16).flatMap (elemHits s b k)

/-- Sequence number that the page at a place carries for a sub-unit; 0 where it does not decode. -/
def seqAt (s : State) (pa psub : Nat) : Nat :=
  let r := resolve s pa
  let (j, c) := subElem s r.slot psub
  match findSb s r.sb with
  | none => 0
  | some b => match decodedPage s b r.k j with
    | some vs => entrySeq (cwEntry (nth 0 vs c))
    | none => 0

/-- Sequence number of what the map points to for a sub-unit. -/
def mappedSeq (s : State) (mi sub : Nat) : Nat :=
  match selMap s mi sub with
  | .media pa psub _ => seqAt s pa psub
  | _ => 0

/-! ### Replay -/

/-- Set or remove an overlay entry as a record says. -/
def replayOvl (s : State) (mi sub : Nat) (trimmed remove : Bool) (pa psub seq : Nat) : State :=
  let others := s.path.ovl.filter fun e => !(decide (e.mapIndex = mi) && decide (e.sub = sub))
  let s := s.onPath fun p => { p with ovl := others }
  if remove then s
  else match ovlFree s mi with
    | none => s
    | some (b, pl) => s.onPath fun p => { p with ovl := p.ovl ++ [OvlEntry.mk b pl (seq % 2 ^ 48) psub pa trimmed sub mi false] }

/-- The newest completed copy of each segment that can be read (R405 step 1, R408). -/
def loadable (s : State) (env : RecoveryEnv) : List Segment :=
  (currentSegments s).filter fun g => !decide (g.index ∈ env.lostSegments)

/-- Load one segment. -/
def loadSegment (s : State) (g : Segment) : State :=
  match g.body with
  | .map es => es.foldl (fun s e => putMap s e.1 e.2) s
  | .overlay l => s.onPath fun p => { p with ovl := p.ovl ++ l }
  | _ => s

/-- Start position of a loaded segment; 0 where it is not loaded, so that every record counts. -/
def startOf (gs : List Segment) (i : Nat) : Nat :=
  match gs.find? fun g => g.index = i with
  | some g => recPos g.startChunk g.startRec
  | none => 0

/-- Start position of the overlay segments that cover an IU's probe buckets. -/
def ovlStart (s : State) (gs : List Segment) (mi : Nat) : Nat :=
  (((probeBuckets mi).map fun b => startOf gs (mapSegments s + b / 524288)).min?).getD 0

/-- A record from the tail copy of the newest refuge flush that holds it, and not under poison (R407, R442). -/
def tailRec (s : State) (chunk i : Nat) : Option Rec :=
  let fs := [s.journal.setA, s.journal.setB].filterMap fun r => if r.st = .inUse then r.flush else none
  let held := (fs.filter fun f => !decide ((chunk, i) ∈ f.badTail)).filterMap fun f => ((f.tail.find? fun c => c.serial = chunk).bind fun c => c.recs[i - 1]?).map fun r => (f.serial, r)
  (minBy (fun x => 18446744073709551616 - x.1) held).map (·.2)

/-- The records as recovery reads them: position, record (none where it is lost), and whether it came from a refuge copy. -/
def readRecs (s : State) (env : RecoveryEnv) : List (Nat × Option Rec × Bool) :=
  s.journal.chunks.flatMap fun c => ((List.range c.recs.length).zip (ringRecs c)).map fun x =>
    let i := x.1 + 1
    let pos := recPos c.serial i
    if !c.inDelta && decide ((c.serial, i) ∈ env.badRingRecords) then
      (match tailRec s c.serial i with
       | some r => (pos, some r, true)
       | none => (pos, none, false))
    else (pos, some x.2, false)

/-- Apply one record to map and overlay (R406), noting the number it gives each sub-unit (R191). -/
def applyRec (gs : List Segment) (acc : State × Tbl Nat) (x : Nat × Option Rec × Bool) : State × Tbl Nat :=
  let (s, nums) := acc
  match x.2.1 with
  | some (.mapSet mi e seq) =>
    if x.1 < startOf gs (mi / 6553600) then acc
    else
      let note := fun (t : Tbl Nat) (i : Nat) => tput 0 t (mi * 16 + i) (max seq (tget 0 t (mi * 16 + i)))
      (putMap s mi e, if e.poisoned then nums else (List.range (subsPerIu s)).foldl note nums)
  | some (.ovlSet mi sub trimmed remove pa psub seq) =>
    if x.1 < ovlStart s gs mi then acc
    else (replayOvl s mi sub trimmed remove pa psub seq, tput 0 nums (mi * 16 + sub) (max seq (tget 0 nums (mi * 16 + sub))))
  | _ => acc

/-- Apply a page found by a scan: its version is taken for a sub-unit where it is above what the map points to (R407). -/
def applyHit (s : State) (h : Hit) : State :=
  match findNs s h.nsid with
  | none => s
  | some n =>
    let mi := mapIndex s n h.iu
    if h.seq ≤ mappedSeq s mi h.sub ∨ (getMap s mi).poisoned then s
    else if h.kind = 1 then
      jot (fixOverlayBit (replayOvl s mi h.sub false false h.pa h.psub h.seq) mi) (.ovlSet mi h.sub false false h.pa h.psub h.seq)
    else
      let e : MapEntry := { overlay := (getMap s mi).overlay, poisoned := false, trimmed := false, valid := true, pa := h.pa }
      let s := jot (putMap s mi e) (.mapSet mi e h.seq)
      match ovlFind s mi h.sub with
      | some o => jot (fixOverlayBit (replayOvl s mi h.sub false true 0 0 h.seq) mi) (.ovlSet mi h.sub o.trimmed true o.pa o.psub h.seq)
      | none => s

/-- Apply a scan's pages in ascending number. -/
def applyHits (s : State) (l : List Hit) : State := (sortBy (·.seq) l).foldl applyHit s

/-- Valid counts as map and overlay have them (R187, R405 step 1). -/
def recount (s : State) : State :=
  let of := fun (n : Nat) => sumOf (fun e => if e.2.valid && decide (e.2.pa / slotsS s = n) then subsPerIu s else 0) s.path.map
    + (s.path.ovl.filter fun e => !e.held && !e.trimmed && decide (e.pa / slotsS s = n)).length
  s.onMedia fun m => { m with sbs := m.sbs.map fun b => { b with valid := of b.num } }

/-- The overlay bits of the map as the overlay has them (R180). -/
def fixBits (s : State) : State := ((s.path.ovl.map (·.mapIndex)).dedup ++ s.path.map.map (·.1)).foldl fixOverlayBit s

/-- Set bit i of MJ_RECOVERY (R416). -/
def noteRec (s : State) (i : Nat) (on : Bool) : State := if on then s.onJournal fun j => { j with recBits := setBit j.recBits i } else s

/-- Steps 1 to 3 (R405 to R408): segments are loaded or rebuilt, and every record in order completes them. The second result holds
the numbers that the records give sub-units. -/
def replay (s : State) (env : RecoveryEnv) : State × Tbl Nat :=
  let gs := loadable s env
  let s := gs.foldl loadSegment s
  let m := mapSegments s
  let rebuilt := !env.lostSegments.isEmpty
  let inLost := fun (h : Hit) => match findNs s h.nsid with
    | none => false
    | some n =>
      let mi := mapIndex s n h.iu
      decide (mi / 6553600 ∈ env.lostSegments) || (probeBuckets mi).any fun b => decide (m + b / 524288 ∈ env.lostSegments)
  let s := if rebuilt then (applyHits s ((mediaHits s).filter inLost)).onBoot fun b => { b with mapRebuilt := true } else s
  let recs := readRecs s env
  let (s, nums) := recs.foldl (applyRec gs) (s, [])
  let lostAt := (recs.filter fun x => x.2.1.isNone).map fun x => x.1 / 65536 % 4294967296
  let s := match lostAt.min? with
    | some e => applyHits (fixBits s) ((mediaHits s).filter fun h => decide (e ≤ h.epoch))
    | none => s
  let s := noteRec (noteRec s 2 (recs.any fun x => x.2.2)) 3 (!lostAt.isEmpty)
  (recount (fixBits (noteRec s 4 rebuilt)), nums)

/-! ### Open blocks -/

/-- Blocks with an erase begun and not ended, from T0 onward (R403, R406). -/
def uncleanBlocks (s : State) (env : RecoveryEnv) : List Nat :=
  let gs := loadable s env
  let t0 := startOf gs (mapSegments s + 64)
  let listed := gs.flatMap fun g => match g.body with
    | .blocks t => (t.filter fun e => e.2.unclean).map (·.1)
    | _ => []
  (readRecs s env).foldl (fun acc x => if x.1 < t0 then acc else match x.2.1 with
    | some (.eraseBegin d b) => addOnce (blockKey d b) acc
    | some (.eraseEnd d b _) => acc.filter (· ≠ blockKey d b)
    | _ => acc) listed

/-- A block is marked unclean and goes to the dirty pool; whoever held it no longer does (R403). -/
def markUnclean (s : State) (key : Nat) : State :=
  match (allDies s).find? fun d => blockKey d 0 ≤ key ∧ key < blockKey (d + 1) 0 with
  | none => s
  | some d =>
    let b := key - blockKey d 0
    let x := getBlock s d b
    if x.pool = .retired then s
    else
      let inRefuge := decide ((d, b) ∈ s.journal.setA.blocks) || decide ((d, b) ∈ s.journal.setB.blocks)
      let s := jot s (.blockPool d b .dirty)
      let s := modBlock s d b fun y => { y with pool := .dirty, unclean := true }
      if inRefuge then replaceBlock s d b .refuge
      else
        let out := fun (sb : SuperBlock) (i : Nat) =>
          if sbDie s sb (i / diesPerChan s) (i % diesPerChan s) = d ∧ nth 0 sb.blocks i = b then noBlock else nth 0 sb.blocks i
        s.onMedia fun m => { m with sbs := m.sbs.map fun sb => { sb with blocks := (List.range sb.blocks.length).map (out sb) } }

/-- Erases of a refuge set that waits for them are queued again (R413). -/
def requeueSet (s : State) (r : RefugeSet) : State :=
  if r.st = .releasing then r.toErase.foldl (fun s x => queueOp s x.1 (.erase x.2 .refuge false) (eraseClass .refuge)) s else s

/-- Position of a block below which every page is written: it is read until a page is reported erased (R228, R409). -/
def lastPosition (s : State) (b : SuperBlock) (idx : Nat) : Nat :=
  let m := idx / diesPerChan s
  let d := idx % diesPerChan s
  let q := (List.range (positions s b.mode)).find? fun q => isErasedCw (pageCw s (sbDie s b m d) (sbBlock s b m d) q 0)
  q.getD (positions s b.mode)

/-- The passes of a super-block as its blocks are found: those that ended with their last pass (R409). -/
def foundPasses (s : State) (b : SuperBlock) : SuperBlock :=
  { b with passes := (List.range b.blocks.length).map fun i => (i, lastPosition s b i / ppwOf b.mode, lastPosition s b i / ppwOf b.mode) }

/-- A parity element has a page on the media that decodes (R324). -/
def parityDecodes (s : State) (env : RecoveryEnv) (b : SuperBlock) (k j : Nat) : Bool :=
  let m := memberSlot s k j
  let d := k % diesPerChan s
  let written := (tget none s.media.pages (pageKey (sbDie s b m d) (sbBlock s b m d) (k / diesPerChan s))).elim false fun p => !p.cws.isEmpty
  written && !decide ((b.num, k, j) ∈ env.badParity)

/-- The page of a parity element that does not decode holds nothing: it is unavailable in its stripe (R307, R324). -/
def dropParity (s : State) (b : SuperBlock) (k j : Nat) : State :=
  let m := memberSlot s k j
  let d := k % diesPerChan s
  s.onMedia fun x => { x with pages := tput none x.pages (pageKey (sbDie s b m d) (sbBlock s b m d) (k / diesPerChan s)) none }

/-- The parity reads of one stripe (R324): data complete, a parity element not. One that decodes counts as programmed; with one that
does not, the units of the stripe are relocated. -/
def parityReads (env : RecoveryEnv) (b : SuperBlock) (s : State) (k : Nat) : State :=
  let done := fun (j : Nat) => lastPassed s b k (memberSlot s k j)
  let off := fun (j : Nat) => offBlock s b k (memberSlot s k j)
  let full := (List.range 16).all (fun j => done j || off j) && (List.range 16).any done
  let cut := [16, 17].filter fun j => !done j && !off j
  let bad := cut.filter fun j => !parityDecodes s env b k j
  if !full || bad.isEmpty then s
  else queueRelocation (bad.foldl (fun s j => dropParity s b k j) s) b.num k 18

/-- The parity reads of a super-block, with its passes as its blocks are found (R324, R409). -/
def readParity (env : RecoveryEnv) (s : State) (b : SuperBlock) : State :=
  let b := foundPasses s b
  (List.range (stripesIn s b.mode)).foldl (parityReads env b) (modSb s b.num fun x => { x with passes := b.passes })

/-- An open super-block is closed with its SB_CLOSE (R205, R207, R409). -/
def closeFound (s : State) (b : SuperBlock) : State :=
  let last := (b.nextSlot - 1) / slotsPerStripe s b / diesPerChan s
  let s := jot s (.sbClose b.num last ((b.failed.head?.map (·.2)).getD 0xFFFFFF))
  let s := if b.use = .hostRu ∧ b.nextSlot < slotsIn s b.mode then fdpEvent s 1 b.handle else s
  let s := if b.use = .hostRu then fdpEvent s 6 b.handle else s
  modSb s b.num fun x => { x with st := .closed, toErase := [], ahead := [], fillWait := [] }

/-- A super-block whose last passes are not all done: it may have been cut, though it is closed already (R324). -/
def mayBeCut (s : State) (b : SuperBlock) : Bool :=
  decide (b.use ≠ .journal) && (decide (b.st ≠ .closed) || (List.range b.blocks.length).any fun i =>
    decide ((tget (0, 0) b.passes i).2 < s.geo.wordlines * s.geo.planes))

/-- Every super-block with an SB_FORM and no SB_CLOSE (R409), after the parity reads of every one that was cut (R324). -/
def closeAllFound (s : State) (env : RecoveryEnv) : State :=
  let open_ := s.media.sbs.filter fun b => decide (b.st ≠ .closed)
  let s := (s.media.sbs.filter (mayBeCut s)).foldl (readParity env) s
  let s := open_.foldl closeFound s
  if open_.any fun b => decide (b.use = .hostRu) then fdpEvent s 3 0 else s

/-! ### Refuge sets -/

/-- Stage one version again into a flacon, in state READY (R410). -/
def stageVersion (nums : Tbl Nat) (serial : Nat) (n : Namespace) (v : RefugeVer) (data : List (Nat × Blk)) (s : State) : State :=
  let mi := mapIndex s n v.iu
  let app := fun (sub : Nat) => max (tget 0 nums (mi * 16 + sub)) (mappedSeq s mi sub)
  let subs : List FSub := data.map fun x =>
    { nsid := v.nsid, iu := v.iu, sub := x.1, seq := v.seq, kind := v.kind, data := x.2, filled := true, applied := !decide (x.1 ∈ v.live)
      comm := true, prot := true }
  let f : Flacon := { st := .ready, units := data.length, handle := v.handle, subs := subs, refuge := some serial }
  let s := data.foldl (fun s x => setApplied s mi x.1 (app x.1)) s
  let s := if v.kind = 1 then v.live.foldl (fun s sub => ovlReserve s mi sub) s else s
  -- overlay sub-units of several versions share a flacon of sixteen (R141)
  let shares := fun (e : Nat × Flacon) => decide (v.kind = 1) && decide (e.2.st = .ready) && decide (e.2.refuge = some serial)
    && decide (e.2.handle = v.handle) && decide (e.2.subs.length + subs.length ≤ 16) && e.2.subs.all fun x => decide (x.kind = 1)
  match s.path.flacons.find? shares with
  | some e => modFlacon s e.1 fun g => { g with units := g.units + data.length, subs := g.subs ++ subs }
  | none => modFlacon s (firstFree s) fun _ => f

/-- One indexed version of a flush (R410, R411): from the refuge pages, else from its open-block location, else it is lost. -/
def restoreVersion (env : RecoveryEnv) (hits : List Hit) (nums : Tbl Nat) (serial : Nat) (s : State) (x : Nat × RefugeVer) : State :=
  let v := x.2
  match findNs s v.nsid with
  | none => s
  | some n =>
    let bad := v.poisoned || decide ((serial, x.1) ∈ env.badRefugeVersions)
    let found := fun (sub : Nat) => hits.find? fun h =>
      decide (h.nsid = v.nsid) && decide (h.iu = v.iu) && decide (h.sub = sub) && decide (h.seq = v.seq) && decide (h.kind = v.kind)
    let onMedia := !decide ((serial, x.1) ∈ env.badOpenVersions) && v.live.all fun sub => (found sub).isSome
    if !bad then stageVersion nums serial n v v.data s
    else if onMedia then
      stageVersion nums serial n v (v.data.map fun d => (d.1, match found d.1 with | some h => h.data | none => d.2)) s
    else noteRec ((poisonIu s n v.iu 6 v.seq none).onBoot fun b => { b with recoveryLoss := true }) 5 true

/-- The refuge sets in use, lower serial first (R405 step 4, R410). -/
def restoreSets (s : State) (env : RecoveryEnv) (nums : Tbl Nat) : State :=
  let fs := [s.journal.setA, s.journal.setB].filterMap fun r => if r.st = .inUse then r.flush else none
  let hits := if fs.isEmpty then [] else mediaHits s
  let s := (sortBy (·.serial) fs).foldl (fun s f =>
    ((List.range f.index.length).zip f.index).foldl (restoreVersion env hits nums f.serial) s) s
  noteRec s 1 (!fs.isEmpty)

/-! ### Tags -/

/-- Pages of super-blocks that decode and whose tag fails (R234). -/
def badTagPages (s : State) (l : List SuperBlock) : Nat :=
  let bad := fun (b : SuperBlock) (k j : Nat) => (pageWords s b k j).elim false (tagFails s)
  sumOf (fun b => sumOf (fun k => ((List.range 18).filter (bad b k)).length) (List.range (stripesIn s b.mode))) l

/-- Recovery checks the tag of every page that it reads: those of the open super-blocks, or of the whole media where it scans; none
after a clean shutdown (R234, R407, R408, R409, R414). -/
def checkTags (s : State) (env : RecoveryEnv) : State :=
  let wide := !env.lostSegments.isEmpty || (readRecs s env).any fun x => x.2.1.isNone
  if s.journal.anchor.clean then s
  else countTags s (badTagPages s (s.media.sbs.filter fun b => decide (b.use ≠ .journal) && (wide || decide (b.st ≠ .closed))))

/-! ### The end of recovery -/

/-- Numbers and horizon (R412): all numbers up to the ceiling are Sealed but those staged again. -/
def setNumbers (s : State) : State :=
  let nums := ((s.path.flacons.flatMap fun e => e.2.subs.map (·.seq))).foldr addRising []
  let h := match nums.head? with
    | some n => n - 1
    | none => s.path.ceiling
  let recs : List SeqRec := nums.map fun n => { seq := n, port := .A, protAt := some s.now }
  let units := sumOf (fun e => e.2.units) s.path.flacons + sumOf (·.claimUnits) s.media.sbs
  jot (s.onPath fun p => { p with nextSeq := p.ceiling + 1, unsealed := recs, horizon := h, claimed := units }) (.horizon h)

/-- A loss found at discovery is judged (R313, R316, R358). -/
def judgeLosses (s : State) : State :=
  if s.media.sbs.any fun b => decide ((markLost s b).lost ≠ b.lost) then memberLoss s
  else checkPreserve (if anyExposed2 s then s.onUpkeep fun u => { u with degraded := true } else s)

/-- Rebuild goes on where it stood before the start-up (R317, R322). -/
def rebuildAgain (s : State) : State := s.onUpkeep fun u => { u with rebuilding := !(rebuildUnits s).isEmpty }

/-- The ownership phase after start-up (R122). A handover that a Claim during recovery started (R566) goes on, and a Release given then is
gone: the spec says of neither what the end of start-up does to it (DESIGN CHOICE, log entry 72). -/
def phaseAtStart (s : State) : State :=
  let down := linkIsDown (s.port s.own.owner)
  if s.own.phase = .handover ∧ s.own.claim.isSome then s
  else s.onOwn fun o => { o with phase := if down then .linkDown else .held, downSince := if down then some s.now else none, claim := none }

/-- A Sanitize that a reset interrupted runs again from step 2 (R635). -/
def sanitizeAgain (s : State) : State :=
  if s.sec.sanitize = .none then s
  else trimAll (discardStaging (s.onSec fun x => { x with sanStep := 3, sanRerun := true }))

/-- DRYDOWN entry is repeated from step 2 (R367). -/
def drydownAgain (s : State) : State :=
  if s.mediaMode = 2 then
    drydownClose (s.onUpkeep fun u => { u with drydownEntry := true, cursorState := 1, cursorRepeat := true })
  else s

/-- Step 5 (R405, R415, R565, R566, R575): the drive is ready. -/
def beReady (s : State) (env : RecoveryEnv) : State :=
  let s := phaseAtStart { s with run := .running }
  let s := refreshRefuge s
  let s := s.onBoth fun p => { p with rdy := p.ccEn }
  let late := s.boot.lateRdy
  let s := s.onBoot fun b => { b with stage := 8, ready10ms := min 65535 ((b.preMs + env.tookMs) / 10), lateRdy := false }
  let s := s.onJournal fun j => { j with recMs := min 65535 env.tookMs }
  if late then notice s 0xC0 else s

/-- An image with another IU size or code than the drive was written with, which only an empty drive can have: the map starts empty
(R172, R271). -/
def freshMap (s : State) : State :=
  let a := s.journal.anchor
  if !a.written || (decide (a.iuSize = s.policy.iuSize) && decide (a.codeId = s.image.ldpc.codeId)) then s
  else putAnchor (s.onJournal fun j => { j with segments := [], chunks := [] }) fun x =>
    { x with iuSize := s.policy.iuSize, codeId := s.image.ldpc.codeId }

/-- Steps 1 to 4 of recovery, to the numbers and the clean flag (R405 to R412). -/
def restore (s : State) (env : RecoveryEnv) : State :=
  let clean := s.journal.anchor.clean
  let dirty := uncleanBlocks s env
  let s := freshMap (if s.journal.anchor.written then s else firstStart s)
  let (s, nums) := replay (checkTags s env) env
  let s := noteRec (dirty.foldl markUnclean s) 6 (!dirty.isEmpty)
  let s := requeueSet (requeueSet s s.journal.setA) s.journal.setB
  let s := closeAllFound s env
  let s := if clean then noteRec s 0 true else restoreSets s env nums
  let s := rebuildAgain (judgeLosses (setNumbers s))
  if clean then putAnchor s fun a => { a with clean := false } else s

/-- RECOVERY (R405 to R412, R566). -/
def recover (s : State) (env : RecoveryEnv) : State :=
  if s.run ≠ .recovery ∨ s.fh.latch ∨ s.boot.stage ≠ 7 then s
  else drydownAgain (sanitizeAgain (takePs (beReady (restore s env) env)))

def execRecovery (env : RecoveryEnv) (s : State) : Host.Outcome State Fault Refusal := .next (recover s env)

end Sys2Proof.Machine
end

