-- ==== Sys2Proof/Machine/Firmware.lean ====
section
/-! DEFINITION. Firmware download, commit and activation (R163, R164, R597 to R602). -/
namespace Sys2Proof.Machine

/-- Post the completion that a commit or an activation owes, where a reset has not taken it away (R160). -/
def owedDone (s : State) (p : PortId) (cid : Option Nat) (st : Status) : State :=
  match cid with
  | some c => adminDone s { port := p, cid := c } st
  | none => s

/-- Clear the download buffer (R597). -/
def clearBuffer (s : State) : State := { s with dlBuf := [], dlGranules := [] }

/-! ### Download -/

/-- Firmware Image Download (R597, R602). -/
def download (a : AdminId) (offset : Nat) (data : List (BitVec 8)) (s : State) : State :=
  if s.commit.isSome ∨ s.activation.isSome then adminDone s a .commandSequenceError
  else if offset % 4096 ≠ 0 ∨ 4194304 < offset + data.length then adminDone s a .invalidField
  else
    let gs := (List.range (ceilDiv data.length 4096)).map fun i => offset / 4096 + i
    adminDone { s with dlBuf := memWrite 0 s.dlBuf offset data, dlGranules := gs.foldl (fun l g => addOnce g l) s.dlGranules } a .success

/-- FIRMWARE_IMAGE_DOWNLOAD (R597). -/
def execFirmwareImageDownload (a : AdminId) (offset : Nat) (data : List (BitVec 8)) (s : State) : Host.Outcome State Fault Refusal :=
  .next (adminCmd s a .drive (.firmwareImageDownload a offset data) (download a offset data))

/-! ### Commit -/

/-- image_size of a copy (R578). -/
def imageSize (r : Reader) : Nat := num (r 12 4) 0 4

/-- A commit of an image is refused for what the drive holds (R599, with R172 and R271): a super-block holds host data where a unit of it is
valid, or a version or copy packed into it is not applied yet. -/
def clashes (s : State) (m : Image) : Bool :=
  let cur := s.image
  let spaces := !s.path.spaces.isEmpty
  let placed := fun (b : SuperBlock) => (s.path.flacons.any fun e => e.2.place.elim false fun pl => decide (pl.sb = b.num))
    || s.path.copies.any fun c => c.place.elim false fun pl => decide (pl.sb = b.num)
  let hostData := s.media.sbs.any fun b => decide (b.use ≠ .journal) && (decide (0 < b.valid) || placed b)
  (spaces && decide (m.policy.iuSize ≠ cur.policy.iuSize))
    || (hostData && decide (m.ldpc.codeId ≠ cur.ldpc.codeId))
    || (decide (0 < s.media.sbSerial) && (decide (m.geo ≠ cur.geo) || decide (m.board.chanMask ≠ cur.board.chanMask)))
    || decide (m.dram.density ≠ cur.dram.density) || decide (m.board.dramChannels ≠ cur.board.dramChannels)
    || (spaces && decide (m.ident.userCapacity ≠ cur.ident.userCapacity))
    || (s.path.fdp && spaces && decide (m.policy.fdpRuhCount ≠ cur.policy.fdpRuhCount))

/-- The buffer holds every granule below image_size (R599). -/
def bufferWhole (s : State) : Bool := (List.range (ceilDiv (imageSize (bufReader s)) 4096)).all fun g => decide (g ∈ s.dlGranules)

/-- Step 1 of a commit passes (R599, R600). -/
def commitOk (s : State) (action target : Nat) : Bool :=
  let r := if action = 2 then spiReader s target else bufReader s
  (action = 2 || bufferWhole s) && (checkCopy s r true).isNone && !clashes s (parseImage r)

/-- Step 2: the sector of the target's selection record is erased (R600). -/
def eraseRecord (s : State) (target : Nat) : State := { s with spi := memErase s.spi (recordBase target) 4096 }

/-- Firmware Commit with one of the actions 0 to 3 (R598 to R600, R602). -/
def commitWith (a : AdminId) (action fs : Nat) (s : State) : State :=
  let target := 3 - s.copyInUse
  if s.commit.isSome ∨ s.activation.isSome then adminDone s a .commandSequenceError
  else if 2 < fs then adminDone s a .invalidFirmwareSlot
  else if fs ≠ 0 ∧ fs = s.copyInUse then adminDone s a (if action = 2 then .success else .invalidFirmwareSlot)
  else if !commitOk s action target then adminDone (if action = 2 then s else clearBuffer s) a .invalidFirmwareImage
  else
    let c : Commit := { port := a.port, cid := some a.cid, action := action, target := target, step := 2
                        serialAtT0 := max (effSerial s 1) (effSerial s 2) }
    { eraseRecord s target with commit := some c }

/-- FIRMWARE_COMMIT_ACTION_0 (R598): the copy is written and not selected. -/
def execFirmwareCommit0 (a : AdminId) (fs : Nat) (s : State) : Host.Outcome State Fault Refusal :=
  .next (adminCmd s a .drive (.firmwareCommit0 a fs) (commitWith a 0 fs))

/-- FIRMWARE_COMMIT_ACTION_1 (R598): the copy is written and selected. -/
def execFirmwareCommit1 (a : AdminId) (fs : Nat) (s : State) : Host.Outcome State Fault Refusal :=
  .next (adminCmd s a .drive (.firmwareCommit1 a fs) (commitWith a 1 fs))

/-- FIRMWARE_COMMIT_ACTION_2 (R598): the inactive copy is selected. -/
def execFirmwareCommit2 (a : AdminId) (fs : Nat) (s : State) : Host.Outcome State Fault Refusal :=
  .next (adminCmd s a .drive (.firmwareCommit2 a fs) (commitWith a 2 fs))

/-- FIRMWARE_COMMIT_ACTION_3 (R598): the copy is written, selected and activated. -/
def execFirmwareCommit3 (a : AdminId) (fs : Nat) (s : State) : Host.Outcome State Fault Refusal :=
  .next (adminCmd s a .drive (.firmwareCommit3 a fs) (commitWith a 3 fs))

/-- The commit ends with a status; the buffer is cleared where the commit used it (R597). -/
def endCommit (s : State) (c : Commit) (st : Status) : State :=
  let s := { s with commit := none }
  owedDone (if c.action = 2 then s else clearBuffer s) c.port c.cid st

/-- A commit fails in the SPI NOR: the target keeps no valid record (R601). -/
def commitFails (s : State) (c : Commit) : State := endCommit (eraseRecord s c.target) c .internalError

/-- A section with the fr field of the host identity section left out (R602). -/
def sectionKey (r : Reader) (t : Nat) : List Byte :=
  let b := sectionBytes r t
  if t = 6 then b.take (16 + 72) ++ b.drop (16 + 80) else b

/-- Every section but the microcode is byte-identical, the fr field apart (R602). -/
def sameSections (x y : Reader) : Bool := [1, 2, 3, 4, 5, 6, 7, 8].all fun t => decide (sectionKey x t = sectionKey y t)

/-- Step 6 (R163, R600, R602): action 3 activates, where only the microcode differs. -/
def commitSelected (s : State) (c : Commit) : State :=
  if c.action ≠ 3 then endCommit s c .success
  else if !sameSections (spiReader s c.target) (spiReader s s.copyInUse) then endCommit s c .fwNeedsSubsystemReset
  else
    let s := clearBuffer { s with commit := none }
    { s.onBoth (fun p => { p with fetching := false }) with
      activation := some { port := c.port, cid := c.cid, copy := c.target, since := s.now } }

/-- A step of the commit has ended (R600): record erased, region written from the buffer, compared, record written. -/
def commitStep (s : State) (c : Commit) : State :=
  let at_ := fun (s : State) (n : Nat) => { s with commit := some { c with step := n } }
  let base := copyBase c.target
  let size := imageSize (bufReader s)
  match c.step with
  | 2 => if c.action = 2 then at_ s 5 else at_ { s with spi := memErase s.spi base size } 3
  | 3 => at_ { s with spi := memWrite 0xFF s.spi base (bufReader s 0 size) } 4
  | 4 => at_ s 5
  | _ =>
    let serial := if c.action = 0 then 0 else c.serialAtT0 + 1
    commitSelected { s with spi := memWrite 0xFF s.spi (recordBase c.target) (selRecord serial) } c

/-- The controller still issues SPI commands: not once power fails or an NVM subsystem reset runs (R602). -/
def spiRuns (s : State) : Bool :=
  match s.run with
  | .running | .recovery | .safe => true
  | _ => false

/-- COMMIT_SPI_STEP_END (R600, R601). -/
def spiStepEnds (s : State) (r : SpiStepEnd) : State :=
  match s.commit with
  | none => s
  | some c =>
    if !spiRuns s then s
    else match r with
      | .done => commitStep s c
      | .exceeded => commitFails s c
      | .mismatch => if c.step = 4 then commitFails s c else s

def execCommitSpiStepEnd (r : SpiStepEnd) (s : State) : Host.Outcome State Fault Refusal := .next (spiStepEnds s r)

/-! ### Activation without reset -/

/-- Fetching resumes on both ports (R163, R164). -/
def resumeFetch (s : State) : State :=
  let on := fetchAllowed s
  s.onBoth fun p => { p with fetching := on && !p.cfs }

/-- The activation ends, and its Commit completes (R163, R164). -/
def endActivation (s : State) (x : Activation) (st : Status) : State :=
  owedDone (resumeFetch { s with activation := none }) x.port x.cid st

/-- The new microcode and the fr field take effect, and the copy is the one in use: its header's key and security version count
(R163, R602, R638, R642). -/
def activate (s : State) (c : Nat) : State :=
  let m := parseImage (spiReader s c)
  let s := { s with
    image := { s.image with ucodeVersion := m.ucodeVersion, secVersion := m.secVersion, integratorKey := m.integratorKey
                            ident := { s.image.ident with fr := m.ident.fr } }
    copyInUse := c, ucodeVersion := m.ucodeVersion }
  s.onSec fun x => { x with secVersionInUse := m.secVersion }

/-- Step 2 has ended: every fetched command of both ports has completed, the last of them within 50 ms of the pause's start (R163, R164). -/
def drained (s : State) (x : Activation) : Bool :=
  s.portA.cmds.isEmpty && s.portB.cmds.isEmpty && decide (s.upkeep.idleSince ≤ x.since + 50000)

/-- ACTIVATION_DRAIN_END (R163, R164): every fetched command has completed; the microcode is authenticated and the cores restart. -/
def drainEnds (s : State) : State :=
  match s.activation with
  | none => s
  | some x =>
    if !drained s x ∨ s.run ≠ .running then s
    else if (checkVendor s (spiReader s x.copy)).isSome then endActivation s x .invalidFirmwareImage
    else endActivation (activate s x.copy) x .success

def execActivationDrainEnd (s : State) : Host.Outcome State Fault Refusal := .next (drainEnds s)

/-- ACTIVATION_TIMEOUT (R164): step 2 has not ended within 50 ms. -/
def drainTooLong (s : State) : State :=
  match s.activation with
  | none => s
  | some x => if elapsed s x.since 50000 ∧ !drained s x ∧ s.run = .running then endActivation s x .fwMaxTimeViolation else s

def execActivationTimeout (s : State) : Host.Outcome State Fault Refusal := .next (drainTooLong s)

end Sys2Proof.Machine
end

