-- ==== Sys2Proof/Machine/Housekeeping.lean ====
section
/-! DEFINITION. The housekeeping unit (13_thermal_housekeeping.md): rounds (R476, R477), invalid inputs (R474), supplies (R478),
trims (R479 to R481), thresholds and the Thermal History (R482, R483, R610), the throttle level and its actions (R484 to R486),
and halt (R489 to R491). -/
namespace Sys2Proof.Machine

/-- HK works: it runs on HK_OSC from the OTP read until the controller enters reset (R477). -/
def hkRuns (s : State) : Bool :=
  match s.run with
  | .inReset | .porHeld => false
  | _ => true

/-- Round period, µs: the image's, or its default before an image is validated (R476, R495). -/
def roundUs (s : State) : Nat := 1000 * s.policy.hkRoundMs

/-! ### Starting a round -/

/-- Begin a round now. -/
def beginRound (s : State) : State := s.onHk fun h => { h with inRound := true, roundAt := some s.now, late := false }

/-- HK_ROUND_START (R476, R477): the next round starts on time, or when the late one ends, which ROUND_LATE reports once. -/
def startRound (s : State) : State :=
  match s.hk.roundAt with
  | none => s
  | some t =>
    if !hkRuns s || !elapsed s t (roundUs s) then s
    else if s.hk.inRound then (if s.hk.late then s else fire (s.onHk fun h => { h with late := true }) (hkSource 22))
    else beginRound s

def execHkRoundStart (s : State) : Host.Outcome State Fault Refusal := .next (startRound s)

/-! ### Readings -/

/-- An input is converted in the present round: inputs 16 to 19 always, inputs 0 to 15 in their role from the first round that
starts after the image has been validated (R471, R473, R477). The first round starts before that. -/
def roundRole (s : State) (i : Nat) : Nat := if 16 ≤ i then 3 else if s.hk.anyRound then inputRole s i else 0

/-- Unit of the fixed-point numbers below. -/
def fixOne : Int := 2 ^ 80

/-- Terms p^(2j+1) / (2j+1) from j = i on, in fixed point; z is the square of the argument. -/
def atanhFrom (z : Int) : Nat → Nat → Int → Int
  | 0, _, _ => 0
  | n + 1, i, p => p / ((2 * i + 1 : Nat) : Int) + atanhFrom z n (i + 1) (p * z / fixOne)

/-- ln(a / b) in fixed point, for a between b / 2 and 2 b. -/
def lnNear (a b : Nat) : Int :=
  let z : Int := ((a : Int) - b) * fixOne / ((a + b : Nat) : Int)
  2 * atanhFrom (z * z / fixOne) 60 0 z

/-- ln(a / b) in fixed point. -/
def lnRatio (a b : Nat) : Int :=
  let k : Int := (a.log2 : Int) - b.log2
  k * lnNear 2 1 + lnNear (a * 2 ^ (b.log2 - a.log2)) (b * 2 ^ (a.log2 - b.log2))

/-- A thermistor's temperature in 1/16 °C, rounded down: T = 1 / (1 / 298.15 + ln(R / R26) / B) − 273.15, R = 10,000 Ω × V / (1.2 V − V)
(R473). -/
def thermFloor (c : BoardInput) (v : Nat) : Int :=
  let x : Int := fixOne * 100 / 29815 + lnRatio (10000 * v) ((12000 - v) * c.r25) / (c.beta : Int)
  (160 * fixOne - 43704 * x) / (10 * x)

/-- What a thermistor reads. The rule gives a real number and no resolution: which of the two sixteenths that it lies between is a free
value (R473; DESIGN CHOICE, log entry 93). -/
def thermReading (c : BoardInput) (v k i : Nat) : Int := thermFloor c v + (((Config.freeByte k i).toNat % 2 : Nat) : Int)

/-- Twice the median of the four on-die sensors, in 1/16 °C: the sum of the two middle ones. -/
def dieMedian2 (d : RoundData) : Int :=
  let l := ((d.temps.drop 16).filterMap fun r => match r with
    | .onDie t => some t
    | _ => none).mergeSort fun a b => decide (a ≤ b)
  l.getD ((l.length - 1) / 2) 0 + l.getD (l.length / 2) 0

/-- The valid reading of input i in this round, if it has one (R474): a diode's forward voltage lies within 0.20 V and 0.95 V, a
thermistor within 3 % and 97 % of the reference, and an on-die sensor within 10 °C of the median. -/
def validReading (s : State) (d : RoundData) (k i : Nat) : Option Int :=
  match d.temps[i]? with
  | some (.diode f t) => if 2000 ≤ f ∧ f ≤ 9500 then some t else none
  | some (.thermistor v) => if 360 ≤ v ∧ v ≤ 11640 then some (thermReading (nth {} s.image.board.inputs i) v k i) else none
  | some (.onDie t) => if 2 * t - dieMedian2 d ≤ 320 ∧ dieMedian2 d - 2 * t ≤ 320 then some t else none
  | none => none

/-- An input after its conversion (R474, R496). An input that becomes invalid keeps its last valid reading and is held. -/
def readInput (s : State) (d : RoundData) (k i : Nat) (x : TempIn) : TempIn :=
  if roundRole s i = 0 then x
  else match validReading s d k i with
    | some t => { x with valid := true, held := false, temp := t, heldAt := none, peak := max x.peak (t / 16), lifePeak := max x.lifePeak t }
    | none => if x.heldAt.isSome then x else { x with valid := false, held := x.valid, heldAt := some s.now }

/-- The source of an input (R495). -/
def inputSource (i : Nat) : Nat := if i < 16 then hkSource i else hkSource 16

/-- Inputs that became invalid in the step from one state to the next. -/
def newlyInvalid (old s : State) : List Nat :=
  (List.range 20).filter fun i => (nth {} old.hk.inputs i).heldAt.isNone && (nth {} s.hk.inputs i).heldAt.isSome

/-- Each input with its number. -/
def mapInputs (s : State) (f : Nat → TempIn → TempIn) : State :=
  s.onHk fun h => { h with inputs := (List.range 20).map fun i => f i (nth {} h.inputs i) }

/-! ### Trims -/

/-- Two little-endian bytes of the OTP row as a trim code (R620). -/
def otpCode (s : State) (base i : Nat) : Nat := num (otpBytes s (base + 2 * i) 2) 0 2 % 1024

/-- The code of a curve at a temperature, by linear interpolation between its points of −40 + 12 i °C (R479, R620). Where the
value lies between two codes, which of the two it takes is not stated, and nothing is stated above the last point: free values. -/
def curveCode (s : State) (base : Nat) (t : Int) (k : Nat) : Nat :=
  let x := (t + 640).toNat
  let i := x / 192
  let free := (Config.freeReg k).toNat
  if 15 < i ∨ (i = 15 ∧ 0 < x % 192) ∨ t < -640 then free % 1024
  else if i = 15 then otpCode s base 15
  else
    let v : Int := otpCode s base i * 192 + ((otpCode s base (i + 1) : Int) - otpCode s base i) * ((x % 192 : Nat) : Int)
    (v / 192).toNat + (if v % 192 = 0 then 0 else free % 2)

/-- A code moves towards its target by at most one step; the first round applies the target at once (R479). -/
def stepCode (first : Bool) (cur target : Nat) : Nat :=
  if first then target else if cur < target then cur + 1 else if target < cur then cur - 1 else cur

/-- The trims of a round (R479, R480): without good curves the codes stay and OSC_CHECK fires at the first round; a code that
reaches an end value fires TRIM_LIMIT. -/
def trimRound (s : State) : State :=
  let first := decide (s.hk.roundsDone = 0)
  let x := nth {} s.hk.inputs 19
  if !s.hk.curvesOk then (if first then fire s (hkSource 20) else s)
  else if !(x.valid || x.held) then s
  else
    let (s, k) := drawFree s
    let o := stepCode first s.hk.oscTrim (curveCode s 264 x.temp (2 * k))
    let b := stepCode first s.hk.bgTrim (curveCode s 300 x.temp (2 * k + 1))
    let ends := fun (c : Nat) => decide (c = 0) || decide (c = 1023)
    let hit := (ends o && (first || !ends s.hk.oscTrim)) || (ends b && (first || !ends s.hk.bgTrim))
    let s := s.onHk fun h => { h with oscTrim := o, bgTrim := b }
    if hit then fire s (hkSource 21) else s

/-! ### Supplies and hold-up -/

/-- Window of a round supply in tenths of a millivolt: ±5 % about nominal (R478, R539). HOLDUP_SENSE has none. -/
def supplyWindow (k : Nat) : Nat × Nat :=
  if k = 0 then (7125, 7875) else if k = 1 then (10450, 11550) else if k = 2 then (11400, 12600) else (0, 65535)

/-- 0 in the window, 1 under, 2 over. -/
def windowSide (k v : Nat) : Nat := if v < (supplyWindow k).1 then 1 else if (supplyWindow k).2 < v then 2 else 0

/-- One round supply: its source fires when it leaves the window or changes side (R478). -/
def readSupply (s : State) (k v : Nat) : State :=
  let side := windowSide k v
  let old := (nth {} s.hk.supplies k).window
  let s := s.onHk fun h => { h with supplies := setNth h.supplies k fun _ => { window := side, tenthMv := v } }
  if side = old ∨ side = 0 then s else fire s (hkSource (if side = 1 then 18 else 19))

/-- The hold-up voltage and whether it is ready (R372, R373, R542). -/
def readHoldup (s : State) (v : Nat) : State :=
  let mv := min 65535 (min 12000 v / 10 * s.policy.holdupRatio)
  s.onHk fun h => { h with
    supplies := setNth h.supplies 3 fun _ => { window := 0, tenthMv := min 12000 v }
    holdupMv := mv, holdupMin := min h.holdupMin mv, holdupReady := s.boot.configSet && decide (s.policy.holdupReadyMv ≤ mv) }

/-! ### Thresholds -/

/-- Warning, Throttle and Shutdown of an input in 1/16 °C (R482); none for a board or unused input. -/
def thresholds (role : Nat) : Option (Int × Int × Int) :=
  if role = 3 then some (1600, 1728, 1920) else if role = 1 then some (1120, 1200, 1360) else none

/-- The input takes part in thresholds: it is valid or held. -/
def takesPart (x : TempIn) : Bool := x.valid || x.held

/-- A threshold's state after a round, with the hysteresis of 5 °C (R482). -/
def crossed (was : Bool) (t lim : Int) : Bool := decide (lim ≤ t) || (was && decide (lim - 80 ≤ t))

/-- Compare an input with its thresholds; an excluded input crosses nothing. `dt` is the time since the last round's end, for the
minutes of R610. -/
def compareInput (s : State) (dt : Nat) (i : Nat) (x : TempIn) : TempIn :=
  match (if takesPart x && decide (roundRole s i ≠ 0) then thresholds (roundRole s i) else none) with
  | none => { x with warn := false, thr := false, shut := false }
  | some (w, t, z) => { x with
      warn := crossed x.warn x.temp w, thr := crossed x.thr x.temp t, shut := crossed x.shut x.temp z
      usWarn := if w ≤ x.temp then x.usWarn + dt else x.usWarn
      usThrottle := if t ≤ x.temp then x.usThrottle + dt else x.usThrottle }

/-- Append a Thermal History record; a new one overwrites the oldest of 16,384 (R610). -/
def addThermal (s : State) (input event : Nat) (reading : Int) : State :=
  s.onHk fun h =>
    let l := h.history ++ [{ num := h.historyNext, minutes := powerOnMin s, input := input, event := event, level := h.level, reading := reading }]
    { h with history := if 16384 < l.length then l.drop (l.length - 16384) else l, historyNext := h.historyNext + 1 }

/-- The events of one input in a round: crossings upwards, then its becoming invalid (R483, R610). -/
def inputEvents (old s : State) (i : Nat) : List Nat :=
  let a := nth {} old.hk.inputs i
  let b := nth {} s.hk.inputs i
  (if b.warn && !a.warn then [1] else []) ++ (if b.thr && !a.thr then [2] else []) ++ (if b.shut && !a.shut then [3] else [])
    ++ (if a.heldAt.isNone && b.heldAt.isSome then [5] else [])

/-- Record the events of a round and give notice of a Warning crossing (R483). -/
def recordEvents (old s : State) : State :=
  let evs := (List.range 20).flatMap fun i => (inputEvents old s i).map fun e => (i, e)
  let t := evs.foldl (fun t x => addThermal t x.1 x.2 (nth {} s.hk.inputs x.1).temp) s
  if evs.any fun x => decide (x.2 = 1) then notice t 0xC4 else t

/-! ### The throttle level -/

/-- Readings of the junction and NAND inputs that take part, each with its thresholds. -/
def limited (s : State) : List (Int × Int × Int × Int) :=
  (List.range 20).filterMap fun i =>
    let x := nth {} s.hk.inputs i
    if takesPart x && decide (roundRole s i ≠ 0) then (thresholds (roundRole s i)).map fun l => (x.temp, l) else none

/-- A host-controlled latch: TMTn is in kelvin, as the feature gives it (R484; the unit is the base specification's). -/
def tmtLatch (j : Option Int) (tmt : Nat) (was : Bool) : Bool :=
  if tmt = 0 then false
  else match j with
    | none => was
    | some t =>
      let lim : Int := ((tmt : Int) - 273) * 16
      decide (lim ≤ t) || (was && decide (lim - 80 ≤ t))

/-- Least level that the latches and an unavailable junction temperature allow (R470, R484). -/
def levelFloor (s : State) : Nat :=
  let f := if s.hk.tmt2Latch then 3 else if s.hk.tmt1Latch then 1 else 0
  if (junction s).isNone then max f 2 else f

/-- The latches of TMT1 and TMT2 at a round (R484). -/
def latchTmt (s : State) : State :=
  let j := junction s
  s.onHk fun h => { h with tmt1Latch := tmtLatch j h.tmt1 h.tmt1Latch, tmt2Latch := tmtLatch j h.tmt2 h.tmt2Latch }

/-- Move the throttle level by the readings of the latest round (R484). -/
def stepLevel (s : State) : State :=
  let l := limited s
  let hot := l.any fun x => decide (x.2.2.1 ≤ x.1)
  let cool := l.all fun x => decide (x.1 < x.2.2.1 - 80)
  let fl := levelFloor s
  let due := elapsed s s.hk.lastStep (1000 * s.policy.throttleStepMs)
  let h := s.hk
  let (lv, st) :=
    if hot && (decide (h.level = 0) || due) then (min 4 (h.level + 1), s.now)
    else if cool && decide (fl < h.level) && due then (h.level - 1, s.now)
    else (h.level, h.lastStep)
  s.onHk fun h => { h with level := max lv fl, lastStep := st }

/-- Pause and gap of a level (R485). -/
def levelPause (lv : Nat) : Nat := nth 0 [0, 100, 250, 500, 1000] lv
def levelGap (lv : Nat) : Nat := nth 0 [0, 4, 8, 16, 32] lv
def levelDivider (lv : Nat) : Nat := nth 1 [1, 1, 2, 2, 4] lv

/-- Cluster dividers: ÷4 once halt entry has gated the NAND clocks, else the level's (R485, R489). -/
def clusterDivider (s : State) : Nat := if s.hk.halt && !s.hk.haltEntry then 4 else levelDivider s.hk.level

/-- A flush lifts the throttle actions (R254, R462, R487): PWR_FAIL_N counts as asserted outside SAFE, a flush runs, or the drive idles
after one. In SAFE they hold again once its flush has ended (R48). -/
def throttleLifted (s : State) : Bool :=
  (s.journal.pwrFail && !s.fh.latch) || decide (s.journal.pls = 2) || decide (s.run = .idle) || decide (s.run = .flushing)

/-- What HK sets in the units at the end of a round (R48, R485, R486). -/
def applyLevel (s : State) : State :=
  if throttleLifted s then s
  else
    let lv := s.hk.level
    let dv := clusterDivider s
    let s := (chansOn s).foldl (fun s c => modChan s c fun x => { x with pauseUs := levelPause lv }) s
    let s := (List.range 8).foldl (fun s b => modMoverBlock s b fun x => { x with gap := levelGap lv }) s
    let s := ((List.range 4).filter (groupOn s)).foldl (fun s g => modCluster s g fun x => { x with divider := dv }) s
    let s := ((List.range 4).filter (dcOn s)).foldl (fun s n => modDc s n fun x => { x with skip := decide (lv = 2) || decide (lv = 4) }) s
    s.onHk fun h => { h with plsDivider := levelDivider lv
                             want3200 := decide (3 ≤ lv) || (h.halt && !h.haltEntry) }

/-- THROTTLE_STEP (R484): throttle_step_ms has passed since the last step and the condition for a step still holds. -/
def throttleStepNow (s : State) : State :=
  if hkRuns s && s.hk.anyRound && elapsed s s.hk.lastStep (1000 * s.policy.throttleStepMs) then applyLevel (stepLevel s) else s

def execThrottleStep (s : State) : Host.Outcome State Fault Refusal := .next (throttleStepNow s)

/-! ### Halt -/

/-- Halt begins (R489 step 1): nothing new starts but class 1, PME is signalled. -/
def beginHalt (s : State) : State :=
  pmeOnChange s (s.onHk fun h => { h with halt := true, haltEntry := true, halts := h.halts + 1, haltWarn := true })

/-- Halt ends (R491): the level is 4, the change of the drive state is signalled (R65), and a DRYDOWN entry that waited goes on
(R363, R364). -/
def endHalt (s : State) : State :=
  let old := s
  let s := addThermal (s.onHk fun h => { h with halt := false, haltEntry := false, level := 4, lastStep := s.now }) 16 4 ((junction s).getD 0)
  let s := pmeOnChange old s
  if s.mediaMode = 2 && s.upkeep.drydownEntry then drydownClose s else s

/-- Bit 1 of the SMART critical warning that a halt set stays until no input is at or above Warning (R491). -/
def judgeWarn (s : State) : State :=
  if !s.hk.halt && (limited s).all fun x => decide (x.1 < x.2.1) then s.onHk fun h => { h with haltWarn := false } else s

/-- The halt condition at the end of a round (R489, R491). -/
def judgeHalt (s : State) : State :=
  let l := limited s
  if s.hk.halt then (if l.all fun x => decide (x.1 < x.2.2.2 - 80) then endHalt s else s)
  else if l.any fun x => decide (x.2.2.2 ≤ x.1) then beginHalt s else s

/-- HALT_ENTRY_END (R489 steps 2 and 3): the operations under way have ended, a suspended erase among them; the clusters run at
÷4 and the DRAM controllers go to 3,200 MT/s. -/
def haltEntryOver (s : State) : State :=
  let still := s.media.dies.any fun e => e.2.busy.isSome || e.2.susp.isSome
  if s.hk.halt && s.hk.haltEntry && !still then applyLevel (s.onHk fun h => { h with haltEntry := false }) else s

def execHaltEntryEnd (s : State) : Host.Outcome State Fault Refusal := .next (haltEntryOver s)

/-! ### The end of a round -/

/-- Time since the last round's end. -/
def sinceRound (s : State) : Nat := s.now - s.hk.endedAt.getD s.now

/-- The readings of a round: inputs, trims, supplies and thresholds, in that order (R474, R476, R478 to R482). -/
def readRound (s : State) (d : RoundData) : State :=
  let old := s
  let (s, k) := drawFree s
  let s := mapInputs s (readInput s d k)
  let s := (newlyInvalid old s).foldl (fun s i => fire s (inputSource i)) s
  let s := trimRound s
  let s := if d.refclkMismatch && (s.portA.refclk || s.portB.refclk) then fire s (hkSource 20) else s
  let s := readHoldup (readSupply (readSupply (readSupply s 0 d.vcore) 1 d.vddq) 2 d.vccq) d.holdupSense
  mapInputs s (compareInput s (sinceRound old))

/-- The round is over: it is counted, with the time spent throttled and halted (R476, R496, R605). -/
def closeRound (old s : State) : State :=
  s.onHk fun h => { h with
    inRound := false, endedAt := some old.now, anyRound := true, roundsDone := h.roundsDone + 1, rounds := (h.rounds + 1) % 65536
    usThrottled := if 0 < old.hk.level then h.usThrottled + sinceRound old else h.usThrottled
    usHalted := if old.hk.halt then h.usHalted + sinceRound old else h.usHalted }

/-- HK_ROUND_END (R476): the readings, then level and halt; then the units are set, and a round that is owed starts. -/
def endRound (s : State) (d : RoundData) : State :=
  if !s.hk.inRound || !hkRuns s then s
  else
    let t := applyLevel (judgeWarn (judgeHalt (recordEvents s (stepLevel (latchTmt (closeRound s (readRound s d)))))))
    if t.hk.late then beginRound t else t

def execHkRoundEnd (d : RoundData) (s : State) : Host.Outcome State Fault Refusal := .next (endRound s d)

/-- INPUT_HOLD_EXPIRY (R474): an input held for 60 s is excluded until it reads valid again. -/
def holdOver (s : State) (i : Nat) : State :=
  match (nth {} s.hk.inputs i).heldAt with
  | none => s
  | some t =>
    if elapsed s t 60000000 then
      s.onHk fun h => { h with inputs := setNth h.inputs i fun x => { x with held := false, warn := false, thr := false, shut := false } }
    else s

def execInputHoldExpiry (input : Nat) (s : State) : Host.Outcome State Fault Refusal := .next (holdOver s input)

end Sys2Proof.Machine
end

