-- ==== Sys2Proof/Machine/Jtag.lean ====
section
/-! DEFINITION. The JTAG port (R554, R620 to R622, R625, R626). -/
namespace Sys2Proof.Machine

/-- The OTP row has been read, so the lifecycle state is known. -/
def otpRead (s : State) : Bool := decide (1 ≤ s.boot.stage) && decide (s.run ≠ .inReset) && decide (s.run ≠ .porHeld)

/-- A debug port is open: the lifecycle state opens it, or in DEPLOYED an unlock whose scope holds the bit (R554, R625, R637). -/
def debugPortOpen (s : State) (bit : Nat) : Bool :=
  otpRead s && (lifecycleOpen s.sec.lifecycle ||
    (decide (s.sec.lifecycle = 3) && s.sec.unlock.elim false fun u => u.scope.getLsbD bit))

/-- Program bits of one OTP byte: a programmed bit stays 1 (R620). -/
def otpProgram (m : List Host.Cell) (addr : Nat) (bits : Byte) : List Host.Cell := memPut 0 m addr (memGet 0 m addr ||| bits)

/-- Bytes of the row that JTAG may program beside the lifecycle byte (R620): the fields of bytes 0 to 159, each byte once, and
the thermometers and curves; reserved bytes stay zero. -/
def otpMayProgram (m : List Host.Cell) (addr : Nat) : Bool :=
  (decide (addr < 160) && decide (addr ≠ 3) && !(decide (20 ≤ addr) && decide (addr < 32)) && decide (memGet 0 m addr = 0))
    || (decide (168 ≤ addr) && decide (addr < 336))

/-- The new contents of the row. -/
def jtagProgram (m : List Host.Cell) : JtagOp → List Host.Cell
  | .programLifecycle bits => otpProgram (otpProgram (otpProgram m 160 bits) 161 bits) 162 bits
  | .programOtp addr bits => if otpMayProgram m addr then otpProgram m addr bits else m

/-- What the row now says takes effect: the lifecycle state and the floor that are reported, and which debug ports are open; a
port that opens fires DEBUG_PORT (R554, R623 to R625). -/
def lifecycleMoves (before s : State) : State :=
  let life := lifecycleOf s
  let floor := floorOf s
  let s := s.onSec fun x => { x with lifecycle := life, floor := floor }
  let jtag := debugPortOpen s 1
  let uart := debugPortOpen s 2
  let s := s.onSec fun x => { x with debugOpen := jtag || uart }
  if (jtag && !debugPortOpen before 1) || (uart && !debugPortOpen before 2) then fire s (coreSource 21) else s

/-- JTAG_ACCESS (R554, R620, R625): a closed port ignores it. -/
def execJtagAccess (op : JtagOp) (s : State) : Host.Outcome State Fault Refusal :=
  .next (if debugPortOpen s 1 then lifecycleMoves s (s.onSec fun x => { x with otp := jtagProgram x.otp op }) else s)

end Sys2Proof.Machine
end

