-- ==== Sys2Proof/Machine/Registers.lean ====
section
/-! DEFINITION. The registers of the diagnostic window as a port reads and writes them (R12, R13, R18, R52), in the layouts of R51,
R97, R129, R259, R293, R294, R416, R449, R469, R496, R531, R532, R575 and R642, and the outputs of the status pins (R64, R552, R553). -/
namespace Sys2Proof.Machine

/-- A field of `w` bits at bit `lo`. -/
def at_ (lo w v : Nat) : Nat := v % 2 ^ w * 2 ^ lo

/-- A flag at bit `lo`. -/
def flag (lo : Nat) (b : Bool) : Nat := if b then 2 ^ lo else 0

/-- High and low word of a 64-bit value. -/
def hiWord (v : Nat) : Nat := v / 4294967296
def loWord (v : Nat) : Nat := v % 4294967296

/-! ### Encodings -/

/-- A captured firing (FH_FIRST, FH_LAST, FH_SAFE, ID_PREV_SAFE; R531). -/
def captureBits (c : Capture) : Nat :=
  flag 63 c.valid + flag 62 c.injected + flag 61 c.escalated + at_ 58 3 c.cls + at_ 49 9 c.source + flag 48 c.isSelf + at_ 0 32 c.timeUs

def ltssmCode (l : Ltssm) : Nat :=
  match l with
  | .detect => 0 | .polling => 1 | .configuration => 2 | .l0 => 3 | .l0p => 4 | .recovery => 5 | .l1 => 6 | .l2 => 7
  | .disabled => 8 | .loopback => 9 | .hotReset => 10

def phaseCode (p : Phase) : Nat :=
  match p with
  | .held => 0 | .released => 1 | .linkDown => 2 | .lapsed => 3 | .handover => 4

def csCode (c : CsState) : Nat :=
  match c with
  | .disabled => 0 | .init => 1 | .active => 2 | .reset => 3 | .failed => 4

def lcCode (c : LcState) : Nat :=
  match c with
  | .disabled => 0 | .active => 1 | .reset => 2

def dcCode (c : DcState) : Nat :=
  match c with
  | .disabled => 0 | .training => 1 | .active => 2 | .selfRefresh => 3 | .freqChange => 4 | .replay => 5

def mvCode (c : MvState) : Nat :=
  match c with
  | .disabled => 0 | .idle => 1 | .fetch => 2 | .wait => 3 | .move => 4 | .resp => 5 | .halted => 6

def setCode (c : SetState) : Nat :=
  match c with
  | .erased => 0 | .inUse => 1 | .releasing => 2

def sanCode (c : SanState) : Nat :=
  match c with
  | .none => 0 | .crypto => 1 | .block => 2

/-! ### Identity, boot and architecture (R51, R575) -/

def idBoot (s : State) : Nat :=
  let b := s.boot
  at_ 28 4 b.stage + at_ 24 4 b.prevEnd + at_ 16 8 b.fatal + at_ 8 2 b.copy + flag 6 b.spiSlow + flag 5 b.pfWait + flag 4 b.recoveryLoss
    + flag 3 b.mapRebuilt + flag 2 b.nandDies + flag 1 b.identMismatch + flag 0 b.copyFallback

def idBootDetail (s : State) : Nat := at_ 16 16 s.boot.detailHi + at_ 0 16 s.boot.detailLo
def idBootTime (s : State) : Nat := at_ 16 16 s.boot.preMs + at_ 0 16 s.boot.ready10ms
def idReset (s : State) : Nat := at_ 28 4 s.boot.cause + at_ 0 16 s.boot.starts

/-- ID_CHIP: the stepping and the lifecycle state come from the OTP row, once it has been read. -/
def idChip (s : State) : Nat :=
  at_ 16 16 0x4600 + (if s.boot.stage = 0 then 0 else at_ 8 8 (nth 0 (otpBytes s 2 1) 0).toNat) + at_ 0 8 s.sec.lifecycle.toNat

def idState (s : State) : Nat :=
  flag 11 s.fh.latch + flag 10 s.hk.halt + flag 9 (throttlePower s) + flag 8 (throttleThermal s) + at_ 4 2 s.mediaMode + at_ 0 4 (driveState s)

/-- ID_CONFIG: its fields stand from the end of image validation; port_dual from the strap. -/
def idConfig (s : State) : Nat :=
  flag 21 s.boot.strapPort +
    (if s.boot.configSet then
      flag 23 (decide (s.image.board.dramChannels = 4)) + flag 22 (decide (s.policy.iuSize = 1))
        + at_ 16 4 (sumOf (fun g => if groupOn s g then 2 ^ g else 0) (List.range 4)) + at_ 13 3 (s.geo.diesPerTarget - 1)
        + at_ 11 2 (s.geo.targets - 1) + at_ 0 6 (chansOn s).length
    else 0)

def idChanEn (s : State) : Nat := if s.boot.configSet then s.image.board.chanMask else 0

def identityReg (s : State) (a : Nat) : Nat :=
  if a = 0x0 then idBoot s else if a = 0x4 then idBootDetail s else if a = 0x8 then idBootTime s else if a = 0xC then idReset s
  else if a = 0x10 then loWord (captureBits s.boot.prevSafe) else if a = 0x14 then hiWord (captureBits s.boot.prevSafe)
  else if a = 0x20 then idChip s else if a = 0x100 then idState s else if a = 0x104 then idConfig s else if a = 0x108 then idChanEn s else 0

/-! ### Ownership (R129) and host front ends (R97) -/

/-- Force from the port is refused now (R111). -/
def forceLocked (s : State) (p : PortId) : Bool :=
  match (s.port p).forceLock with
  | some t => decide (s.now < t)
  | none => false

/-- Milliseconds that the owner's link has been down (OWN_TIMER). -/
def downMs (s : State) : Nat :=
  match s.own.downSince with
  | some t => min 4294967295 ((s.now - t) / 1000)
  | none => 0

def ownPort (p : Port) : Nat := at_ 24 8 p.tokenHits + at_ 16 8 p.tokenConflicts + at_ 8 8 p.forceFails + at_ 0 6 p.tokens.length

def ownReg (s : State) (o : Nat) : Nat :=
  if o = 0x0 then
    flag 7 (forceLocked s .B) + flag 6 (forceLocked s .A) + flag 5 (decide (s.own.claimant = .B) && decide (s.own.phase = .handover))
      + flag 4 (decide (s.own.owner = .B)) + at_ 0 3 (phaseCode s.own.phase)
  else if o = 0x4 then s.own.generation.toNat
  else if o = 0x8 then downMs s
  else if o = 0xC then flag 16 (decide (s.own.lastWinner = .B)) + at_ 0 16 s.own.tieCount
  else if o = 0x10 then ownPort s.portA
  else if o = 0x14 then ownPort s.portB
  else if o = 0x18 then at_ 0 32 s.own.lastHandoverUs
  else 0

def hfeReg (s : State) (p : Port) (o : Nat) : Nat :=
  if o = 0x0 then
    let up := linkUp p
    flag 31 up + flag 30 p.flit + flag 29 p.laneReversed + (if up then at_ 24 3 p.speed + at_ 20 4 p.width else 0) + at_ 0 4 (ltssmCode p.ltssm)
  else if o = 0x4 then at_ 16 15 p.cmds.length + at_ 0 15 p.peak
  else if o = 0x8 then at_ 16 16 p.replayCount + at_ 0 16 p.fecCorrected
  else if o = 0xC then flag 7 (inTransition s) + at_ 4 3 s.misc.drivePs + at_ 0 3 p.selPs
  else 0

/-! ### Fault hub (R531, R532) -/

/-- Word k of a set of sources. -/
def sourceWord (l : List Nat) (k : Nat) : Nat := sumOf (fun i => if 32 * k + i ∈ l then 2 ^ i else 0) (List.range 32)

/-- One byte of FH_CLASSk; 0 until start-up has set the classes from the image (R504, R531). -/
def classByte (s : State) (n : Nat) : Nat :=
  if s.fh.classes.isEmpty then 0 else (if classFixed n then 128 else 0) + classOf s n % 8

def fhReg (s : State) (o : Nat) : Nat :=
  let h := s.fh
  if o = 0x0 then flag 31 h.latch + flag 30 h.selfSet + at_ 16 4 (recent s 600000000 h.c3Times).length + at_ 8 8 h.windows.length
  else if o = 0x8 then loWord (captureBits h.first) else if o = 0xC then hiWord (captureBits h.first)
  else if o = 0x10 then loWord (captureBits h.last) else if o = 0x14 then hiWord (captureBits h.last)
  else if o = 0x18 then loWord (captureBits h.safe) else if o = 0x1C then hiWord (captureBits h.safe)
  else if 0x40 ≤ o ∧ o < 0x68 then sourceWord h.status ((o - 0x40) / 4)
  else if 0x80 ≤ o ∧ o < 0xA8 then sourceWord h.sec ((o - 0x80) / 4)
  else if o = 0xC0 then at_ 16 9 h.tagPrimary + at_ 0 9 h.tagSource
  else if o = 0xC4 then h.selfBits.toNat
  else if o = 0xD0 then flag 31 h.injArmed + flag 30 h.injRefused + flag 29 h.injAddrEn + at_ 24 2 h.injMode + at_ 0 9 h.injSource
  else if o = 0xD8 then loWord h.injAddr.toNat else if o = 0xDC then hiWord h.injAddr.toNat
  else if o = 0xE0 then flag 31 h.aliveDriving + flag 30 h.aliveLevel + flag 29 h.aliveReadback + at_ 0 16 h.mismatches
  else if 0x100 ≤ o ∧ o < 0x240 then sumOf (fun i => classByte s ((o - 0x100) + i) * 256 ^ i) (List.range 4)
  else if o = 0x8000 then h.legArm.toNat
  else if o = 0x8004 then 0xA
  else 0

/-! ### Housekeeping (R496) -/

/-- The input closest to or furthest above its Throttle threshold; none is 0. -/
def hottest (s : State) : Nat :=
  let l := (List.range 20).filterMap fun i =>
    let x := nth {} s.hk.inputs i
    if takesPart x then (thresholds (inputRole s i)).map fun t => (i, x.temp - t.2.1) else none
  match maxInt (l.map (·.2)) with
  | none => 0
  | some m => ((l.find? fun x => x.2 = m).map (·.1)).getD 0

/-- Role of an input as HK_TEMPn shows it: 0 until the first round has started (R477, R496). -/
def shownRole (s : State) (i : Nat) : Nat := if s.hk.roundAt.isNone then 0 else inputRole s i

def hkReg (s : State) (o : Nat) : Nat :=
  let h := s.hk
  if o = 0x0 then flag 31 h.halt + flag 30 (throttlePower s) + at_ 27 3 h.level + at_ 16 5 (hottest s) + at_ 0 16 h.rounds
  else if 0x100 ≤ o ∧ o < 0x150 then
    let i := (o - 0x100) / 4
    let x := nth {} h.inputs i
    flag 31 x.valid + flag 30 x.held + at_ 28 2 (shownRole s i) + at_ 16 8 (leNat (leInt 1 x.peak)) + leNat (leInt 2 x.temp)
  else if 0x180 ≤ o ∧ o < 0x190 then
    let x := nth {} h.supplies ((o - 0x180) / 4)
    at_ 30 2 x.window + at_ 0 16 (x.tenthMv / 10)
  else if o = 0x1A0 then flag 31 h.curvesOk + at_ 12 10 h.bgTrim + at_ 0 10 h.oscTrim
  else if o = 0x1C0 then at_ 16 16 (budget s) + at_ 0 16 h.inUse
  else if o = 0x1C4 then at_ 16 16 h.waits + at_ 0 11 h.activeDies.length
  else if o = 0x1E0 then h.fault.toNat
  else 0

/-! ### Movers (R469), DRAM controllers (R449), sequencers (R259), clusters (R293) -/

/-- The channel's unit is enabled: channels 0 to 31 are those of the NAND channels (R42). -/
def moverOn (s : State) (n : Nat) : Bool := decide (32 ≤ n) || (s.boot.configSet && chanOn s n)

def moverReg (s : State) (o : Nat) : Nat :=
  let b := o / 0x400
  let x := getMoverBlock s b
  let w := o % 0x400
  if w = 0x200 then at_ 16 16 x.grants + at_ 8 8 x.gap + at_ 0 3 x.pointer
  else if w = 0x204 then x.fault.toNat
  else if w < 0x200 ∧ moverOn s (8 * b + w / 0x40) then
    let m := getMover s (8 * b + w / 0x40)
    let r := w % 0x40
    if r = 0x0 then at_ 29 3 (mvCode m.st) + at_ 25 4 m.code + at_ 0 16 m.hops
    else if r = 0x4 then loWord m.descAddr else if r = 0x8 then hiWord m.descAddr % 4294967296
    else if r = 0xC then at_ 0 24 m.remain
    else if r = 0x10 then flag 27 m.paceSrc.isSome + at_ 21 6 (m.paceSrc.getD 0) + at_ 0 12 m.credits
    else if r = 0x14 then at_ 0 32 m.done
    else 0
  else 0

/-- DCn_ERR_ADDR. -/
def dcErr (d : Dc) : Nat := flag 63 d.errValid + flag 62 d.errUnc + at_ 54 8 d.errSymbols + at_ 6 30 d.errBurst

def dcReg (s : State) (n o : Nat) : Nat :=
  let d := getDc s n
  if !(s.boot.configSet && dcOn s n) then 0
  else if o = 0x0 then
    at_ 29 3 (dcCode d.st) + flag 25 d.point3200 + flag 24 d.trained6400 + flag 23 d.trained3200 + flag 22 d.unusable3200
      + at_ 20 2 d.density + at_ 0 7 d.queue.length
  else if o = 0x4 then at_ 16 16 d.corrected + at_ 8 8 d.uncorrectable + at_ 0 8 d.poisoned
  else if o = 0x8 then loWord (dcErr d) else if o = 0xC then hiWord (dcErr d)
  else if o = 0x10 then at_ 16 16 d.targeted + at_ 0 15 s.policy.rhThreshold
  else if o = 0x14 then at_ 16 16 d.alerts + at_ 8 8 d.failedReplays + at_ 0 2 d.run
  else if o = 0x18 then 2 ^ min 8 d.remap.length - 1
  else if o = 0x1C then at_ 16 16 d.passes + at_ 0 16 d.rewrites
  else if o = 0x20 then d.fault.toNat
  else 0

/-- CSn_DIE_FAIL: bit target × 8 + die. -/
def dieFailBits (s : State) (ch : Nat) : Nat :=
  sumOf (fun d => if (getDie s d).isFailed then 2 ^ (d % 32) else 0) (diesOf s ch)

def csReg (s : State) (n o : Nat) : Nat :=
  let c := getChan s n
  if !(s.boot.configSet && chanOn s n) then 0
  else if o = 0x0 then
    let bad := fun (t : Nat) => ((diesOf s n).filter fun d => decide (d % 32 / 8 = t)).all fun d => (getDie s d).isFailed
    at_ 29 3 (csCode c.st) + at_ 20 4 c.rate + at_ 16 4 c.iface
      + at_ 12 4 (sumOf (fun t => if bad t then 2 ^ t else 0) (List.range s.geo.targets))
      + at_ 0 6 ((diesOf s n).filter fun d => (getDie s d).busy.isSome).length
  else if o = 0x4 then dieFailBits s n
  else if o = 0x8 then flag 31 (decide (0 < c.pauseUs)) + at_ 0 12 c.pauseUs
  else if o = 0xC then c.fault.toNat
  else if o = 0x10 then at_ 16 16 c.resetCount + at_ 0 16 c.lastResetUs
  else if o = 0x14 then at_ 16 16 c.suspends + at_ 0 16 c.suspendRefused
  else if o = 0x18 then at_ 28 4 c.trained.toNat + at_ 16 8 c.readDqs + at_ 8 8 c.writeDq + at_ 0 2 c.lastTarget
  else 0

def lcReg (s : State) (g o : Nat) : Nat :=
  let c := getCluster s g
  if !(s.boot.configSet && groupOn s g) then 0
  else if o = 0x0 then at_ 29 3 (lcCode c.st) + at_ 16 9 c.hardQ.length + at_ 0 6 c.softQ.length
  else if o = 0x4 then at_ 16 16 c.hardFail + at_ 0 16 c.softOk
  else if o = 0x8 then at_ 16 16 c.toAccord + at_ 0 16 c.retryOk
  else if o = 0xC then at_ 16 16 c.raReads + at_ 0 16 c.raDropped
  else if o = 0x10 then at_ 0 32 c.raDieUs
  else if o = 0x14 then c.fault.toNat
  else 0

/-- LC_CODE_ID and LC_CODE_SHAPE: the code in effect, 0 until start-up takes it from the image (R294). -/
def codeReg (s : State) (o : Nat) : Nat :=
  let c := s.image.ldpc
  if !s.boot.configSet then 0
  else if o = 0x0 then at_ 0 32 c.codeId
  else if o = 0x4 then at_ 24 8 c.softIterMax + at_ 16 8 c.hardIterMax + at_ 8 4 c.halfRows + at_ 0 8 c.cols
  else 0

/-! ### Power loss and journal (R416), security (R642) -/

/-- Records written in the latest full second (MJ_RATE). -/
def recordsPerS (s : State) : Nat :=
  if s.journal.rateFrom + 2000000 ≤ s.now then 0
  else if s.journal.rateFrom + 1000000 ≤ s.now then s.journal.rateNow else s.journal.rateLast

def mjRecovery (s : State) : Nat := at_ 16 16 s.journal.recMs + s.journal.recBits.toNat

/-- State of a refuge set as PLS_STATUS shows it: 0 until start-up has reached recovery, which reads it back (R405, R416). -/
def shownSet (s : State) (r : RefugeSet) : Nat := if s.boot.stage < 7 then 0 else setCode r.st

def plsReg (s : State) (o : Nat) : Nat :=
  let j := s.journal
  if o = 0x0 then
    at_ 28 4 j.pls + flag 27 j.pwrFail + flag 26 s.hk.holdupReady + at_ 20 2 (shownSet s j.setB) + at_ 18 2 (shownSet s j.setA) + at_ 0 8 j.nR
  else if o = 0x4 then at_ 16 16 j.anchor.lastFlushUs + at_ 0 16 j.anchor.flushes
  else if o = 0x8 then at_ 0 17 j.cover
  else if o = 0xC then at_ 16 16 s.hk.holdupMin + at_ 0 16 s.hk.holdupMv
  else if o = 0x10 then mapEpoch s
  else if o = 0x100 then at_ 0 32 j.laps
  else if o = 0x104 then at_ 0 32 (recordsPerS s)
  else if o = 0x108 then mjRecovery s
  else 0

/-- Seconds left of the unlock in effect (R640). -/
def unlockRemain (s : State) : Nat :=
  match s.sec.unlock with
  | some u => min 4095 (ceilDiv (u.since + 3600000000 - s.now) 1000000)
  | none => 0

def secReg (s : State) (o : Nat) : Nat :=
  if o = 0x0 then
    (match s.sec.unlock with
      | some u => flag 31 true + flag 30 (decide (u.port = .B)) + at_ 27 3 u.scope.toNat
      | none => 0)
      + at_ 25 2 (sanCode s.sec.sanitize) + flag 24 s.sec.debugOpen + at_ 12 12 (unlockRemain s) + at_ 0 8 s.sec.lifecycle.toNat
  else if o = 0x4 then at_ 16 16 s.sec.secVersionInUse + at_ 0 9 s.sec.floor
  else if o = 0x8 then at_ 24 8 s.portA.chFails + at_ 16 8 s.portB.chFails + at_ 0 16 s.sec.unlocks
  else if o = 0xC then at_ 0 32 s.sec.tagFail
  else 0

/-! ### Any register -/

/-- A word of the window (R18, R52); reserved words read as 0. -/
def regRead (s : State) (a : Nat) : BitVec 32 :=
  BitVec.ofNat 32 <|
    if a < 0x1000 then identityReg s a
    else if a < 0x2000 then ownReg s (a - 0x1000)
    else if a < 0x2400 then hfeReg s s.portA (a - 0x2000)
    else if a < 0x2800 then (if s.boot.strapPort then hfeReg s s.portB (a - 0x2400) else 0)
    else if a < 0x10000 then 0
    else if a < 0x20000 then fhReg s (a - 0x10000)
    else if a < 0x30000 then hkReg s (a - 0x20000)
    else if a < 0x32000 then moverReg s (a - 0x30000)
    else if a < 0x40000 then 0
    else if a < 0x44000 then dcReg s ((a - 0x40000) / 0x1000) (a % 0x1000)
    else if a < 0x50000 then 0
    else if a < 0x58000 then csReg s ((a - 0x50000) / 0x400) (a % 0x400)
    else if a < 0x60000 then 0
    else if a < 0x61000 then lcReg s ((a - 0x60000) / 0x400) (a % 0x400)
    else if a < 0x70000 then codeReg s (a - 0x61000)
    else if a < 0x80000 then plsReg s (a - 0x70000)
    else if a < 0x90000 then secReg s (a - 0x80000)
    else 0

/-- The address is the low word of a 64-bit register (R16; R449, R469, R531, R575). -/
def isLow64 (a : Nat) : Bool :=
  decide (a ∈ [0x10, 0x10008, 0x10010, 0x10018, 0x100D8])
    || (decide (0x40000 ≤ a) && decide (a < 0x44000) && decide (a % 0x1000 = 8))
    || (decide (0x30000 ≤ a) && decide (a < 0x32000) && decide (a % 0x400 < 0x200) && decide (a % 0x40 = 4))

/-- The address is the high word of a 64-bit register. -/
def isHigh64 (a : Nat) : Bool := decide (4 ≤ a) && isLow64 (a - 4)

/-! ### Writes -/

/-- Clear the bits of a fault field that are written 1 (R12). -/
def clearBits {n : Nat} (f v : BitVec n) : BitVec n := f &&& ~~~v

/-- Write a register of a host front end (R97). -/
def writeHfe (s : State) (p : PortId) (o v : Nat) : State :=
  if o = 0x4 then s.onPort p fun x => { x with peak := field v 14 0 }
  else if o = 0x8 then s.onPort p fun x => { x with replayCount := field v 31 16, fecCorrected := field v 15 0 }
  else s

/-- Write a register of the ownership range (R129). -/
def writeOwn (s : State) (o v : Nat) : State :=
  if o = 0xC then s.onOwn fun x => { x with tieCount := field v 15 0 }
  else if o = 0x10 then s.onPort .A fun x => { x with tokenHits := field v 31 24, tokenConflicts := field v 23 16 }
  else if o = 0x14 then s.onPort .B fun x => { x with tokenHits := field v 31 24, tokenConflicts := field v 23 16 }
  else s

/-- Write a register of the fault hub without a row of its own (R531). -/
def writeFh (s : State) (o v : Nat) : State :=
  let gone := fun (k : Nat) (l : List Nat) => l.filter fun n => !(decide (n / 32 = k) && v.testBit (n % 32))
  if 0x40 ≤ o ∧ o < 0x68 then s.onFh fun h => { h with status := gone ((o - 0x40) / 4) h.status }
  else if 0x80 ≤ o ∧ o < 0xA8 then s.onFh fun h => { h with sec := gone ((o - 0x80) / 4) h.sec }
  else if o = 0xE0 then s.onFh fun h => { h with mismatches := field v 15 0 }
  else s

/-- Write a register of the housekeeping unit (R496). -/
def writeHk (s : State) (o v : Nat) : State :=
  if 0x100 ≤ o ∧ o < 0x150 then
    s.onHk fun h => { h with inputs := setNth h.inputs ((o - 0x100) / 4) fun x => { x with peak := byteInt (BitVec.ofNat 8 (field v 23 16)) } }
  else if o = 0x1C4 then s.onHk fun h => { h with waits := field v 31 16 }
  else if o = 0x1E0 then s.onHk fun h => { h with fault := clearBits h.fault (BitVec.ofNat 24 v) }
  else s

/-- Write a register of the movers (R469). -/
def writeMover (s : State) (o v : Nat) : State :=
  let b := o / 0x400
  let w := o % 0x400
  if w = 0x200 then modMoverBlock s b fun x => { x with grants := field v 31 16 }
  else if w = 0x204 then modMoverBlock s b fun x => { x with fault := clearBits x.fault (BitVec.ofNat 8 v) }
  else if w < 0x200 ∧ w % 0x40 = 0x14 ∧ moverOn s (8 * b + w / 0x40) then modMover s (8 * b + w / 0x40) fun m => { m with done := v }
  else s

/-- Write a register of a DRAM controller (R449). -/
def writeDc (s : State) (n o v : Nat) : State :=
  if !(s.boot.configSet && dcOn s n) then s
  else if o = 0x4 then modDc s n fun d => { d with corrected := field v 31 16, uncorrectable := field v 15 8, poisoned := field v 7 0 }
  else if o = 0x10 then modDc s n fun d => { d with targeted := field v 31 16 }
  else if o = 0x14 then modDc s n fun d => { d with alerts := field v 31 16, failedReplays := field v 15 8 }
  else if o = 0x1C then modDc s n fun d => { d with rewrites := field v 15 0 }
  else if o = 0x20 then modDc s n fun d => { d with fault := clearBits d.fault (BitVec.ofNat 8 v) }
  else s

/-- Write a register of a channel sequencer (R259). -/
def writeCs (s : State) (n o v : Nat) : State :=
  if !(s.boot.configSet && chanOn s n) then s
  else if o = 0xC then modChan s n fun c => { c with fault := clearBits c.fault (BitVec.ofNat 4 v) }
  else if o = 0x10 then modChan s n fun c => { c with resetCount := field v 31 16 }
  else if o = 0x14 then modChan s n fun c => { c with suspends := field v 31 16, suspendRefused := field v 15 0 }
  else s

/-- Write a register of an LDPC cluster (R293). -/
def writeLc (s : State) (g o v : Nat) : State :=
  if !(s.boot.configSet && groupOn s g) then s
  else if o = 0x4 then modCluster s g fun c => { c with hardFail := field v 31 16, softOk := field v 15 0 }
  else if o = 0x8 then modCluster s g fun c => { c with toAccord := field v 31 16, retryOk := field v 15 0 }
  else if o = 0xC then modCluster s g fun c => { c with raReads := field v 31 16, raDropped := field v 15 0 }
  else if o = 0x10 then modCluster s g fun c => { c with raDieUs := v }
  else if o = 0x14 then modCluster s g fun c => { c with fault := clearBits c.fault (BitVec.ofNat 6 v) }
  else s

/-- Write a register of the security block (R642). -/
def writeSec (s : State) (o v : Nat) : State :=
  if o = 0x8 then s.onSec fun x => { x with unlocks := field v 15 0 }
  else if o = 0xC then s.onSec fun x => { x with tagFail := v }
  else s

/-- Apply a write of a 32-bit register that has no row of its own; read-only and reserved words ignore it (R12, R52). -/
def regWrite (s : State) (a : Nat) (w : BitVec 32) : State :=
  let v := w.toNat
  if a < 0x1000 then s
  else if a < 0x2000 then writeOwn s (a - 0x1000) v
  else if a < 0x2400 then writeHfe s .A (a - 0x2000) v
  else if a < 0x2800 then (if s.boot.strapPort then writeHfe s .B (a - 0x2400) v else s)
  else if a < 0x10000 then s
  else if a < 0x20000 then writeFh s (a - 0x10000) v
  else if a < 0x30000 then writeHk s (a - 0x20000) v
  else if a < 0x32000 then writeMover s (a - 0x30000) v
  else if a < 0x40000 then s
  else if a < 0x44000 then writeDc s ((a - 0x40000) / 0x1000) (a % 0x1000) v
  else if a < 0x50000 then s
  else if a < 0x58000 then writeCs s ((a - 0x50000) / 0x400) (a % 0x400) v
  else if a < 0x60000 then s
  else if a < 0x61000 then writeLc s ((a - 0x60000) / 0x400) (a % 0x400) v
  else if a < 0x70000 then s
  else if a < 0x80000 then (if a = 0x7000C then s.onHk fun h => { h with holdupMin := field v 31 16 } else s)
  else if a < 0x90000 then writeSec s (a - 0x80000) v
  else s

/-- Apply a write of a 64-bit register: the high word, and the low word if one is buffered (R17). `a` is its low address. -/
def regWrite64 (s : State) (a : Nat) (lo : Option (BitVec 32)) (hi : BitVec 32) : State :=
  if a = 0x10008 then (if hi.getLsbD 31 then s.onFh fun h => { h with first := { h.first with valid := false } } else s)
  else if a = 0x100D8 then
    s.onFh fun h => { h with injAddr := BitVec.ofNat 40 (at_ 32 8 hi.toNat + (lo.map (·.toNat)).getD (loWord h.injAddr.toNat)) }
  else if 0x40000 ≤ a ∧ a < 0x44000 ∧ s.boot.configSet ∧ dcOn s ((a - 0x40000) / 0x1000) then
    (if hi.getLsbD 31 then modDc s ((a - 0x40000) / 0x1000) fun d => { d with errValid := false } else s)
  else s

/-! ### Status pins -/

/-- What an LED shows (R552). -/
inductive Led where
  | off
  | on
  | blink
  deriving DecidableEq, Repr

/-- In reset every LED is off (R552, R553). -/
def ledsDark (s : State) : Bool := !hkRuns s

def led0 (s : State) : Led :=
  if ledsDark s || !(s.portA.rdy || s.portB.rdy) then .off
  else match s.misc.lastIo with
    | some t => if s.now < t + 250000 then .blink else .on
    | none => .on

def led1 (s : State) : Led :=
  if ledsDark s then .off
  else match driveState s with
    | 5 => .on
    | 3 | 4 => .blink
    | _ => .off

def led2 (s : State) : Led :=
  if ledsDark s then .off
  else match driveState s with
    | 2 => .on
    | 1 => .blink
    | _ => .off

/-- In dual x2 mode CLKREQ# is driven low while either link is up (R64). -/
def clkreqLow (s : State) : Bool := s.boot.strapPort && (linkUp s.portA || linkUp s.portB)

/-- ALIVE's level: low in reset and in SAFE (R524, R528, R553). -/
def alivePin (s : State) : Bool := s.fh.aliveDriving && s.fh.aliveLevel

/-- The NAND is write protected (NDn_WP_N low) in reset, and in SAFE once its flush has ended (R553). -/
def nandProtected (s : State) : Bool := !hkRuns s || (decide (s.run = .safe) && decide (s.journal.pls ≠ 2))

end Sys2Proof.Machine
end

