-- ==== Sys2Proof/Machine/LogPages.lean ====
section
/-! DEFINITION. Log pages (R78, R362, R483, R573, R596, R604 to R613, R617). Bytes that the spec leaves to the NVMe base
specification are free values (Config.stdByte, structure 256 + page); the places of the fields it names are that
specification's (log entry 3). -/
namespace Sys2Proof.Machine

/-! ### Health figures -/

/-- Available Spare and its threshold (R362). -/
def availableSpare (s : State) : Nat :=
  if s.upkeep.spareNew ≤ 0 then 0 else min 100 ((max 0 (spareEquiv s)).toNat * 100 / s.upkeep.spareNew.toNat)

def spareThreshold (s : State) : Nat :=
  if s.upkeep.spareNew ≤ 0 then 100 else ceilDiv (s.policy.spareMin * 100) s.upkeep.spareNew.toNat

/-- Percentage Used (R362). -/
def percentUsed (s : State) : Nat := if s.geo.peRated = 0 then 0 else min 255 (eraseMean s * 100 / s.geo.peRated)

/-- Temperature Sensor 2, the highest NAND input, in 1/16 °C (R483). -/
def nandHottest (s : State) : Option Int := maxInt (readingsOf s fun i x => decide (inputRole s i = 1) && takesPart x)

/-- Composite Temperature in 1/16 °C (R483). -/
def compositeTemp (s : State) : Option Int :=
  match nandHottest s, junction s with
  | some n, some j => some (max n (j - 480))
  | some n, none => some n
  | none, some j => some (j - 480)
  | none, none => none

/-- Whole kelvin of a reading in 1/16 °C. -/
def kelvin (t : Int) : Nat := (t / 16 + 273).toNat

/-- The composite temperature has reached the Temperature Threshold feature, whose default is WCTEMP (base specification, log
entry 3). -/
def overTemp (s : State) : Bool :=
  match compositeTemp s with
  | some t => decide (tget (featureDefault 4) s.misc.features 4 ≤ kelvin t)
  | none => false

/-- SMART critical warning: spare, temperature (R489, R491), degraded (R326, R525), read-only (R359, R362), hold-up (R373). -/
def criticalWarning (s : State) : Nat :=
  flag 0 (decide (availableSpare s < spareThreshold s)) + flag 1 (s.hk.halt || s.hk.haltWarn || overTemp s) + flag 2 (s.upkeep.degraded || s.fh.latch)
    + flag 3 (decide (s.mediaMode ≠ 0)) + flag 4 (!s.hk.holdupReady)

/-- A temperature of a structure, in kelvin, where there is one. -/
def tempPiece (o : Nat) (t : Option Int) : List (Nat × List Byte) :=
  match t with
  | some t => [(o, leBytes 2 (kelvin t))]
  | none => []

/-! ### Standard pages -/

/-- SMART / Health Information (R362, R373, R483, R326). -/
def smartPieces (s : State) : List (Nat × List Byte) :=
  [(0, leBytes 1 (criticalWarning s)), (3, leBytes 1 (availableSpare s)), (4, leBytes 1 (spareThreshold s))
    , (5, leBytes 1 (percentUsed s)), (160, leBytes 16 s.upkeep.mediaErrors)]
    ++ tempPiece 1 (compositeTemp s) ++ tempPiece 200 (junction s) ++ tempPiece 202 (nandHottest s)

/-- Firmware Slot (R596). -/
def slotPieces (s : State) : List (Nat × List Byte) :=
  let next := if firstCopy s = s.copyInUse then 0 else firstCopy s
  [(0, leBytes 1 (s.copyInUse + 16 * next)), (8, padded 8 (frOf s 1)), (16, padded 8 (frOf s 2))]

/-- Commands Supported and Effects (R617): CSE is serialisation against every other command, LBCC bit 1. -/
def effectPieces : List (Nat × List Byte) :=
  [(4 * 0xC0, leBytes 4 0x20001), (4 * 0xC2, leBytes 4 3), (4 * 0xC3, leBytes 4 1), (1024 + 4 * 0x81, leBytes 4 1)]

/-- ANA state of group 1 through a port (R80). -/
def anaState (s : State) (p : PortId) : Nat :=
  if s.own.phase = .handover then 0xF else if isOwner s p then 1 else if s.policy.anaObserverState = 1 then 3 else 2

/-- Asymmetric Namespace Access (R80, R81). -/
def anaPieces (s : State) (p : PortId) : List (Nat × List Byte) :=
  let count := (s.port p).anaCount
  let ids := (s.path.spaces.map (·.nsid)).foldr addRising []
  [(0, leBytes 8 count), (8, leBytes 2 1), (16, leBytes 4 1), (20, leBytes 4 ids.length), (24, leBytes 8 count)
    , (32, leBytes 1 (anaState s p)), (48, ids.flatMap fun i => leBytes 4 i)]

/-- Endurance Group Information (R83, R362). -/
def endurancePieces (s : State) : List (Nat × List Byte) :=
  [(3, leBytes 1 (availableSpare s)), (4, leBytes 1 (spareThreshold s)), (5, leBytes 1 (percentUsed s))]

/-- FDP Configurations (R83, R87). -/
def fdpPieces (s : State) : List (Nat × List Byte) :=
  [(0, leBytes 2 0), (20, leBytes 4 1), (24, leBytes 2 s.policy.fdpRuhCount), (32, leBytes 8 (sbUser s (nativeMode s)))
    , (80, (List.range s.policy.fdpRuhCount).flatMap fun _ => leBytes 4 1)]

/-- Reclaim Unit Handle Usage (R83, R86). -/
def ruhPieces (s : State) : List (Nat × List Byte) :=
  let used := fun (h : Nat) => s.path.spaces.any fun n => decide (h ∈ n.handles)
  [(0, leBytes 2 s.policy.fdpRuhCount), (8, (List.range s.policy.fdpRuhCount).flatMap fun h => leBytes 8 (b2n (used h)))]

/-- FDP Statistics: host bytes and media bytes written (R605). -/
def fdpStatPieces (s : State) : List (Nat × List Byte) :=
  [(0, leBytes 16 (s.upkeep.hostUnits * 4096)), (16, leBytes 16 (s.upkeep.mediaUnits * 4096))]

/-- Base specification's type of an FDP event of R207. -/
def fdpType (code : Nat) : Nat := if code = 5 then 0x80 else if code = 6 then 0x81 else code - 1

/-- FDP Events (R88, R207). -/
def fdpEventPieces (s : State) : List (Nat × List Byte) :=
  (0, leBytes 4 s.upkeep.fdpEvents.length)
    :: ((List.range s.upkeep.fdpEvents.length).zip s.upkeep.fdpEvents).map fun e => (64 + 64 * e.1, leBytes 1 (fdpType e.2.1))

/-- Sanitize Status (R635): in progress, or as the base specification has it otherwise. -/
def sanitizePieces (s : State) : List (Nat × List Byte) := if sanitizing s then [(2, leBytes 2 2)] else []

/-- The places the spec fills of a standard page; none for a page that is not supported (R78). -/
def stdPieces (s : State) (p : PortId) (lid : Nat) : Option (List (Nat × List Byte)) :=
  if lid = 0x02 then some (smartPieces s)
  else if lid = 0x03 then some (slotPieces s)
  else if lid = 0x05 then some effectPieces
  else if lid = 0x09 then some (endurancePieces s)
  else if lid = 0x0C then some (anaPieces s p)
  else if lid = 0x20 then some (fdpPieces s)
  else if lid = 0x21 then some (ruhPieces s)
  else if lid = 0x22 then some (fdpStatPieces s)
  else if lid = 0x23 then some (fdpEventPieces s)
  else if lid = 0x81 then some (sanitizePieces s)
  else if lid = 0x01 ∨ lid = 0x04 ∨ lid = 0x06 ∨ lid = 0x07 then some []
  else none

/-! ### Vendor pages -/

/-- Four bytes of a register's value. -/
def word (v : Nat) : List Byte := leBytes 4 v

/-- Extended Health, C0h (R605). -/
def extendedHealth (s : State) : List Byte :=
  patched 512 (fun _ => 0)
    [(0, word (idBoot s)), (4, word (idBootDetail s)), (8, word (idBootTime s)), (12, word (idReset s))
      , (16, leBytes 8 (captureBits s.boot.prevSafe)), (24, word (idChip s)), (28, word (idState s)), (32, word (idConfig s))
      , (36, word (idChanEn s)), (40, leInt 4 (spareEquiv s)), (44, leInt 4 s.upkeep.spareNew), (48, word (eraseMin s))
      , (52, word (eraseMax s)), (56, word (eraseMean s))
      , (60, word (s.media.blocks.filter fun e => decide (e.2.pool = .retired)).length), (64, word (freeBlocks s))
      , (68, leBytes 2 s.upkeep.slcCache), (72, word s.upkeep.scrubPasses), (76, word s.upkeep.overruns), (80, word s.misc.sramCorrected)
      , (84, word s.misc.sramUncorrectable), (88, leBytes 2 s.misc.sramRemap.length), (90, leBytes 2 s.misc.sramFull)
      , (92, word s.misc.mramCorrected), (96, word s.misc.mramUncorrectable), (100, leBytes 1 s.misc.mramRemap.length)
      , (104, (List.range 4).flatMap fun n => leBytes 1 (getDc s n).remap.length)
      , (108, word (match s.boot.selfTest with | some n => 0x80000000 + n | none => 0)), (112, leBytes 8 (ovlUsed s))
      , (120, word s.journal.laps), (124, word (mjRecovery s)), (128, leBytes 8 s.upkeep.hostUnits), (136, leBytes 8 s.upkeep.mediaUnits)]

/-- Lost-IU, C1h (R606). -/
def lostPage (s : State) : List Byte :=
  let l := (List.range s.upkeep.lostNext).flatMap fun i => s.upkeep.lost.filter fun e => decide (e.num = i)
  leBytes 8 s.upkeep.lostChange ++ leBytes 4 s.upkeep.lost.length ++ leBytes 4 0 ++ leBytes 8 s.upkeep.lostNext ++ List.replicate 40 0
    ++ l.flatMap fun e => lostBytes e ++ leBytes 8 0

/-- Seal Horizon, C2h (R608). -/
def horizonPage (s : State) : List Byte :=
  patched 64 (fun _ => 0)
    [(0, leBytes 8 s.path.horizon), (8, leBytes 8 (s.path.nextSeq - 1)), (16, word (stagedUnits s)), (20, word s.journal.cover)
      , (24, leBytes 1 (flag 0 s.hk.holdupReady + flag 1 (!s.hk.holdupReady || s.path.vwcOff))), (28, word s.policy.sealPadDelay)]

/-- Highest record number of a history whose next record gets number n; 0 while it has none. -/
def highest (next : Nat) : Nat := next - 1

/-- Fault History, C3h (R609). -/
def faultPage (s : State) : List Byte :=
  leBytes 8 (highest s.fh.historyNext) ++ leBytes 4 s.fh.history.length ++ leBytes 4 0 ++ leBytes 8 (captureBits s.fh.first)
    ++ leBytes 8 (captureBits s.fh.safe) ++ List.replicate 32 0 ++ s.fh.history.flatMap faultBytes

/-- Whole minutes of microseconds. -/
def minutesOf (us : Nat) : Nat := us / 60000000

/-- The summary of one temperature input (R610). -/
def inputSummary (s : State) (i : Nat) : List Byte :=
  let x := nth {} s.hk.inputs i
  leBytes 1 (shownRole s i) ++ leBytes 1 (flag 0 x.valid + flag 1 x.held) ++ leInt 2 x.temp ++ leInt 2 x.lifePeak ++ leBytes 2 0
    ++ word (minutesOf x.usWarn) ++ word (minutesOf x.usThrottle)

/-- A Thermal History record (R610). -/
def thermBytes (r : ThermRec) : List Byte :=
  word r.num ++ word r.minutes ++ leBytes 1 r.input ++ leBytes 1 r.event ++ leBytes 1 r.level ++ leBytes 1 0 ++ leInt 2 r.reading ++ leBytes 2 0

/-- Thermal History, C4h (R610). -/
def thermalPage (s : State) : List Byte :=
  let h := s.hk
  leBytes 8 (highest h.historyNext) ++ word h.history.length ++ leBytes 1 h.level ++ leBytes 1 (flag 0 h.halt + flag 1 (throttlePower s))
    ++ leInt 2 ((junction s).getD 0) ++ word (minutesOf h.usThrottled) ++ word (minutesOf h.usHalted) ++ word h.halts
    ++ List.replicate 36 0 ++ (List.range 20).flatMap (inputSummary s) ++ h.history.flatMap thermBytes

/-- One extent of the cursor (R611). -/
def extentBytes (s : State) (e : Nat × Nat × Nat) : List Byte :=
  let per := match findNs s e.1 with | some n => lbasPerIu s n | none => 0
  leBytes 8 (e.2.1 * per) ++ leBytes 4 (e.2.2 * per) ++ leBytes 1 e.1 ++ leBytes 3 0

/-- Drydown Cursor, C5h (R611). -/
def cursorPage (s : State) : List Byte :=
  let u := s.upkeep
  let l := if u.cursorState = 2 then u.cursor else []
  word u.cursorGen ++ leBytes 1 u.cursorState ++ leBytes 3 0 ++ leBytes 8 (sumOf (fun e => e.2.2) l) ++ List.replicate 48 0
    ++ l.flatMap (extentBytes s)

/-- Rebuild state (R613): idle, running, waiting for blocks, impossible under R300. -/
def rebuildState (s : State) : Nat :=
  if (rebuildUnits s).isEmpty then 0
  else if chansGood s < 18 then 3
  else if (s.media.sbs.any fun b => decide (b.use = .rebuildDest) && decide (b.st = .isOpen)) || decide (18 ≤ (pickChans s 18 []).length) then 1
  else 2

/-- Stripes of a state over all super-blocks (R325). -/
def stripesIn_ (s : State) (st : Nat) : Nat :=
  sumOf (fun b => ((List.range (stripesIn s b.mode)).filter fun k => decide (stripeState s b k = st)).length) s.media.sbs

/-- One channel of the Accord Status page (R613). -/
def chanBytes8 (s : State) (ch : Nat) : List Byte :=
  leBytes 1 (csCode (getChan s ch).st) ++ leBytes 1 ((diesOf s ch).filter fun d => dieLost s d).length ++ leBytes 2 0
    ++ word (s.media.sbs.filter fun b => decide (ch ∈ b.chans)).length

/-- Units of 4 KiB that rebuild has still to move (R187, R325). -/
def rebuildLeft (s : State) : Nat := sumOf (fun x => if x.2.sub.isSome then 1 else subsPerIu s) (rebuildUnits s)

/-- Accord Status, C6h (R325, R613). The oldest super-block still to be rebuilt is the one formed first, by its serial (DESIGN CHOICE, log
entry 85). -/
def accordPage (s : State) : List Byte :=
  let deg := match minBy (·.serial) ((rebuildUnits s).map (·.1)) with | some b => b.sDeg.getD 0 | none => 0
  (List.range 4).flatMap (fun st => leBytes 8 (stripesIn_ s st)) ++ leBytes 8 (rebuildLeft s) ++ leBytes 8 s.upkeep.rebuildMoved
    ++ leBytes 1 (rebuildState s) ++ leBytes 1 s.policy.rebuildPriority ++ leBytes 2 0 ++ word s.upkeep.lastLossMin ++ leBytes 8 deg
    ++ (List.range 32).flatMap (fun n => if chanOn s n then chanBytes8 s n else leBytes 8 0)
    ++ leBytes 8 s.upkeep.columnsRebuilt ++ leBytes 8 s.upkeep.columnsLost

/-- A vendor page (R604). -/
def vendorPage (s : State) (lid : Nat) : Option (List Byte) :=
  if lid = 0xC0 then some (extendedHealth s)
  else if lid = 0xC1 then some (lostPage s)
  else if lid = 0xC2 then some (horizonPage s)
  else if lid = 0xC3 then some (faultPage s)
  else if lid = 0xC4 then some (thermalPage s)
  else if lid = 0xC5 then some (cursorPage s)
  else if lid = 0xC6 then some (accordPage s)
  else none

/-! ### Get Log Page -/

/-- The boot ROM serves four pages (R573). -/
def pageServed (s : State) (lid : Nat) : Bool := !s.boot.romServes || decide (lid ∈ [0x01, 0x02, 0xC0, 0xC3])

/-- A read with Retain Asynchronous Event cleared ends the wait of R355 for the page on the reading controller. -/
def endPageWait (s : State) (p : PortId) (lid : Nat) (r : LogReq) : State :=
  if r.rae then s else s.onPort p fun pt => { pt with blocked := pt.blocked.filter (· ≠ lid) }

/-- The part of a page that is asked for; beyond its end it reads as zero (R604). -/
def slicePage (bs : List Byte) (r : LogReq) : List Byte := (((bs.drop r.offset).take r.len) ++ List.replicate r.len 0).take r.len

/-- Read the cursor: only from its start, or on from where the port's previous read ended (R612). -/
def readCursor (a : AdminId) (r : LogReq) (s : State) : State :=
  let pt := s.port a.port
  if r.offset ≠ 0 ∧ (r.offset ≠ pt.c5Resume ∨ pt.c5Gen ≠ s.upkeep.cursorGen) then adminDone s a .invalidField
  else
    let gen := s.upkeep.cursorGen
    let s := answerWith s a (.inl (slicePage (cursorPage s) r))
    endPageWait (s.onPort a.port fun pt => { pt with c5Resume := r.offset + r.len, c5Gen := gen }) a.port 0xC5 r

/-- Get Log Page (R604). -/
def readLog (a : AdminId) (lid : Nat) (r : LogReq) (s : State) : State :=
  if !pageServed s lid then adminDone s a .invalidLogPage
  else if r.offset % 4 ≠ 0 then adminDone s a .invalidField
  else if lid = 0xC5 then readCursor a r s
  else match vendorPage s lid, stdPieces s a.port lid with
    | some bs, _ => endPageWait (answerWith s a (.inl (slicePage bs r))) a.port lid r
    | none, some ps =>
      let bs := patched (r.offset + r.len) (stdBytes (256 + lid) a.port) ps
      endPageWait (answerWith s a (.inl (slicePage bs r))) a.port lid r
    | none, none => adminDone s a .invalidLogPage

/-- GET_LOG_PAGE (R78, R604): any page; those of the vendor have rows of their own as well. -/
def execGetLogPage (a : AdminId) (lid : Nat) (r : LogReq) (s : State) : Host.Outcome State Fault Refusal :=
  .next (adminCmd s a .report (.getLogPage a lid r) (readLog a lid r))

/-- GET_LOG_PAGE_EXTENDED_HEALTH (R605). -/
def execGetLogPageExtendedHealth (a : AdminId) (r : LogReq) (s : State) : Host.Outcome State Fault Refusal :=
  .next (adminCmd s a .report (.getLogPageExtendedHealth a r) (readLog a 0xC0 r))

/-- GET_LOG_PAGE_LOST_IU (R606). -/
def execGetLogPageLostIu (a : AdminId) (r : LogReq) (s : State) : Host.Outcome State Fault Refusal :=
  .next (adminCmd s a .report (.getLogPageLostIu a r) (readLog a 0xC1 r))

/-- GET_LOG_PAGE_SEAL_HORIZON (R608). -/
def execGetLogPageSealHorizon (a : AdminId) (r : LogReq) (s : State) : Host.Outcome State Fault Refusal :=
  .next (adminCmd s a .report (.getLogPageSealHorizon a r) (readLog a 0xC2 r))

/-- GET_LOG_PAGE_FAULT_HISTORY (R609). -/
def execGetLogPageFaultHistory (a : AdminId) (r : LogReq) (s : State) : Host.Outcome State Fault Refusal :=
  .next (adminCmd s a .report (.getLogPageFaultHistory a r) (readLog a 0xC3 r))

/-- GET_LOG_PAGE_THERMAL_HISTORY (R610). -/
def execGetLogPageThermalHistory (a : AdminId) (r : LogReq) (s : State) : Host.Outcome State Fault Refusal :=
  .next (adminCmd s a .report (.getLogPageThermalHistory a r) (readLog a 0xC4 r))

/-- GET_LOG_PAGE_DRYDOWN_CURSOR (R611, R612). -/
def execGetLogPageDrydownCursor (a : AdminId) (r : LogReq) (s : State) : Host.Outcome State Fault Refusal :=
  .next (adminCmd s a .report (.getLogPageDrydownCursor a r) (readLog a 0xC5 r))

/-- GET_LOG_PAGE_ACCORD_STATUS (R613). -/
def execGetLogPageAccordStatus (a : AdminId) (r : LogReq) (s : State) : Host.Outcome State Fault Refusal :=
  .next (adminCmd s a .report (.getLogPageAccordStatus a r) (readLog a 0xC6 r))

end Sys2Proof.Machine
end

