-- ==== Sys2Proof/Machine/Ownership.lean ====
section
/-! DEFINITION. Ownership (R98, R104 to R121), Drydown Control (R363, R364, R369, R370) and Diagnostic Unlock (R637 to R641). -/
namespace Sys2Proof.Machine

/-! ### Claim -/

/-- A vendor command as its token is stored with (R123): opcode, dwords after the token, and the host's data. -/
structure VendorReq where
  token  : Nat
  opcode : Nat
  print  : BitVec 32
  deriving DecidableEq, Repr

/-- The request of a vendor command: CDW11 and CDW12, whether a reserved field is not 0, and the host's data. -/
def vendorReq (token opcode d11 d12 : Nat) (reservedBad : Bool) (data : List Byte) : VendorReq :=
  { token := token, opcode := opcode, print := tokenPrint [token, d11, d12, b2n reservedBad, 0, 0] data }

/-- Complete a vendor command and store its token (R124, R127). -/
def vendorEnd (s : State) (a : AdminId) (q : VendorReq) (st : Status) (dw0 : BitVec 32 := 0) : State :=
  vendorDone s a { token := q.token, opcode := q.opcode, print := q.print, status := st, dw0 := dw0, dw1 := 0 }

/-- The key's hash is takeover_key_hash, and that is not all zero (R110). -/
def keyHashOk (s : State) (key : BitVec 256) : Bool :=
  decide (s.policy.takeoverKeyHash ≠ 0) && decide (BitVec.ofNat 256 (leNat (sha256 (leBytes 32 key.toNat))) = s.policy.takeoverKeyHash)

/-- DW0 of a refused Claim by the phase (R112). -/
def refusedDw0 (s : State) : BitVec 32 :=
  match s.own.phase with
  | .held => 0xFFFFFFFF
  | .linkDown => BitVec.ofNat 32 (max 1 (s.policy.takeoverHold - downMs s))
  | .lapsed | .released => 0
  | .handover => 0xFFFFFFFE

/-- A Claim is refused (R109, R112). -/
def refuseClaim (s : State) (a : AdminId) (q : VendorReq) : State := vendorEnd s a q .takeoverRefused (refusedDw0 s)

/-- Count a failed Force check; the fourth in a row refuses Force for 60 s (R111). -/
def countForceFail (s : State) (p : PortId) : State :=
  s.onPort p fun pt =>
    if 4 ≤ pt.forceFails + 1 then { pt with forceFails := 0, forceLock := some (s.now + 60000000) }
    else { pt with forceFails := pt.forceFails + 1 }

/-- The old owner's write ends at t0: it has no number yet, or its data transfer has not begun (R117 steps 2 and 3). -/
def endsAtT0 (c : OutCmd) : Bool :=
  isWriteOp c.entry.op && !c.prot && (c.seq.isNone || (hasData c.entry.op && !c.dataBegun))

/-- The end of an old owner's write at t0: with Asymmetric Access Transition, or, where its link is down and nothing can carry a
completion, as in step 5 without one (R117 steps 2 and 3, R119). -/
def endAtT0 (down : Bool) (s : State) (c : OutCmd) : State :=
  if down then endSilently s c else failWrite s c .asymmetricAccessTransition

/-- Start a handover (R117 steps 1 to 3, R119). -/
def startHandover (s : State) (a : AdminId) (q : VendorReq) : State :=
  let s := s.onOwn fun o => { o with
    phase := .handover, claimant := a.port
    claim := some { port := a.port, cid := some a.cid, token := q.token, print := q.print, t0 := s.now } }
  let down := linkIsDown (s.port s.own.owner)
  ((s.port s.own.owner).cmds.filter fun c => endsAtT0 c || (down && isWriteOp c.entry.op && !c.prot)).foldl (endAtT0 down) s

/-- Evaluate a Claim (R109). -/
def evalClaim (a : AdminId) (q : VendorReq) (force : Bool) (key : BitVec 256) (s : State) : State :=
  let win := fun (s : State) => vendorEnd s a q .success s.own.generation
  if isOwner s a.port then
    win (if s.own.phase = .released then s.onOwn fun o => { o with phase := .held } else s)
  else if s.own.phase = .handover then refuseClaim s a q
  else if force && forceLocked s a.port then refuseClaim s a q
  else if force && keyHashOk s key then startHandover (s.onPort a.port fun p => { p with forceFails := 0, forceLock := none }) a q
  else if force then refuseClaim (countForceFail s a.port) a q
  else if s.own.phase = .released ∨ s.own.phase = .lapsed then startHandover s a q
  else refuseClaim s a q

/-- The same Claim is still executing, so that this is a repeat (R127). -/
def claimRepeats (s : State) (p : PortId) (q : VendorReq) : Bool :=
  match s.own.claim with
  | some c => decide (c.port = p) && decide (c.token = q.token) && decide (q.token ≠ 0) && decide (c.print = q.print)
      && decide (s.own.phase = .handover)
  | none => false

/-- A command to OWN outside SAFE must carry PRPs (R72, R614). -/
def ownCmd (a : AdminId) (go : State → State) (s : State) : State := if s.fh.latch then go s else prpOnly s a go

/-- Ownership Claim (R109, R614). -/
def claim (a : AdminId) (token : Nat) (force : Bool) (key : BitVec 256) (bad : Bool) (s : State) : State :=
  let q := vendorReq token 0xC0 (b2n force) 0 bad (if force then leBytes 32 key.toNat else [])
  ownCmd a (fun s => vendorCmd s a token 0xC0 q.print bad false (claimRepeats s a.port q) (evalClaim a q force key)) s

/-- Ownership Release (R106, R115, R614, R616). In single x4 mode it changes nothing (R98). -/
def release (a : AdminId) (token : Nat) (bad : Bool) (s : State) : State :=
  let q := vendorReq token 0xC1 0 0 bad []
  ownCmd a (fun s => vendorCmd s a token 0xC1 q.print bad true false fun s =>
    let s := s.onOwn fun o => { o with phase := if o.phase = .held ∧ s.boot.strapPort then .released else o.phase }
    vendorEnd s a q .success s.own.generation) s

/-- The other port's command of a tie. -/
def tiedCmd (p : PortId) (c : OwnCmd) (s : State) : State :=
  match c with
  | .claim cid token force key bad => claim { port := p, cid := cid } token force key bad s
  | .release cid token bad => release { port := p, cid := cid } token bad s

/-- The other port's command of a tie, where that port's controller takes it. -/
def tiedIfLive (p : PortId) (c : OwnCmd) (s : State) : State := if adminLive s p then tiedCmd p c s else s

/-- Commands of both ports in one fabric cycle: the own_tie port's is taken first, the tie is counted and recorded (R116). In SAFE both
are refused before they reach OWN (R525). -/
def withTie (a : AdminId) (tie : Option OwnCmd) (me : State → State) (s : State) : State :=
  match tie with
  | none => me s
  | some c =>
    let other := a.port.other
    if !adminLive s other then me s
    else if s.fh.latch then tiedCmd other c (me s)
    else
      let first : PortId := if s.policy.ownTie = 1 then .B else .A
      let s := s.onOwn fun o => { o with tieCount := satAdd 65535 o.tieCount 1, lastWinner := first }
      let s := fire s (coreSource 20)
      if a.port = first then tiedCmd other c (me s) else me (tiedCmd other c s)

/-- OWNERSHIP_CLAIM (R109, R116). -/
def execOwnershipClaim (a : AdminId) (token : Nat) (force : Bool) (key : BitVec 256) (reservedBad : Bool) (tie : Option OwnCmd)
    (s : State) : Host.Outcome State Fault Refusal :=
  .next (if adminLive s a.port then withTie a tie (claim a token force key reservedBad) s
    else tie.elim s fun c => tiedIfLive a.port.other c s)

/-- OWNERSHIP_RELEASE (R106, R115, R116). -/
def execOwnershipRelease (a : AdminId) (token : Nat) (reservedBad : Bool) (tie : Option OwnCmd) (s : State) :
    Host.Outcome State Fault Refusal :=
  .next (if adminLive s a.port then withTie a tie (release a token reservedBad) s
    else tie.elim s fun c => tiedIfLive a.port.other c s)

/-- TAKEOVER_HOLD_EXPIRY (R106): the link-down timer reaches takeover_hold. -/
def holdExpires (s : State) : State :=
  match s.own.downSince with
  | some t => if s.own.phase = .linkDown ∧ elapsed s t (s.policy.takeoverHold * 1000) then s.onOwn fun o => { o with phase := .lapsed } else s
  | none => s

def execTakeoverHoldExpiry (s : State) : Host.Outcome State Fault Refusal := .next (holdExpires s)

/-- FORCE_LOCK_EXPIRY (R111). -/
def forceLockEnds (s : State) (p : PortId) : State :=
  s.onPort p fun pt => { pt with forceLock := pt.forceLock.filter fun t => decide (s.now < t) }

def execForceLockExpiry (p : PortId) (s : State) : Host.Outcome State Fault Refusal := .next (forceLockEnds s p)

/-! ### Drydown Control -/

/-- Drydown Control Start (R363, R364). Its DW0 is the generation that the cursor carries once it is ready (R615). -/
def startDrydown (a : AdminId) (q : VendorReq) (s : State) : State :=
  let gen := if s.mediaMode = 2 ∧ (s.upkeep.cursorState = 2 ∨ s.upkeep.cursorRepeat) then s.upkeep.cursorGen else s.upkeep.cursorGen + 1
  if sanitizing s then vendorEnd s a q .drydownNotPermitted
  else if s.mediaMode = 2 then vendorEnd s a q .success (BitVec.ofNat 32 gen)
  else
    let t := refuseWaitingWrites (enterDrydown (s.onUpkeep fun u => { u with cursorRepeat := false }))
    vendorEnd t a q .success (BitVec.ofNat 32 gen)

/-- Drydown Control Stop (R369, R370). -/
def stopDrydown (a : AdminId) (q : VendorReq) (s : State) : State :=
  let worn := preserveCond s
  if s.mediaMode = 2 then
    if worn ∧ s.policy.drydownAuto = 1 then vendorEnd s a q .drydownNotPermitted else vendorEnd (endDrydown s) a q .success
  else if s.mediaMode = 1 then
    if worn then vendorEnd s a q .drydownNotPermitted
    else vendorEnd (putAnchor { s with mediaMode := 0 } fun x => { x with mediaMode := 0 }) a q .success
  else vendorEnd s a q .success

/-- SAFE and recovery refuse a Drydown Control and a Diagnostic Unlock; the token is stored with the status (R127, R525, R566). -/
def noteIfRefused (s : State) (a : AdminId) (q : VendorReq) : State :=
  if adminLive s a.port && (s.fh.latch || decide (s.run = .recovery)) then noteRefused s a q.token q.opcode q.print else s

/-- Admit a Drydown Control: SAFE, recovery, and a handover, which holds it (R117, R525, R566), then R614. -/
def drydownCmd (a : AdminId) (token action : Nat) (bad : Bool) (i : Instr) (go : VendorReq → State → State) (s : State) : State :=
  let q := vendorReq token 0xC2 action 0 bad []
  adminCmd (noteIfRefused s a q) a .other i fun s =>
    if s.own.phase = .handover then holdAdmin s a.port i
    else vendorCmd s a token 0xC2 q.print bad true false (go q)

/-- DRYDOWN_CONTROL_START (R363). -/
def execDrydownControlStart (a : AdminId) (token : Nat) (reservedBad : Bool) (s : State) : Host.Outcome State Fault Refusal :=
  .next (drydownCmd a token 1 reservedBad (.drydownControlStart a token reservedBad) (startDrydown a) s)

/-- DRYDOWN_CONTROL_STOP (R369, R370). -/
def execDrydownControlStop (a : AdminId) (token : Nat) (reservedBad : Bool) (s : State) : Host.Outcome State Fault Refusal :=
  .next (drydownCmd a token 2 reservedBad (.drydownControlStop a token reservedBad) (stopDrydown a) s)

/-! ### The end of a handover -/

/-- A write of the old owner at the end of the drain: posted as Protected where its data is wholly in flacons, else ended (R117 step 5;
no completion is posted where the link is down, R119). -/
def settleWrite (s : State) (c : OutCmd) : State :=
  if !underWay c then s
  else if linkIsDown (s.port c.port) then endSilently s c
  else if whollyIn s c then
    let w := (c.port, c.sq, c.entry.cid)
    let s := modSubs s w fun x => { x with comm := true }
    let s := (s.path.trims.filter fun t => decide (some t.seq = c.seq)).foldl trimNow s
    protectWrite s c
  else failWrite s c .asymmetricAccessTransition

/-- Writes that the handover held: the new owner's go on, the new observer's complete under R99 (R117 step 8). -/
def releaseHeld (s : State) (p : PortId) : State :=
  ((s.port p).cmds.filter fun c => decide (c.stage = .held)).foldl (fun s c =>
    if isOwner s p then modCmd s p c.sq c.entry.cid fun x => { x with stage := .fetched }
    else ioDone s p c.sq c.entry.cid .nsWriteProtected) s

/-- The state a step leaves, or the one before it. -/
def settled (s : State) (o : Host.Outcome State Fault Refusal) : State :=
  match o with
  | .next t => t
  | _ => s

/-- Execute an admin command that the handover held (R117 step 8). -/
def runHeld (s : State) (i : Instr) : State :=
  match i with
  | .setFeatures a f v => settled s (execSetFeatures a f v s)
  | .setFeaturesFdp a on => settled s (execSetFeaturesFdp a on s)
  | .setFeaturesVwc a on => settled s (execSetFeaturesVwc a on s)
  | .setFeaturesHctm a x y => settled s (execSetFeaturesHctm a x y s)
  | .setFeaturesTimestamp a ms => settled s (execSetFeaturesTimestamp a ms s)
  | .firmwareImageDownload a o d => settled s (execFirmwareImageDownload a o d s)
  | .firmwareCommit0 a f => settled s (execFirmwareCommit0 a f s)
  | .firmwareCommit1 a f => settled s (execFirmwareCommit1 a f s)
  | .firmwareCommit2 a f => settled s (execFirmwareCommit2 a f s)
  | .firmwareCommit3 a f => settled s (execFirmwareCommit3 a f s)
  | .namespaceCreate a n f h => settled s (execNamespaceCreate a n f h s)
  | .namespaceDelete a n => settled s (execNamespaceDelete a n s)
  | .namespaceAttach a n l => settled s (execNamespaceAttach a n l s)
  | .namespaceDetach a n l => settled s (execNamespaceDetach a n l s)
  | .formatNvm a n x l => settled s (execFormatNvm a n x l s)
  | .sanitizeCryptoErase a => settled s (execSanitizeCryptoErase a s)
  | .sanitizeBlockErase a => settled s (execSanitizeBlockErase a s)
  | .deviceSelfTest a c => settled s (execDeviceSelfTest a c s)
  | .drydownControlStart a t b => settled s (execDrydownControlStart a t b s)
  | .drydownControlStop a t b => settled s (execDrydownControlStop a t b s)
  | _ => s

/-- Execute what the handover held of a port, in fetch order. -/
def runHeldOf (s : State) (p : PortId) : State :=
  let l := (s.port p).heldAdmin
  l.foldl runHeld (s.onPort p fun pt => { pt with heldAdmin := [] })

/-- Steps 6 and 7 (R14, R114, R117): the old owner's unlock ends, and the new owner and generation are journalled and take
effect. -/
def switchOwner (s : State) (c : ClaimRec) : State :=
  let old := s.own.owner
  let gen := s.own.generation + 1
  let s := putAnchor (endUnlockOf s old) fun a => { a with owner := c.port, generation := gen.toNat }
  let down := linkIsDown (s.port c.port)
  let s := s.onOwn fun o => { o with
    owner := c.port, generation := gen, phase := if down then .linkDown else .held, downSince := if down then some s.now else none
    claim := none, lastHandoverUs := s.now - c.t0 }
  let s := dropBuffer s
  notice (s.onBoth fun p => { p with anaCount := p.anaCount + 1 }) 0x0C

/-- The highest number of the writes that step 5 posts as Protected. -/
def step5Top (s : State) (p : PortId) : Nat :=
  maxOf (((s.port p).cmds.filter fun c => underWay c && whollyIn s c).filterMap (·.seq))

/-- Writes completed in step 5 count as fetched before a Flush of the old owner that is outstanding (R120). -/
def raiseFlushes (s : State) (p : PortId) : State :=
  let top := step5Top s p
  s.onPort p fun pt => { pt with cmds := pt.cmds.map fun c => match c.entry.op with
    | .flush => { c with snapshot := c.snapshot.map (max top) }
    | _ => c }

/-- The command that the Claim's completion answers: the Claim itself, or, where a reset took that away, the first repeat held since
(R127, R160). -/
def claimAnswer (s : State) (c : ClaimRec) : Option Nat :=
  match c.cid with
  | some n => some n
  | none => ((s.port c.port).heldRepeats.find? fun h => decide (h.1 = c.token) && decide (c.token ≠ 0)).map (·.2)

/-- Complete the Claim of a handover, and the repeats held meanwhile with it (R117 step 7, R127). -/
def answerClaim (s : State) (c : ClaimRec) : State :=
  match claimAnswer s c with
  | none => s
  | some cid =>
    let s := s.onPort c.port fun p => { p with heldRepeats := p.heldRepeats.filter fun h => decide (h.2 ≠ cid) }
    vendorEnd s { port := c.port, cid := cid } { token := c.token, opcode := 0xC0, print := c.print } .success s.own.generation

/-- Steps 5 to 8 of a handover (R117, R120). -/
def finishHandover (s : State) (c : ClaimRec) : State :=
  let s := raiseFlushes s s.own.owner
  let s := answerClaim (switchOwner ((s.port s.own.owner).cmds.foldl settleWrite s) c) c
  let s := releaseHeld (releaseHeld s c.port) c.port.other
  runHeldOf (runHeldOf s c.port) c.port.other

/-- Data transfers of the old owner are still under way (R117 step 4). -/
def stillTransfers (s : State) : Bool :=
  !linkIsDown (s.port s.own.owner) && (s.port s.own.owner).cmds.any fun c =>
    underWay c && !whollyIn s c

/-- HANDOVER_DRAIN_END (R117 step 5): handover_drain has passed, or no transfer is left. -/
def drainedHandover (s : State) : State :=
  match s.own.claim with
  | none => s
  | some c =>
    if s.own.phase = .handover ∧ !s.fh.latch ∧ (elapsed s c.t0 (s.policy.handoverDrain * 1000) ∨ !stillTransfers s) then finishHandover s c
    else s

def execHandoverDrainEnd (s : State) : Host.Outcome State Fault Refusal := .next (drainedHandover s)

/-! ### Diagnostic Unlock -/

/-- Any C3h from a port ends its outstanding challenge, but for a repeat that the token store answers (R616, R641). -/
def dropChallenge (s : State) (p : PortId) (q : VendorReq) : State :=
  match tokenLook (s.port p) q.token q.opcode q.print with
  | .stored _ => s
  | _ => s.onPort p fun pt => { pt with challenge := none }

/-- Challenges from the port are refused now (R639). -/
def challengeLocked (s : State) (p : PortId) : Bool :=
  match (s.port p).chLock with
  | some t => decide (s.now < t)
  | none => false

/-- Run one action of Diagnostic Unlock in the order of R614. -/
def unlockCmd (a : AdminId) (q : VendorReq) (i : Instr) (bad : Bool) (go : State → State) (s : State) : State :=
  adminCmd (noteIfRefused s a q) a .other i fun s => vendorCmd (dropChallenge s a.port q) a q.token 0xC3 q.print bad true false go

/-- Action 0x0: end the unlock of this port (R615, R640). -/
def endOwnUnlock (a : AdminId) (q : VendorReq) (s : State) : State := vendorEnd (endUnlockOf s a.port) a q .success

/-- DIAGNOSTIC_UNLOCK_END (R640). -/
def execDiagnosticUnlockEnd (a : AdminId) (token : Nat) (reservedBad : Bool) (s : State) : Host.Outcome State Fault Refusal :=
  let q := vendorReq token 0xC3 0 0 reservedBad []
  .next (unlockCmd a q (.diagnosticUnlockEnd a token reservedBad) reservedBad (endOwnUnlock a q) s)

/-- The 64 bytes of a challenge (R637). -/
def challengeBytes (s : State) (p : PortId) (scope : Nat) (nonce : BitVec 256) : List Byte :=
  otpBytes s 4 16 ++ leBytes 32 nonce.toNat ++ leBytes 1 scope ++ leBytes 1 p.toNat ++ leBytes 2 0 ++ leBytes 4 s.own.generation.toNat
    ++ [s.sec.lifecycle] ++ leBytes 7 0

/-- Action 0x1: a challenge with a new nonce, unless challenges from the port are refused (R637, R639). -/
def newChallenge (a : AdminId) (q : VendorReq) (scope : Nat) (s : State) : State :=
  if challengeLocked s a.port then vendorEnd s a q .accessDenied
  else
    let ch := challengeBytes s a.port scope (Config.freeNonce s.freeCtr)
    let s := { s with freeCtr := s.freeCtr + 1 }
    vendorEnd (answerData (s.onPort a.port fun p => { p with challenge := some ch }) a.port ch) a q .success

/-- A repeat of action 0x1 that the token store answers returns the outstanding challenge, or zeros (R641). -/
def repeatChallenge (a : AdminId) (q : VendorReq) (s : State) : State :=
  match tokenLook (s.port a.port) q.token q.opcode q.print with
  | .stored t => if t.status = .success then answerData s a.port ((s.port a.port).challenge.getD (List.replicate 64 0)) else s
  | _ => s

/-- DIAGNOSTIC_UNLOCK_CHALLENGE (R637, R641). -/
def execDiagnosticUnlockChallenge (a : AdminId) (token scope : Nat) (reservedBad : Bool) (s : State) : Host.Outcome State Fault Refusal :=
  let q := vendorReq token 0xC3 1 scope reservedBad []
  let bad := reservedBad || decide (8 ≤ scope)
  let s := if adminLive s a.port && !s.fh.latch && isOwner s a.port then repeatChallenge a q s else s
  .next (unlockCmd a q (.diagnosticUnlockChallenge a token scope reservedBad) bad (newChallenge a q scope) s)

/-- The signature of a response holds under the integrator key of the copy in use (R638). -/
def responseSigned (s : State) (r : List Byte) : Bool := ecdsaOk s.image.integratorKey (r.take 64) ((r.drop 64).take 96)

/-- An unlock takes effect for a port; opening JTAG or UART fires DEBUG_PORT (R554, R638). Where one is in effect already, the spec does not
say whether that one ends first: the new one replaces its scope and starts its time anew, and what the port has written of RWU fields,
an armed injection and the arm word among them, stays (DESIGN CHOICE, log entry 71). -/
def openUnlock (s : State) (p : PortId) (scope : Nat) : State :=
  let old := s
  let s := s.onSec fun x => { x with
    unlock := some { port := p, scope := BitVec.ofNat 3 scope, since := s.now }, unlocks := satAdd 65535 x.unlocks 1 }
  let jtag := debugPortOpen s 1
  let uart := debugPortOpen s 2
  let s := s.onSec fun x => { x with debugOpen := jtag || uart }
  if (jtag && !debugPortOpen old 1) || (uart && !debugPortOpen old 2) then fire s (coreSource 21) else s

/-- Count a failed response; the fourth in a row refuses challenges for 60 s (R639). -/
def countResponseFail (s : State) (p : PortId) : State :=
  s.onPort p fun pt =>
    if 4 ≤ pt.chFails + 1 then { pt with chFails := 0, chLock := some (s.now + 60000000) } else { pt with chFails := pt.chFails + 1 }

/-- Action 0x2: the response is checked against the challenge that was outstanding (R638, R639). -/
def judgeResponse (a : AdminId) (q : VendorReq) (r : List Byte) (ch : Option (List Byte)) (s : State) : State :=
  match ch with
  | none => vendorEnd s a q .commandSequenceError
  | some c =>
    if r.take 64 = c ∧ responseSigned s r then
      vendorEnd (openUnlock (s.onPort a.port fun p => { p with chFails := 0 }) a.port (nth 0 c 48).toNat) a q .success
    else vendorEnd (countResponseFail s a.port) a q .accessDenied

/-- DIAGNOSTIC_UNLOCK_RESPONSE (R638). -/
def execDiagnosticUnlockResponse (a : AdminId) (token : Nat) (response : List (BitVec 8)) (reservedBad : Bool) (s : State) :
    Host.Outcome State Fault Refusal :=
  let q := vendorReq token 0xC3 2 0 reservedBad response
  let ch := (s.port a.port).challenge
  .next (unlockCmd a q (.diagnosticUnlockResponse a token response reservedBad) reservedBad (judgeResponse a q response ch) s)

/-- UNLOCK_REFUSAL_EXPIRY (R639). -/
def refusalEnds (s : State) (p : PortId) : State :=
  s.onPort p fun pt => { pt with chLock := pt.chLock.filter fun t => decide (s.now < t) }

def execUnlockRefusalExpiry (p : PortId) (s : State) : Host.Outcome State Fault Refusal := .next (refusalEnds s p)

/-- UNLOCK_EXPIRY (R640): 3,600 s after it took effect. -/
def unlockTooOld (s : State) : State :=
  match s.sec.unlock with
  | some u => if elapsed s u.since 3600000000 then endUnlock s else s
  | none => s

def execUnlockExpiry (s : State) : Host.Outcome State Fault Refusal := .next (unlockTooOld s)

end Sys2Proof.Machine
end

