-- ==== Sys2Proof/Machine/Power.lean ====
section
/-! DEFINITION. Supplies, POR_N and PWR_FAIL_N (R371, R376, R384, R478, R543 to R549), shutdown (R414, R567), NVM subsystem reset
(R568), and power states (R92 to R95, R159). -/
namespace Sys2Proof.Machine

/-! ### Supplies -/

/-- The board writes the SPI NOR while the controller does not drive it (R574); addresses beyond 16 MiB do not exist. -/
def boardWrites (s : State) (l : List (Nat × BitVec 8)) : State :=
  { s with spi := (l.filter fun x => decide (x.1 < 16777216)).foldl (fun m x => memPut 0xFF m x.1 x.2) s.spi }

/-- Sample the straps, once in a power cycle (R550). -/
def sampleStraps (s : State) (env : StartEnv) : State :=
  s.onBoot fun b => if b.strapsSampled then b else
    { b with strapPort := env.strapPort, strapSb := env.strapSb, strapSpi := env.strapSpi, strapTest := env.strapTest, strapsSampled := true }

/-- SUPPLIES_VALID (R543, R546, R547): internal reset is released. Start-up begins, or POR_N holds the controller. -/
def suppliesRise (s : State) (env : StartEnv) (board : List (Nat × BitVec 8)) : State :=
  if s.run ≠ .inReset then s
  else
    let s := sampleStraps (boardWrites s board) env
    if s.boot.porLow then { s with run := .porHeld } else startUp s env 0

def execSuppliesValid (env : StartEnv) (board : List (Nat × BitVec 8)) (s : State) : Host.Outcome State Fault Refusal :=
  .next (suppliesRise s env board)

/-- SUPPLY_FALL (R545): internal reset, and nothing is flushed. The straps are sampled anew at the next power-on. -/
def supplyFalls (s : State) : State := (enterReset s false 0).onBoot fun b => { b with strapsSampled := false }

def execSupplyFall (s : State) : Host.Outcome State Fault Refusal := .next (supplyFalls s)

/-- VAUX or VIO leaves its window on a side: the source fires once for each exit, and for a change of side (R478). -/
def leavesWindow (s : State) (vio above : Bool) : State :=
  let side := if above then 2 else 1
  let cur := if vio then s.hk.vioOut else s.hk.vauxOut
  if cur = side then s
  else fire (s.onHk fun h => if vio then { h with vioOut := side } else { h with vauxOut := side }) (hkSource 17)

/-- VAUX_VIO (R478). -/
def execVauxVio (vio above : Bool) (s : State) : Host.Outcome State Fault Refusal := .next (leavesWindow s vio above)

/-- VAUX_VIO_WINDOW_RETURN (R478). -/
def returnsToWindow (s : State) (vio : Bool) : State := s.onHk fun h => if vio then { h with vioOut := 0 } else { h with vauxOut := 0 }

def execVauxVioWindowReturn (vio : Bool) (s : State) : Host.Outcome State Fault Refusal := .next (returnsToWindow s vio)

/-! ### PWR_FAIL_N and POR_N -/

/-- The controller answers a power failure: the flush, or Reset to the busy dies and nothing else (R371, R384). -/
def powerFails (s : State) : State :=
  if flushNeeded s then { beginFlush s 1 with run := .flushing } else { noFlush s with run := .idle }

/-- PWR_FAIL_N_ASSERT (R371, R382, R384, R525, R568): without effect in SAFE, in a flush and in reset. -/
def pwrFailLow (s : State) : State :=
  let s := s.onJournal fun j => { j with pwrFail := true }
  match s.run with
  | .running | .recovery | .subsystemReset => if s.fh.latch then s else powerFails s
  | _ => s

def execPwrFailNAssert (s : State) : Host.Outcome State Fault Refusal := .next (pwrFailLow s)

/-- PWR_FAIL_N_RELEASE (R376): the pin has been high for 10 ms with the supplies valid; after a flush the controller restarts as after a
power loss, with the straps kept (DEDUCED, log entry 19). -/
def pwrFailHigh (s : State) (env : StartEnv) : State :=
  let s := s.onJournal fun j => { j with pwrFail := false }
  if s.run = .idle then startUp (enterReset s false s.now) env 0 else s

def execPwrFailNRelease (env : StartEnv) (s : State) : Host.Outcome State Fault Refusal := .next (pwrFailHigh s env)

/-- PF_WAIT_END (R549): start-up goes on with NAND discovery. -/
def pfWaitEnds (s : State) (env : StartEnv) : State :=
  if s.run = .pfWait then discover env { s.onJournal (fun j => { j with pwrFail := false }) with run := .recovery } else s

def execPfWaitEnd (env : StartEnv) (s : State) : Host.Outcome State Fault Refusal := .next (pfWaitEnds s env)

/-- POR_N_ASSERT (R546, R549): as PWR_FAIL_N, and reset follows; in SAFE nothing is written; a flush under way goes on, and reset
follows its end. -/
def porFalls (s : State) : State :=
  if s.boot.porLow then s
  else
    let s := s.onBoot fun b => { b with porLow := true }
    match s.run with
    | .inReset | .porHeld => s
    | .flushing => s.onJournal fun j => { j with porAfter := true }
    | _ =>
      if s.journal.pls = 2 then s.onJournal fun j => { j with porAfter := true }
      else if s.fh.latch ∨ !flushNeeded s then holdInReset s
      else ({ beginFlush s 1 with run := .flushing }).onJournal fun j => { j with porAfter := true }

def execPorNAssert (s : State) : Host.Outcome State Fault Refusal := .next (porFalls s)

/-- POR_N_RELEASE (R546, R558): the pin has been high for 1 ms, and start-up begins. -/
def porRises (s : State) (env : StartEnv) (board : List (Nat × BitVec 8)) : State :=
  match s.run with
  | .porHeld =>
    let s := (boardWrites s board).onBoot fun b => { b with porLow := false }
    startUp s env s.boot.nextCause
  | .inReset => (boardWrites s board).onBoot fun b => { b with porLow := false }
  | _ => s

def execPorNRelease (env : StartEnv) (board : List (Nat × BitVec 8)) (s : State) : Host.Outcome State Fault Refusal :=
  .next (porRises s env board)

/-! ### Shutdown -/

/-- SHUTDOWN_NOTIFICATION (R414, R567): from the owner it starts the clean shutdown, from the observer only CSTS.SHST follows. In SAFE
there is nothing to write. -/
def notifyShutdown (s : State) (p : PortId) : State :=
  if !hfeRuns s p || !(s.port p).ccEn then s
  else if s.fh.latch || !isOwner s p then s.onPort p fun pt => { pt with ccShn := 1, shst := 2 }
  else closeUpTo (s.onPort p fun pt => { pt with ccShn := 1, shst := 1 }) (s.path.nextSeq - 1)

def execShutdownNotification (p : PortId) (s : State) : Host.Outcome State Fault Refusal := .next (notifyShutdown s p)

/-- Every number assigned is Sealed: staging has been written to media (R148, R414). -/
def allSealed (s : State) : Bool := (dropSealed s s.path.unsealed).isEmpty

/-- Close the chunk being filled and set the clean flag (R414, R568). -/
def markClean (s : State) : State := putAnchor (closeChunk s) fun a => { a with clean := true }

/-- SHUTDOWN_COMPLETE (R414, R567). -/
def shutdownEnds (s : State) : State :=
  if s.run ≠ .running ∨ s.fh.latch ∨ (s.port s.own.owner).shst ≠ 1 ∨ !allSealed s then s
  else markClean ((advanceHorizon s).onPort s.own.owner fun pt => { pt with shst := 2 })

def execShutdownComplete (s : State) : Host.Outcome State Fault Refusal := .next (shutdownEnds s)

/-! ### NVM subsystem reset -/

/-- Steps 1 and 2 of an NVM subsystem reset (R568): fetching stops, commands end, and outside SAFE open stripes are closed. Before
recovery has ended there is nothing to write. -/
def subsystemResetFrom (s : State) (cause : Nat) : State :=
  match s.run with
  | .running | .recovery | .safe | .pfWait =>
    let busy := decide (s.journal.pls = 2)
    if busy then s
    else
      let quiet := s.fh.latch || decide (s.boot.stage ≠ 8)
      let s := (stopPorts s).onBoot fun b => { b with nextCause := cause }
      { (if quiet then s else closeUpTo s (s.path.nextSeq - 1)) with run := .subsystemReset }
  | _ => s

/-- NVM_SUBSYSTEM_RESET (R73, R568): the owner's port, or either port in SAFE. -/
def writeNssr (s : State) (p : PortId) : State :=
  if hfeRuns s p && (isOwner s p || s.fh.latch) then subsystemResetFrom s 2 else s

def execNvmSubsystemReset (p : PortId) (s : State) : Host.Outcome State Fault Refusal := .next (writeNssr s p)

/-- NSSR_STAGING_WRITTEN (R568 steps 2 to 4): outside SAFE the clean flag is set once staging is on the media; internal reset, start-up,
and CSTS.NSSRO on both controllers. -/
def stagingWritten (s : State) (env : StartEnv) : State :=
  let writes := !s.fh.latch && decide (s.boot.stage = 8)
  if s.run ≠ .subsystemReset ∨ (writes ∧ !allSealed s) then s
  else
    let u := if writes then markClean (advanceHorizon s) else s
    (startUp (enterReset u true s.now) env s.boot.nextCause).onBoth fun p => { p with nssro := true }

def execNssrStagingWritten (env : StartEnv) (s : State) : Host.Outcome State Fault Refusal := .next (stagingWritten s env)

/-- CSTS_NSSRO_CLEAR (R568). -/
def execCstsNssroClear (p : PortId) (s : State) : Host.Outcome State Fault Refusal := .next (s.onPort p fun pt => { pt with nssro := false })

/-! ### Power states -/

/-- AUTONOMOUS_POWER_STATE_TRANSITION (R94): the port's idle time is over, and its selection becomes non-operational, where its host has
enabled the feature and it has no command outstanding. -/
def idleSelects (s : State) (p : PortId) (ps : Nat) : State :=
  let pt := s.port p
  if (ps ≠ 3 ∧ ps ≠ 4) ∨ tget 0 pt.features 0x0C % 2 = 0 ∨ !pt.cmds.isEmpty ∨ !adminLive s p ∨ s.fh.latch then s
  else takePs (s.onPort p fun pt => { pt with selPs := ps })

def execApst (p : PortId) (ps : Nat) (s : State) : Host.Outcome State Fault Refusal := .next (idleSelects s p ps)

/-- POWER_STATE_ENTRY_END (R92, R94, R159, R251): for PS3 and PS4 die operations have finished, a suspended erase with them, and for
PS4 staging is on the media; DRAM then enters self-refresh. An exit follows where the selections ask for another state by now. -/
def entryEnds (s : State) : State :=
  match s.misc.psEntering with
  | none => s
  | some t =>
    if (3 ≤ t ∧ s.media.dies.any fun e => e.2.busy.isSome || e.2.susp.isSome) ∨ (t = 4 ∧ !allSealed s) then s
    else
      let s := s.onMisc fun m => { m with psEntering := none }
      takePs (if t = 4 then selfRefreshAll (advanceHorizon s) else s)

def execPowerStateEntryEnd (s : State) : Host.Outcome State Fault Refusal := .next (entryEnds s)

/-- POWER_STATE_EXIT_END (R92, R94): DRAM leaves self-refresh with the stored training, and the drive is in its state. -/
def exitEnds (s : State) : State :=
  match s.misc.psExiting with
  | none => s
  | some t =>
    let s := { s with dcs := tvals {} s.dcs fun (d : Dc) => if d.st = DcState.selfRefresh then { d with st := .active } else d }
    takePs (s.onMisc fun m => { m with drivePs := t, psExiting := none })

def execPowerStateExitEnd (s : State) : Host.Outcome State Fault Refusal := .next (exitEnds s)

end Sys2Proof.Machine
end

