-- ==== Sys2Proof/Machine/Queues.lean ====
section
/-! DEFINITION. Queues and the commands about commands: doorbells (R59, R71, R503), creating and deleting I/O queues (R67, R78,
R161), Abort (R155 to R158), Asynchronous Event Request (R355, R619, R645) and Keep Alive (R78). -/
namespace Sys2Proof.Machine

/-! ### Doorbells -/

/-- An invalid doorbell write fires QUEUE_ERR of the port's front end (R503). -/
def badDoorbell (s : State) (p : PortId) : State := fire s (hfeSource p 4)

/-- SUBMISSION_DOORBELL (R71): the entries between the old and the new tail become available. The new tail must name a place of
an existing queue and may not pass the entries that wait. Without its REFCLK the port's link carries no doorbell (R30). -/
def ringTail (s : State) (p : PortId) (qid tail : Nat) (entries : List IoEntry) : State :=
  if qid = 0 ∨ !(s.port p).refclk then s
  else match (s.port p).sqs.find? fun q => q.id = qid with
    | none => badDoorbell s p
    | some q =>
      let n := (tail + q.size - q.tail) % q.size
      if q.size ≤ tail ∨ q.size ≤ q.entries.length + n ∨ entries.length ≠ n then badDoorbell s p
      else s.onPort p fun pt => { pt with
        sqs := pt.sqs.map fun x => if x.id = qid then { x with tail := tail, entries := x.entries ++ entries } else x }

def execSubmissionDoorbell (p : PortId) (qid tail : Nat) (entries : List IoEntry) (s : State) : Host.Outcome State Fault Refusal :=
  .next (ringTail s p qid tail entries)

/-- Post the completions that waited for room, as far as there is room now. -/
def postWaiting (p : Port) : Port := p.waitingCqes.foldl pushCqe { p with waitingCqes := [] }

/-- COMPLETION_DOORBELL (R59): entries up to the new head are free. The new head may not pass the entries posted. -/
def ringHead (s : State) (p : PortId) (qid head : Nat) : State :=
  if qid = 0 ∨ !(s.port p).refclk then s
  else match (s.port p).cqs.find? fun q => q.id = qid with
    | none => badDoorbell s p
    | some q =>
      let freed := (head + q.size - q.head) % q.size
      let posted := (q.tail + q.size - q.head) % q.size
      if q.size ≤ head ∨ posted < freed then badDoorbell s p
      else s.onPort p fun pt => postWaiting { pt with
        cqs := pt.cqs.map fun x => if x.id = qid then { x with head := head } else x }

def execCompletionDoorbell (p : PortId) (qid head : Nat) (s : State) : Host.Outcome State Fault Refusal :=
  .next (ringHead s p qid head)

/-! ### Creating and deleting queues -/

/-- CREATE_IO_CQ (R67, R78); the statuses of wrong operands are the base specification's (log entry 3). -/
def makeCq (a : AdminId) (qid size vector : Nat) (s : State) : State :=
  let pt := s.port a.port
  if qid = 0 ∨ 128 < qid ∨ (pt.cqs.any fun q => decide (q.id = qid)) then adminDone s a .invalidQueueId
  else if size < 2 ∨ 4096 < size then adminDone s a .invalidQueueSize
  else if 130 ≤ vector then adminDone s a .invalidVector
  else adminDone (s.onPort a.port fun x => { x with cqs := x.cqs ++ [{ id := qid, size := size, vector := vector }] }) a .success

def execCreateIoCq (a : AdminId) (qid size vector : Nat) (s : State) : Host.Outcome State Fault Refusal :=
  .next (adminCmd s a .free (.createIoCq a qid size vector) (makeCq a qid size vector))

/-- CREATE_IO_SQ (R67, R78). -/
def makeSq (a : AdminId) (qid size cqid prio : Nat) (s : State) : State :=
  let pt := s.port a.port
  if qid = 0 ∨ 128 < qid ∨ (pt.sqs.any fun q => decide (q.id = qid)) then adminDone s a .invalidQueueId
  else if size < 2 ∨ 4096 < size then adminDone s a .invalidQueueSize
  else if !(pt.cqs.any fun q => decide (q.id = cqid)) then adminDone s a .cqInvalid
  else adminDone (s.onPort a.port fun x => { x with sqs := x.sqs ++ [{ id := qid, size := size, cqid := cqid, prio := prio }] }) a .success

def execCreateIoSq (a : AdminId) (qid size cqid prio : Nat) (s : State) : Host.Outcome State Fault Refusal :=
  .next (adminCmd s a .free (.createIoSq a qid size cqid prio) (makeSq a qid size cqid prio))

/-- End one outstanding command of a queue that is deleted (R161). -/
def endOfDeleted (s : State) (c : OutCmd) : State :=
  if !isWriteOp c.entry.op then ioEnd (abandonRead s c) c .abortedSqDeletion
  else if c.prot || whollyIn s c then
    advanceHorizon (ioDone (holdData s c) c.port c.sq c.entry.cid .success (BitVec.ofNat 32 (c.seq.getD 0)))
  else failWrite s c .abortedSqDeletion

/-- DELETE_IO_SQ (R161). -/
def dropSq (a : AdminId) (qid : Nat) (s : State) : State :=
  let pt := s.port a.port
  if !(pt.sqs.any fun q => decide (q.id = qid)) then adminDone s a .invalidQueueId
  else
    let mine := pt.cmds.filter fun c => decide (c.sq = qid)
    let s := mine.foldl endOfDeleted (s.onPort a.port fun x => { x with cmds := x.cmds.filter fun c => !decide (c.sq = qid) })
    adminDone (s.onPort a.port fun x => { x with sqs := x.sqs.filter fun q => q.id ≠ qid }) a .success

def execDeleteIoSq (a : AdminId) (qid : Nat) (s : State) : Host.Outcome State Fault Refusal :=
  .next (adminCmd s a .free (.deleteIoSq a qid) (dropSq a qid))

/-- DELETE_IO_CQ (R78): not while a submission queue uses it. -/
def dropCq (a : AdminId) (qid : Nat) (s : State) : State :=
  let pt := s.port a.port
  if !(pt.cqs.any fun q => decide (q.id = qid)) then adminDone s a .invalidQueueId
  else if pt.sqs.any fun q => decide (q.cqid = qid) then adminDone s a .invalidQueueDeletion
  else adminDone (s.onPort a.port fun x => { x with cqs := x.cqs.filter fun q => q.id ≠ qid }) a .success

def execDeleteIoCq (a : AdminId) (qid : Nat) (s : State) : Host.Outcome State Fault Refusal :=
  .next (adminCmd s a .free (.deleteIoCq a qid) (dropCq a qid))

/-! ### Abort -/

/-- A byte of the read's data has begun transferring to the host. Once some of it is at hand, when its transfer begins is for the
controller to say: a free value (R157; log entry 75). -/
def transferBegun (s : State) (c : OutCmd) : Bool :=
  decide (c.stage = .running) && Config.freePulse s.freeCtr && c.subs.any fun x => match x.st with
    | .done _ | .staged .. => true
    | _ => false

/-- The command named can still be caught (R156, R157). -/
def catchable (s : State) (c : OutCmd) : Bool :=
  match c.entry.op with
  | .write .. => !c.prot && s.path.flacons.all fun e => e.2.subs.all fun x =>
      !(decide (x.writer = some (c.port, c.sq, c.entry.cid)) && x.comm)
  | .read .. => !transferBegun s c
  | .verify .. => true
  | _ => false

/-- Complete a caught command with Command Abort Requested (R156, R157). -/
def catchCmd (s : State) (c : OutCmd) : State :=
  if isWriteOp c.entry.op then failWrite s c .abortRequested
  else ioDone (abandonRead s c) c.port c.sq c.entry.cid .abortRequested

/-- ABORT (R155 to R158): DW0 bit 0 says that the command was not caught (R74). -/
def abortCmd (a : AdminId) (sqid tcid : Nat) (s : State) : State :=
  match findCmd s a.port sqid tcid with
  | none => adminDone s a .success 1
  | some c =>
    let t := { s with freeCtr := s.freeCtr + 1 }
    if catchable s c then adminDone (catchCmd t c) a .success 0 else adminDone t a .success 1

def execAbort (a : AdminId) (sqid tcid : Nat) (s : State) : Host.Outcome State Fault Refusal :=
  .next (adminCmd s a .free (.abort a sqid tcid) (abortCmd a sqid tcid))

/-! ### Asynchronous Event Request and Keep Alive -/

/-- A request is held, answered at once with the kept notice of the lowest page, or refused beyond eight (R355, R619, R645). -/
def takeAer (pt : Port) (cid : Nat) : Port :=
  match pt.kept with
  | page :: r => answerAer { pt with kept := r } page cid
  | [] => { pt with aers := pt.aers ++ [cid] }

/-- ASYNCHRONOUS_EVENT_REQUEST (R355). -/
def awaitEvent (a : AdminId) (s : State) : State :=
  if 8 ≤ (s.port a.port).aers.length then adminDone s a .aerLimitExceeded
  else s.onPort a.port fun pt => takeAer pt a.cid

def execAsynchronousEventRequest (a : AdminId) (s : State) : Host.Outcome State Fault Refusal :=
  .next (adminCmd s a .free (.asynchronousEventRequest a) (awaitEvent a))

/-- KEEP_ALIVE (R78): it completes; nothing requires it. -/
def keepAliveDone (a : AdminId) (s : State) : State := adminDone s a .success

def execKeepAlive (a : AdminId) (s : State) : Host.Outcome State Fault Refusal :=
  .next (adminCmd s a .free (.keepAlive a) (keepAliveDone a))

end Sys2Proof.Machine
end

