-- ==== Sys2Proof/Machine/Sideband.lean ====
section
/-! DEFINITION. NVMe-MI sideband (R89 to R91). Places of fields, type codes and status codes are NVMe-MI 1.2's (log entry 3);
the bytes of a response that neither the spec nor these places fill are free values (Config.stdByte, structures 2000 up).
MCTP packets, packet error codes and bus timing are the bus's and are not modelled. -/
namespace Sys2Proof.Machine

/-- The sideband answers: start-up has read the OTP row (R91, R559). -/
def sidebandUp (s : State) : Bool := decide (1 ≤ s.boot.stage) && decide (s.run ≠ .inReset) && decide (s.run ≠ .porHeld)

/-- The sideband's answer to a command. -/
def miAnswer (s : State) (status : Nat) (data : List Byte) (nvme : Status := .success) (dw0 : BitVec 32 := 0) : State :=
  s.onMisc fun m => { m with miStatus := status, miData := data, miNvme := nvme, miDw0 := dw0 }

/-- Serve a command: no answer before the sideband is up; in SAFE only the commands of R91, any other is an invalid opcode (03h). -/
def miServe (s : State) (inSafe : Bool) (go : State → State) : State :=
  if !sidebandUp s then s else if s.fh.latch && !inSafe then miAnswer s 3 [] else go s

/-- Bytes of a response structure: the given pieces, free bytes elsewhere. -/
def miBytes (n k : Nat) (ps : List (Nat × List Byte)) : List Byte := patched n (Config.stdByte (2000 + k) 0) ps

/-! ### Read NVMe-MI Data Structure -/

/-- NVM subsystem information: ports less one (the PCIe ports and the sideband), and version 1.2 of NVMe-MI (R53, R89). -/
def miSubsystemInfo (s : State) : List Byte := miBytes 32 0 [(0, leBytes 1 (ports s).length), (1, [1]), (2, [2])]

/-- Port information: the PCIe ports come first, the sideband last (R89). -/
def miPortInfo (s : State) (portId : Nat) : Option (List Byte) :=
  if portId < (ports s).length then some (miBytes 32 (8 + portId) [(0, [1])])
  else if portId = (ports s).length then some (miBytes 32 (8 + portId) [(0, [2])])
  else none

/-- Controller information: its port and the identity of configuration space (R53, R562, R572). -/
def miControllerInfo (s : State) (ctrlId : Nat) : Option (List Byte) :=
  if ctrlId ∈ allCtrls s then
    some (miBytes 32 (16 + ctrlId) ((0, leBytes 1 (ctrlId - 1)) :: ((configIdentity s).elim [] fun i =>
      [(8, leBytes 2 i.vid), (10, leBytes 2 i.did), (12, leBytes 2 i.ssvid), (14, leBytes 2 i.ssid)])))
  else none

/-- The structure read; none where its port or controller does not exist. -/
def miStructure (s : State) (dtype portId ctrlId : Nat) : Option (List Byte) :=
  if dtype = 0 then some (miSubsystemInfo s)
  else if dtype = 1 then miPortInfo s portId
  else if dtype = 2 then some (leBytes 2 (allCtrls s).length ++ (allCtrls s).flatMap fun i => leBytes 2 i)
  else if dtype = 3 then miControllerInfo s ctrlId
  else if dtype = 4 then some (miBytes 32 4 [])
  else none

/-- MI_READ_NVME_MI_DATA_STRUCTURE (R90). -/
def execMiReadDataStructure (dtype portId ctrlId : Nat) (s : State) : Host.Outcome State Fault Refusal :=
  .next (miServe s true fun s =>
    match miStructure s dtype portId ctrlId with
    | some bs => miAnswer s 0 bs
    | none => miAnswer s 4 [])

/-! ### Health polls -/

/-- Subsystem status byte: drive functional, no reset required, and the links that are up (R60, R525). -/
def miStatusByte (s : State) : Nat :=
  flag 5 (!s.fh.latch) + flag 4 (!s.fh.latch) + flag 3 (linkUp s.portA) + flag 2 (s.boot.strapPort && linkUp s.portB)

/-- Composite temperature as the sideband codes it: degrees in two's complement from −60 to 127; 80h with no reading (R483). -/
def miTemp (s : State) : Nat :=
  match compositeTemp s with
  | none => 0x80
  | some t => (if t / 16 < -60 then (-60 : Int) else if 127 < t / 16 then 127 else t / 16) % 256 |>.toNat

/-- SMART warnings as the sideband gives them: every bit inverted (R362, R373, R489). -/
def miWarnings (s : State) : Nat := 255 - criticalWarning s

/-- MI_SUBSYSTEM_HEALTH_STATUS_POLL (R90). -/
def execMiSubsystemHealthPoll (s : State) : Host.Outcome State Fault Refusal :=
  .next (miServe s true fun s => miAnswer s 0 (miBytes 8 5
    [(0, leBytes 1 (miStatusByte s)), (1, leBytes 1 (miWarnings s)), (2, leBytes 1 (miTemp s)), (3, leBytes 1 (percentUsed s))]))

/-- Controller status bits of a port's CSTS (R566 to R568). -/
def miCsts (pt : Port) : Nat := flag 0 pt.rdy + flag 1 pt.cfs + at_ 2 2 pt.shst + flag 4 pt.nssro

/-- MI_CONTROLLER_HEALTH_STATUS_POLL (R90): one controller's entry, or none where the port has no controller. -/
def execMiControllerHealthPoll (p : PortId) (s : State) : Host.Outcome State Fault Refusal :=
  .next (miServe s true fun s =>
    if p ∈ ports s then miAnswer s 0 (miBytes 16 (6 + p.toNat)
      ([(0, leBytes 2 (cntlid p)), (2, leBytes 2 (miCsts (s.port p))), (6, leBytes 1 (percentUsed s)), (7, leBytes 1 (availableSpare s))
        , (8, leBytes 1 (criticalWarning s))] ++ tempPiece 4 (compositeTemp s)))
    else miAnswer s 0 [])

/-! ### Configuration, VPD and Reset -/

/-- MI_CONFIGURATION_GET (R90): SMBus frequency (1) and MCTP transmission unit (3); health status change (2) holds no setting. -/
def execMiConfigurationGet (which : Nat) (s : State) : Host.Outcome State Fault Refusal :=
  .next (miServe s false fun s =>
    if which = 1 then miAnswer s 0 (leBytes 3 s.misc.smbusFreq)
    else if which = 2 then miAnswer s 0 (leBytes 3 0)
    else if which = 3 then miAnswer s 0 (leBytes 3 s.misc.mctpUnit)
    else miAnswer s 4 [])

/-- MI_CONFIGURATION_SET (R89, R90): an SMBus frequency of 100 kHz, 400 kHz or 1 MHz (1 to 3) in SMBus mode, or a transmission
unit of at least 64 bytes; nothing else can be set. -/
def execMiConfigurationSet (which value : Nat) (s : State) : Host.Outcome State Fault Refusal :=
  .next (miServe s false fun s =>
    if which = 1 ∧ s.boot.strapSb = false ∧ 1 ≤ value ∧ value ≤ 3 then miAnswer (s.onMisc fun m => { m with smbusFreq := value }) 0 []
    else if which = 3 ∧ 64 ≤ value ∧ value < 65536 then miAnswer (s.onMisc fun m => { m with mctpUnit := value }) 0 []
    else miAnswer s 4 [])

/-- VPD content: the identity section's, padded with zeros to its length; free bytes until an image is in use, for the spec
states no content before that (R90). -/
def vpdByte (s : State) (i : Nat) : Byte := if s.boot.romServes then Config.stdByte 2100 0 i else nth 0 s.image.ident.vpd i

/-- MI_VPD_READ (R90): the range must lie in the VPD. -/
def execMiVpdRead (offset len : Nat) (s : State) : Host.Outcome State Fault Refusal :=
  .next (miServe s false fun s =>
    if s.boot.romServes = false ∧ s.image.ident.vpdLength < offset + len then miAnswer s 4 []
    else miAnswer s 0 ((List.range len).map fun i => vpdByte s (offset + i)))

/-- MI_RESET (R90, R91, R568): an NVM subsystem reset, in SAFE too. -/
def execMiReset (s : State) : Host.Outcome State Fault Refusal :=
  .next (miServe s true fun s => subsystemResetFrom (miAnswer s 0 []) 3)

/-! ### Tunnelled admin commands -/

/-- A page over the sideband: the part asked for; no notice is re-armed and the cursor's read position stays, for these belong to
a port (R355, R612). -/
def miLogPage (s : State) (p : PortId) (lid : Nat) (r : LogReq) : List Byte ⊕ Status :=
  if !pageServed s lid then .inr .invalidLogPage
  else if r.offset % 4 ≠ 0 then .inr .invalidField
  else match vendorPage s lid, stdPieces s p lid with
    | some bs, _ => .inl (slicePage bs r)
    | none, some ps => .inl (slicePage (patched (r.offset + r.len) (stdBytes (256 + lid) p) ps) r)
    | none, none => .inr .invalidLogPage

/-- A tunnelled answer: data, or the status of the completion. -/
def miTunnelAnswer (s : State) (r : List Byte ⊕ Status) (dw0 : BitVec 32 := 0) : State :=
  match r with
  | .inl bs => miAnswer s 0 bs .success dw0
  | .inr st => miAnswer s 0 [] st

/-- Get Features over the sideband (R78, R90). -/
def miGetFeatures (s : State) (p : PortId) (fid : Nat) : State :=
  match featureDw0 s p fid with
  | none => miTunnelAnswer s (.inr .invalidField)
  | some d => miTunnelAnswer s (.inl (if fid = 0x0E then leBytes 8 (hostStamp s) else [])) d

/-- MI_TUNNELLED_ADMIN (R90, R91): Identify (06h), Get Log Page (02h) and, outside SAFE, Get Features (0Ah); no other opcode is
accepted. A controller that does not exist is an invalid parameter. -/
def execMiTunnelledAdmin (p : PortId) (opcode field nsid : Nat) (r : LogReq) (s : State) : Host.Outcome State Fault Refusal :=
  .next (miServe s true fun s =>
    if p ∉ ports s then miAnswer s 4 []
    else if opcode = 6 then
      (match identifyAnswer s p field nsid with
        | .inl bs => miTunnelAnswer s (.inl (slicePage bs r))
        | .inr st => miTunnelAnswer s (.inr st))
    else if opcode = 2 then miTunnelAnswer s (miLogPage s p field r)
    else if opcode = 10 ∧ s.fh.latch = false then miGetFeatures s p field
    else miAnswer s 3 [])

/-! ### Basic Management Command -/

/-- SMBus address of the Basic Management Command (R89): a read of another address is none. -/
def basicAddress : Nat := 0x6A

/-- BASIC_MANAGEMENT_COMMAND (R89, R91): the status block and the identification block of the drive, in SMBus mode and outside
SAFE; otherwise there is no answer. -/
def execBasicManagementCommand (s : State) : Host.Outcome State Fault Refusal :=
  let i := s.image.ident
  let head := [6, BitVec.ofNat 8 (miStatusByte s + flag 6 (s.run ≠ .running)), BitVec.ofNat 8 (miWarnings s), BitVec.ofNat 8 (miTemp s)
    , BitVec.ofNat 8 (percentUsed s)]
  .next (if !sidebandUp s || s.boot.strapSb || s.fh.latch then s
    else miAnswer s 0 (miBytes 30 120 [(0, head), (7, [22]), (8, (leBytes 2 i.vid).reverse), (10, padded 20 i.serial)]))

end Sys2Proof.Machine
end

