-- ==== Sys2Proof/Machine/Windows.lean ====
section
/-! DEFINITION. Accesses to the diagnostic window (R12 to R20, R30). -/
namespace Sys2Proof.Machine

/-- The access is a naturally aligned 32-bit one (R15). -/
def aligned32 (addr width : Nat) : Bool := decide (width = 4) && decide (addr % 4 = 0)

/-- What a read returns: the latched high word where it directly follows the read of its register's low word, else the register
(R15, R16). -/
def windowValue (s : State) (p : PortId) (addr width : Nat) : BitVec 32 :=
  if !aligned32 addr width then 0xFFFFFFFF
  else match (s.port p).latch with
    | some (a, hi) => if a + 4 = addr then hi else regRead s addr
    | none => regRead s addr

/-- A buffered low word is lost when the port accesses any other window address than its register's two words (R17). -/
def keptLow (p : Port) (addr : Nat) : Option (Nat × BitVec 32) :=
  p.wbuf.filter fun b => decide (addr = b.1) || decide (addr = b.1 + 4)

/-- WINDOW_READ_LOW_WORD (R16): a read of the window. That of a 64-bit register's low word latches its high word for the port; any
access drops what was latched before, and an access to another register what was buffered (R17). Without its REFCLK the port's link
carries none (R30). -/
def readWindow (s : State) (p : PortId) (addr width : Nat) : State :=
  if !(s.port p).refclk then s
  else
    let v := windowValue s p addr width
    let l := if aligned32 addr width && isLow64 addr then some (addr, regRead s (addr + 4)) else none
    s.onPort p fun x => { x with windowData := v, latch := l, wbuf := keptLow x addr }

def execWindowReadLowWord (p : PortId) (addr width : Nat) (s : State) : Host.Outcome State Fault Refusal :=
  .next (readWindow s p addr width)

/-- A write to the low word of a 64-bit register is held in the port's buffer (R13, R17). -/
def bufferLow (s : State) (p : PortId) (addr : Nat) (v : BitVec 32) : State :=
  s.onPort p fun x => { x with latch := none, wbuf := some (addr, v) }

/-- A write to the high word of a 64-bit register applies it, with the low word where one is buffered (R17). -/
def applyHigh (s : State) (p : PortId) (addr : Nat) (v : BitVec 32) : State :=
  let lo := match (s.port p).wbuf with
    | some (a, w) => if a + 4 = addr then some w else none
    | none => none
  regWrite64 (touchWindow s p) (addr - 4) lo v

/-- A write of a 32-bit register: those with rows of their own act as those rows do (R518, R520). -/
def applyWord (s : State) (p : PortId) (addr : Nat) (v : BitVec 32) : State :=
  if addr = 0x100D0 then writeInject s p v
  else if addr = 0x18000 then writeLegArm s p v
  else if 0x18010 ≤ addr ∧ addr < 0x18038 then forceSources s p ((addr - 0x18010) / 4) v
  else regWrite (touchWindow s p) addr v

/-- An access that changes no register drops what the port had latched, and what it had buffered for another register (R16, R17). -/
def passWindow (s : State) (p : PortId) (addr : Nat) : State := s.onPort p fun x => { x with latch := none, wbuf := keptLow x addr }

/-- Any window write: without an unlock of window scope, or not a naturally aligned word, it is ignored (R13, R15). Without its REFCLK
the port's link carries none (R30). -/
def writeAny (s : State) (p : PortId) (addr width : Nat) (v : BitVec 32) : State :=
  if !(s.port p).refclk then s
  else if !aligned32 addr width || !mayWrite s p then passWindow s p addr
  else if isLow64 addr then bufferLow s p addr v
  else if isHigh64 addr then applyHigh s p addr v
  else applyWord s p addr v

def execWindowWrite (p : PortId) (addr width : Nat) (v : BitVec 32) (s : State) : Host.Outcome State Fault Refusal :=
  .next (writeAny s p addr width v)

/-- WINDOW_WRITE_LOW_WORD (R17). -/
def writeLow (s : State) (p : PortId) (addr width : Nat) (v : BitVec 32) : State :=
  if isLow64 addr && aligned32 addr width && mayWrite s p && (s.port p).refclk then bufferLow s p addr v else writeAny s p addr width v

def execWindowWriteLowWord (p : PortId) (addr width : Nat) (v : BitVec 32) (s : State) : Host.Outcome State Fault Refusal :=
  .next (writeLow s p addr width v)

/-- WINDOW_WRITE_HIGH_WORD (R17). -/
def writeHigh (s : State) (p : PortId) (addr width : Nat) (v : BitVec 32) : State :=
  if isHigh64 addr && aligned32 addr width && mayWrite s p && (s.port p).refclk then applyHigh s p addr v else writeAny s p addr width v

def execWindowWriteHighWord (p : PortId) (addr width : Nat) (v : BitVec 32) (s : State) : Host.Outcome State Fault Refusal :=
  .next (writeHigh s p addr width v)

end Sys2Proof.Machine
end

