-- ==== Sys2Proof/Machine/Dispatch.lean ====
section
/-! DEFINITION. One arm for each command: its meaning, or rejected by name. -/
namespace Sys2Proof.Machine

def exec (i : Instr) (s : State) : Host.Outcome State Fault Refusal :=
  match i with
  | .suppliesValid env board => Sys2Proof.Machine.execSuppliesValid env board s
  | .supplyFall => Sys2Proof.Machine.execSupplyFall s
  | .vauxVio vio above => Sys2Proof.Machine.execVauxVio vio above s
  | .porNAssert => Sys2Proof.Machine.execPorNAssert s
  | .porNRelease env board => Sys2Proof.Machine.execPorNRelease env board s
  | .pwrFailNAssert => Sys2Proof.Machine.execPwrFailNAssert s
  | .pwrFailNRelease env => Sys2Proof.Machine.execPwrFailNRelease env s
  | .perstAssert p lowNs => Sys2Proof.Machine.execPerstAssert p lowNs s
  | .perstDeassert p => Sys2Proof.Machine.execPerstDeassert p s
  | .linkDown p => Sys2Proof.Machine.execLinkDown p s
  | .linkUp p speed width flit laneReversed => Sys2Proof.Machine.execLinkUp p speed width flit laneReversed s
  | .refclkLoss p => Sys2Proof.Machine.execRefclkLoss p s
  | .hotReset p => Sys2Proof.Machine.execHotReset p s
  | .linkDisable p => Sys2Proof.Machine.execLinkDisable p s
  | .functionLevelReset p => Sys2Proof.Machine.execFunctionLevelReset p s
  | .ccEnSet p ams => Sys2Proof.Machine.execCcEnSet p ams s
  | .ccEnClear p => Sys2Proof.Machine.execCcEnClear p s
  | .shutdownNotification p => Sys2Proof.Machine.execShutdownNotification p s
  | .shutdownComplete => Sys2Proof.Machine.execShutdownComplete s
  | .nvmSubsystemReset p => Sys2Proof.Machine.execNvmSubsystemReset p s
  | .nssrStagingWritten env => Sys2Proof.Machine.execNssrStagingWritten env s
  | .cstsNssroClear p => Sys2Proof.Machine.execCstsNssroClear p s
  | .submissionDoorbell p qid tail entries => Sys2Proof.Machine.execSubmissionDoorbell p qid tail entries s
  | .completionDoorbell p qid head => Sys2Proof.Machine.execCompletionDoorbell p qid head s
  | .commandFetch p => Sys2Proof.Machine.execCommandFetch p s
  | .mapAccept => Sys2Proof.Machine.execMapAccept s
  | .createIoSq a qid size cqid prio => Sys2Proof.Machine.execCreateIoSq a qid size cqid prio s
  | .createIoCq a qid size vector => Sys2Proof.Machine.execCreateIoCq a qid size vector s
  | .deleteIoSq a qid => Sys2Proof.Machine.execDeleteIoSq a qid s
  | .deleteIoCq a qid => Sys2Proof.Machine.execDeleteIoCq a qid s
  | .identify a cns nsid => Sys2Proof.Machine.execIdentify a cns nsid s
  | .getFeatures a fid => Sys2Proof.Machine.execGetFeatures a fid s
  | .setFeatures a fid value => Sys2Proof.Machine.execSetFeatures a fid value s
  | .setFeaturesFdp a enable => Sys2Proof.Machine.execSetFeaturesFdp a enable s
  | .setFeaturesPowerManagement a ps => Sys2Proof.Machine.execSetFeaturesPowerManagement a ps s
  | .setFeaturesVwc a enable => Sys2Proof.Machine.execSetFeaturesVwc a enable s
  | .setFeaturesHctm a tmt1 tmt2 => Sys2Proof.Machine.execSetFeaturesHctm a tmt1 tmt2 s
  | .setFeaturesAsyncEvent a value => Sys2Proof.Machine.execSetFeaturesAsyncEvent a value s
  | .setFeaturesTimestamp a ms => Sys2Proof.Machine.execSetFeaturesTimestamp a ms s
  | .getLogPage a lid r => Sys2Proof.Machine.execGetLogPage a lid r s
  | .getLogPageExtendedHealth a r => Sys2Proof.Machine.execGetLogPageExtendedHealth a r s
  | .getLogPageLostIu a r => Sys2Proof.Machine.execGetLogPageLostIu a r s
  | .getLogPageSealHorizon a r => Sys2Proof.Machine.execGetLogPageSealHorizon a r s
  | .getLogPageFaultHistory a r => Sys2Proof.Machine.execGetLogPageFaultHistory a r s
  | .getLogPageThermalHistory a r => Sys2Proof.Machine.execGetLogPageThermalHistory a r s
  | .getLogPageDrydownCursor a r => Sys2Proof.Machine.execGetLogPageDrydownCursor a r s
  | .getLogPageAccordStatus a r => Sys2Proof.Machine.execGetLogPageAccordStatus a r s
  | .abort a sqid tcid => Sys2Proof.Machine.execAbort a sqid tcid s
  | .asynchronousEventRequest a => Sys2Proof.Machine.execAsynchronousEventRequest a s
  | .keepAlive a => Sys2Proof.Machine.execKeepAlive a s
  | .firmwareImageDownload a offset data => Sys2Proof.Machine.execFirmwareImageDownload a offset data s
  | .firmwareCommit0 a fs => Sys2Proof.Machine.execFirmwareCommit0 a fs s
  | .firmwareCommit1 a fs => Sys2Proof.Machine.execFirmwareCommit1 a fs s
  | .firmwareCommit2 a fs => Sys2Proof.Machine.execFirmwareCommit2 a fs s
  | .firmwareCommit3 a fs => Sys2Proof.Machine.execFirmwareCommit3 a fs s
  | .commitSpiStepEnd r => Sys2Proof.Machine.execCommitSpiStepEnd r s
  | .activationDrainEnd => Sys2Proof.Machine.execActivationDrainEnd s
  | .activationTimeout => Sys2Proof.Machine.execActivationTimeout s
  | .namespaceCreate a nsze flbas handles => Sys2Proof.Machine.execNamespaceCreate a nsze flbas handles s
  | .namespaceDelete a nsid => Sys2Proof.Machine.execNamespaceDelete a nsid s
  | .namespaceAttach a nsid ctrls => Sys2Proof.Machine.execNamespaceAttach a nsid ctrls s
  | .namespaceDetach a nsid ctrls => Sys2Proof.Machine.execNamespaceDetach a nsid ctrls s
  | .formatNvm a nsid ses lbaf => Sys2Proof.Machine.execFormatNvm a nsid ses lbaf s
  | .sanitizeCryptoErase a => Sys2Proof.Machine.execSanitizeCryptoErase a s
  | .sanitizeBlockErase a => Sys2Proof.Machine.execSanitizeBlockErase a s
  | .sanitizeEraseEnd => Sys2Proof.Machine.execSanitizeEraseEnd s
  | .deviceSelfTest a stc => Sys2Proof.Machine.execDeviceSelfTest a stc s
  | .directiveSend a dtype => Sys2Proof.Machine.execDirectiveSend a dtype s
  | .directiveReceive a dtype => Sys2Proof.Machine.execDirectiveReceive a dtype s
  | .ownershipClaim a token force key reservedBad tie => Sys2Proof.Machine.execOwnershipClaim a token force key reservedBad tie s
  | .ownershipRelease a token reservedBad tie => Sys2Proof.Machine.execOwnershipRelease a token reservedBad tie s
  | .handoverDrainEnd => Sys2Proof.Machine.execHandoverDrainEnd s
  | .drydownControlStart a token reservedBad => Sys2Proof.Machine.execDrydownControlStart a token reservedBad s
  | .drydownControlStop a token reservedBad => Sys2Proof.Machine.execDrydownControlStop a token reservedBad s
  | .cursorReady => Sys2Proof.Machine.execCursorReady s
  | .diagnosticUnlockEnd a token reservedBad => Sys2Proof.Machine.execDiagnosticUnlockEnd a token reservedBad s
  | .diagnosticUnlockChallenge a token scope reservedBad => Sys2Proof.Machine.execDiagnosticUnlockChallenge a token scope reservedBad s
  | .diagnosticUnlockResponse a token response reservedBad => Sys2Proof.Machine.execDiagnosticUnlockResponse a token response reservedBad s
  | .read p sq cid => Sys2Proof.Machine.execRead p sq cid s
  | .write p sq cid => Sys2Proof.Machine.execWrite p sq cid s
  | .writeZeroes p sq cid => Sys2Proof.Machine.execWriteZeroes p sq cid s
  | .datasetManagementDeallocate p sq cid => Sys2Proof.Machine.execDatasetManagementDeallocate p sq cid s
  | .flush p sq cid => Sys2Proof.Machine.execFlush p sq cid s
  | .verify p sq cid => Sys2Proof.Machine.execVerify p sq cid s
  | .seal p sq cid => Sys2Proof.Machine.execSeal p sq cid s
  | .writeAdmission p => Sys2Proof.Machine.execWriteAdmission p s
  | .readWaitEnd p sq cid => Sys2Proof.Machine.execReadWaitEnd p sq cid s
  | .flaconCommit flacon => Sys2Proof.Machine.execFlaconCommit flacon s
  | .pack flacon => Sys2Proof.Machine.execPack flacon s
  | .sealPadDelayExpiry => Sys2Proof.Machine.execSealPadDelayExpiry s
  | .arrayOperationStart die => Sys2Proof.Machine.execArrayOperationStart die s
  | .dieActivityGrant => Sys2Proof.Machine.execDieActivityGrant s
  | .senseComplete die errs => Sys2Proof.Machine.execSenseComplete die errs s
  | .decodeComplete job r => Sys2Proof.Machine.execDecodeComplete job r s
  | .readRecoverBudgetExpiry job => Sys2Proof.Machine.execReadRecoverBudgetExpiry job s
  | .reconstruction job => Sys2Proof.Machine.execReconstruction job s
  | .prefetch p stream => Sys2Proof.Machine.execPrefetch p stream s
  | .programPassComplete die => Sys2Proof.Machine.execProgramPassComplete die s
  | .versionApply trim id => Sys2Proof.Machine.execVersionApply trim id s
  | .flaconRelease flacon => Sys2Proof.Machine.execFlaconRelease flacon s
  | .programFailure die => Sys2Proof.Machine.execProgramFailure die s
  | .eraseComplete die marginFails => Sys2Proof.Machine.execEraseComplete die marginFails s
  | .eraseFailure die => Sys2Proof.Machine.execEraseFailure die s
  | .eraseSuspend die => Sys2Proof.Machine.execEraseSuspend die s
  | .eraseResume die => Sys2Proof.Machine.execEraseResume die s
  | .superBlockFormation use handle => Sys2Proof.Machine.execSuperBlockFormation use handle s
  | .superBlockRelease sb => Sys2Proof.Machine.execSuperBlockRelease sb s
  | .ruActiveLimitExpiry sb => Sys2Proof.Machine.execRuActiveLimitExpiry sb s
  | .idleEntry => Sys2Proof.Machine.execIdleEntry s
  | .collectionStart => Sys2Proof.Machine.execCollectionStart s
  | .copy sb => Sys2Proof.Machine.execCopy sb s
  | .wearMove => Sys2Proof.Machine.execWearMove s
  | .scrubRead page => Sys2Proof.Machine.execScrubRead page s
  | .scrubSbRefresh sb => Sys2Proof.Machine.execScrubSbRefresh sb s
  | .scrubPeriodOverrun => Sys2Proof.Machine.execScrubPeriodOverrun s
  | .fold nsid iu => Sys2Proof.Machine.execFold nsid iu s
  | .slcFold sb => Sys2Proof.Machine.execSlcFold sb s
  | .rebuild => Sys2Proof.Machine.execRebuild s
  | .refugeFlushEnd => Sys2Proof.Machine.execRefugeFlushEnd s
  | .refugeSetRelease set => Sys2Proof.Machine.execRefugeSetRelease set s
  | .journalFlushExpiry => Sys2Proof.Machine.execJournalFlushExpiry s
  | .checkpointSegmentStart => Sys2Proof.Machine.execCheckpointSegmentStart s
  | .seqReserve => Sys2Proof.Machine.execSeqReserve s
  | .pfWaitEnd env => Sys2Proof.Machine.execPfWaitEnd env s
  | .recovery env => Sys2Proof.Machine.execRecovery env s
  | .recoveryTimeout p => Sys2Proof.Machine.execRecoveryTimeout p s
  | .takeoverHoldExpiry => Sys2Proof.Machine.execTakeoverHoldExpiry s
  | .forceLockExpiry p => Sys2Proof.Machine.execForceLockExpiry p s
  | .unlockRefusalExpiry p => Sys2Proof.Machine.execUnlockRefusalExpiry p s
  | .unlockExpiry => Sys2Proof.Machine.execUnlockExpiry s
  | .apst p ps => Sys2Proof.Machine.execApst p ps s
  | .powerStateEntryEnd => Sys2Proof.Machine.execPowerStateEntryEnd s
  | .hkRoundStart => Sys2Proof.Machine.execHkRoundStart s
  | .hkRoundEnd d => Sys2Proof.Machine.execHkRoundEnd d s
  | .inputHoldExpiry input => Sys2Proof.Machine.execInputHoldExpiry input s
  | .throttleStep => Sys2Proof.Machine.execThrottleStep s
  | .haltEntryEnd => Sys2Proof.Machine.execHaltEntryEnd s
  | .aliveEdge pinLevel => Sys2Proof.Machine.execAliveEdge pinLevel s
  | .faultSourceFiring fs => Sys2Proof.Machine.execFaultSourceFiring fs s
  | .busyTimeout die => Sys2Proof.Machine.execBusyTimeout die s
  | .decTimeout cluster => Sys2Proof.Machine.execDecTimeout cluster s
  | .dTimeout block chan => Sys2Proof.Machine.execDTimeout block chan s
  | .coreWdog core => Sys2Proof.Machine.execCoreWdog core s
  | .fabricTimeout => Sys2Proof.Machine.execFabricTimeout s
  | .cplTimeout p sq cid => Sys2Proof.Machine.execCplTimeout p sq cid s
  | .hubSelfFault c => Sys2Proof.Machine.execHubSelfFault c s
  | .channelBlockResetEnd ch found => Sys2Proof.Machine.execChannelBlockResetEnd ch found s
  | .blockResetBoundExpiry ch => Sys2Proof.Machine.execBlockResetBoundExpiry ch s
  | .unitResetEnd => Sys2Proof.Machine.execUnitResetEnd s
  | .reactionWindowClose source => Sys2Proof.Machine.execReactionWindowClose source s
  | .fhLogIntervalExpiry source => Sys2Proof.Machine.execFhLogIntervalExpiry source s
  | .chainStart block chan head => Sys2Proof.Machine.execChainStart block chan head s
  | .descriptorFetch block chan d => Sys2Proof.Machine.execDescriptorFetch block chan d s
  | .paceTimer block chan => Sys2Proof.Machine.execPaceTimer block chan s
  | .peripheralRequest ch => Sys2Proof.Machine.execPeripheralRequest ch s
  | .burstGrant block ready => Sys2Proof.Machine.execBurstGrant block ready s
  | .writeResponse block chan => Sys2Proof.Machine.execWriteResponse block chan s
  | .descriptorComplete block chan => Sys2Proof.Machine.execDescriptorComplete block chan s
  | .dramRequest ch arrivals seen activates => Sys2Proof.Machine.execDramRequest ch arrivals seen activates s
  | .dramRefresh ch hot => Sys2Proof.Machine.execDramRefresh ch hot s
  | .refreshWindowStart ch => Sys2Proof.Machine.execRefreshWindowStart ch s
  | .dramPatrolScrub ch seen => Sys2Proof.Machine.execDramPatrolScrub ch seen s
  | .eccCeRate ch => Sys2Proof.Machine.execEccCeRate ch s
  | .alertNAssert ch => Sys2Proof.Machine.execAlertNAssert ch s
  | .alertNDeassert ch => Sys2Proof.Machine.execAlertNDeassert ch s
  | .frequencyChange failing => Sys2Proof.Machine.execFrequencyChange failing s
  | .trainingStep ch passes => Sys2Proof.Machine.execTrainingStep ch passes s
  | .miReadDataStructure dtype portId ctrlId => Sys2Proof.Machine.execMiReadDataStructure dtype portId ctrlId s
  | .miSubsystemHealthPoll => Sys2Proof.Machine.execMiSubsystemHealthPoll s
  | .miControllerHealthPoll p => Sys2Proof.Machine.execMiControllerHealthPoll p s
  | .miConfigurationGet which => Sys2Proof.Machine.execMiConfigurationGet which s
  | .miConfigurationSet which value => Sys2Proof.Machine.execMiConfigurationSet which value s
  | .miVpdRead offset len => Sys2Proof.Machine.execMiVpdRead offset len s
  | .miReset => Sys2Proof.Machine.execMiReset s
  | .miTunnelledAdmin p opcode field nsid r => Sys2Proof.Machine.execMiTunnelledAdmin p opcode field nsid r s
  | .basicManagementCommand => Sys2Proof.Machine.execBasicManagementCommand s
  | .windowWrite p addr width v => Sys2Proof.Machine.execWindowWrite p addr width v s
  | .windowReadLowWord p addr width => Sys2Proof.Machine.execWindowReadLowWord p addr width s
  | .windowWriteLowWord p addr width v => Sys2Proof.Machine.execWindowWriteLowWord p addr width v s
  | .windowWriteHighWord p addr width v => Sys2Proof.Machine.execWindowWriteHighWord p addr width v s
  | .fhFirstValidClear p => Sys2Proof.Machine.execFhFirstValidClear p s
  | .fhInjectArm p v => Sys2Proof.Machine.execFhInjectArm p v s
  | .fhLegArmWrite p v => Sys2Proof.Machine.execFhLegArmWrite p v s
  | .fhLegArmExpiry => Sys2Proof.Machine.execFhLegArmExpiry s
  | .fhLegForceWrite p k v => Sys2Proof.Machine.execFhLegForceWrite p k v s
  | .refclkReturn p => Sys2Proof.Machine.execRefclkReturn p s
  | .vauxVioWindowReturn vio => Sys2Proof.Machine.execVauxVioWindowReturn vio s
  | .configurationRequest p r => Sys2Proof.Machine.execConfigurationRequest p r s
  | .powerStateExitEnd => Sys2Proof.Machine.execPowerStateExitEnd s
  | .clusterBlockResetEnd g => Sys2Proof.Machine.execClusterBlockResetEnd g s
  | .sanitizeTrimEnd => Sys2Proof.Machine.execSanitizeTrimEnd s
  | .jtagAccess op => Sys2Proof.Machine.execJtagAccess op s
  | .hostDataCompletion p sq cid flacon data sram => Sys2Proof.Machine.execHostDataCompletion p sq cid flacon data sram s

end Sys2Proof.Machine
end

