-- ==== Sys2Proof/Safety.lean ====
section
/-! DEFINITION. The words statements are made of: the conditions under which a command has its own effect, what a completion
is, and the properties that every step keeps. -/
namespace Sys2Proof.Machine

/-! ### Conditions -/

/-- The controller takes the admin command and nothing restricts it: ready, not in SAFE (R525), recovery over (R566), and its data
pointer a PRP (R72). -/
abbrev AdminOpen (s : State) (a : AdminId) : Prop :=
  adminLive s a.port = true ∧ s.fh.latch = false ∧ s.run = .running ∧ a.ptr = .prp

/-- Beside that, no handover holds the command (R117), the port owns the drive (R99) and no Sanitize runs (R634). -/
abbrev OwnerOpen (s : State) (a : AdminId) : Prop :=
  AdminOpen s a ∧ s.own.phase ≠ .handover ∧ s.own.owner = a.port ∧ s.sec.sanitize = .none

/-- A normal start has ended: not in SAFE, and running. -/
abbrev Running (s : State) : Prop := s.fh.latch = false ∧ s.run = .running

/-! ### Completions -/

/-- The completion queue entry of an admin command (R74), with the Do Not Retry bit of R643. -/
def adminCqe (s : State) (a : AdminId) (st : Status) (dw0 : BitVec 32 := 0) : Cqe :=
  { sq := 0, cid := a.cid, status := st, dnr := dnrOf s.mediaMode st, dw0 := dw0, dw1 := 0 }

/-- No I/O queue has the number of the admin queue; R67 numbers them from 1. -/
abbrev NoQueueZero (s : State) (p : PortId) : Prop := ∀ q ∈ (s.port p).sqs, q.id ≠ 0

/-- The admin command that a command is, if it is one. -/
def adminOf : Instr → Option AdminId
  | .createIoSq a .. | .createIoCq a .. | .deleteIoSq a .. | .deleteIoCq a .. | .identify a .. | .getFeatures a ..
  | .setFeatures a .. | .setFeaturesFdp a .. | .setFeaturesPowerManagement a .. | .setFeaturesVwc a .. | .setFeaturesHctm a ..
  | .setFeaturesAsyncEvent a .. | .setFeaturesTimestamp a .. | .getLogPage a .. | .getLogPageExtendedHealth a ..
  | .getLogPageLostIu a .. | .getLogPageSealHorizon a .. | .getLogPageFaultHistory a .. | .getLogPageThermalHistory a ..
  | .getLogPageDrydownCursor a .. | .getLogPageAccordStatus a .. | .abort a .. | .asynchronousEventRequest a | .keepAlive a
  | .firmwareImageDownload a .. | .firmwareCommit0 a .. | .firmwareCommit1 a .. | .firmwareCommit2 a .. | .firmwareCommit3 a ..
  | .namespaceCreate a .. | .namespaceDelete a .. | .namespaceAttach a .. | .namespaceDetach a .. | .formatNvm a ..
  | .sanitizeCryptoErase a | .sanitizeBlockErase a | .deviceSelfTest a .. | .directiveSend a .. | .directiveReceive a ..
  | .ownershipClaim a .. | .ownershipRelease a .. | .drydownControlStart a .. | .drydownControlStop a ..
  | .diagnosticUnlockEnd a .. | .diagnosticUnlockChallenge a .. | .diagnosticUnlockResponse a .. => some a
  | _ => none

/-- Identify and Get Log Page, which SAFE still executes (R525). -/
def reports : Instr → Bool
  | .identify .. | .getLogPage .. | .getLogPageExtendedHealth .. | .getLogPageLostIu .. | .getLogPageSealHorizon ..
  | .getLogPageFaultHistory .. | .getLogPageThermalHistory .. | .getLogPageDrydownCursor .. | .getLogPageAccordStatus .. => true
  | _ => false

/-- Format NVM, Sanitize, Namespace Management and Attachment, the firmware commands and Device Self-test (R99). -/
def changesDrive : Instr → Bool
  | .firmwareImageDownload .. | .firmwareCommit0 .. | .firmwareCommit1 .. | .firmwareCommit2 .. | .firmwareCommit3 ..
  | .namespaceCreate .. | .namespaceDelete .. | .namespaceAttach .. | .namespaceDetach .. | .formatNvm ..
  | .sanitizeCryptoErase .. | .sanitizeBlockErase .. | .deviceSelfTest .. => true
  | _ => false

/-- The request that a vendor admin command makes (R123): Claim, Release, Drydown Control and Diagnostic Unlock. -/
def vendorOf : Instr → Option (AdminId × VendorReq)
  | .ownershipClaim a token force key bad none =>
    some (a, vendorReq token 0xC0 (b2n force) 0 bad (if force then leBytes 32 key.toNat else []))
  | .ownershipRelease a token bad none => some (a, vendorReq token 0xC1 0 0 bad [])
  | .drydownControlStart a token bad => some (a, vendorReq token 0xC2 1 0 bad [])
  | .drydownControlStop a token bad => some (a, vendorReq token 0xC2 2 0 bad [])
  | .diagnosticUnlockEnd a token bad => some (a, vendorReq token 0xC3 0 0 bad [])
  | .diagnosticUnlockChallenge a token scope bad => some (a, vendorReq token 0xC3 1 scope bad [])
  | .diagnosticUnlockResponse a token response bad => some (a, vendorReq token 0xC3 2 0 bad response)
  | _ => none

/-- The other port's ownership command that a command arrives with in one fabric cycle (R116). -/
def tieOf : Instr → Option OwnCmd
  | .ownershipClaim _ _ _ _ _ tie => tie
  | .ownershipRelease _ _ _ tie => tie
  | _ => none

/-- The same command arriving by itself. -/
def aloneOf : Instr → Instr
  | .ownershipClaim a token force key bad _ => .ownershipClaim a token force key bad none
  | .ownershipRelease a token bad _ => .ownershipRelease a token bad none
  | i => i

/-- An ownership command as the tie of another. -/
def asOwn : Instr → Option OwnCmd
  | .ownershipClaim a token force key bad _ => some (.claim a.cid token force key bad)
  | .ownershipRelease a token bad _ => some (.release a.cid token bad)
  | _ => none

/-- The ownership command of the other port by itself. -/
def ownInstr (p : PortId) : OwnCmd → Instr
  | .claim cid token force key bad => .ownershipClaim { port := p, cid := cid } token force key bad none
  | .release cid token bad => .ownershipRelease { port := p, cid := cid } token bad none

/-- What a handover holds: the commands that change the drive, a Set Features of a drive-wide feature, and Drydown Control (R117). -/
def heldByHandover : Instr → Bool
  | .setFeatures _ fid _ => decide (setClass fid = .driveSet)
  | .setFeaturesFdp .. | .setFeaturesVwc .. | .setFeaturesHctm .. | .setFeaturesTimestamp .. | .drydownControlStart ..
  | .drydownControlStop .. => true
  | i => changesDrive i

/-- A Diagnostic Unlock whose fields are as R616 and R637 have them. -/
def wellFields : Instr → Bool
  | .diagnosticUnlockEnd _ _ bad | .diagnosticUnlockResponse _ _ _ bad => !bad
  | .diagnosticUnlockChallenge _ _ scope bad => !bad && decide (scope < 8)
  | _ => false

/-- The command asks for a challenge (R637). -/
def asksChallenge : Instr → Bool
  | .diagnosticUnlockChallenge .. => true
  | _ => false

/-! ### What every step keeps -/

/-- R14: an unlock that is in effect belongs to the owner. -/
def unlockOwned (s : State) : Bool :=
  match s.sec.unlock with
  | none => true
  | some u => decide (u.port = s.own.owner)

/-- Bits of the OTP row only go from 0 to 1 (R620), and its canonical form stays. -/
def OtpGrows (m n : List Host.Cell) : Prop :=
  memWf 0 m = true → memWf 0 n = true ∧ ∀ a, memGet 0 n a &&& memGet 0 m a = memGet 0 m a

/-! ### Reset values -/

/-- Reset value of each word of the diagnostic window, from the Reset columns of the register tables (R51, R97, R129, R259, R293, R294,
R416, R449, R469, R496, R531, R532, R575, R642); every word that is not named resets to 0. -/
def resetWord (a : Nat) : BitVec 32 :=
  if a = 0x20 then 0x46000000
  else if a = 0x18004 then 0x0000000A
  else if 0x20100 ≤ a ∧ a < 0x20150 then 0x00800000
  else if a = 0x7000C then 0xFFFF0000
  else 0

end Sys2Proof.Machine
end

