-- ==== Sys2Proof/Certificates/Slice0/Obligations.lean ====
section
/-! DEFINITION. The statements for the provers. -/
open Sys2Proof Sys2Proof.Machine

/-! ### The interface -/

/-- A step takes the command at the front of the queue and runs it with the rest of the queue left. -/
def Obligations.StepRunsFrontCommand : Prop :=
  ∀ (c : Instr) (rest : List Instr) (s : State), s.pending = c :: rest → step s = exec c { s with pending := rest }

/-- On an empty queue a step is one microsecond and changes nothing but the clock. This is the model's choice (log entry 4): the
spec gives the block no row for a tick. -/
def Obligations.IdleStepIsOneMicrosecond : Prop :=
  ∀ s : State, s.pending = [] → step s = .next { s with now := s.now + 1 }

/-! ### Admin commands -/

/-- R74, R643: where no I/O queue has the number 0, the completion of an admin command is appended to the completions of its port, with
its status, its DW0, a DW1 of 0 and the Do Not Retry bit of R643; nothing else of the machine changes. -/
def Obligations.AdminCompletionIsPosted : Prop :=
  ∀ (a : AdminId) (st : Status) (dw0 : BitVec 32) (s : State), NoQueueZero s a.port →
    adminDone s a st dw0 = s.onPort a.port fun p => { p with cqes := p.cqes ++ [adminCqe s a st dw0] }

/-- R525, R643, R127: in SAFE every admin command but Identify and Get Log Page completes with Command Sequence Error, Do Not Retry set.
A vendor command's token is stored with that status, unless the port's store holds it already; nothing else changes. Of two ownership commands
that arrive together, the one on the other port completes after it as it would alone. -/
def Obligations.SafeRefusesAdmin : Prop :=
  let refused := fun (s : State) (a : AdminId) => s.onPort a.port fun p => { p with
    cqes := p.cqes ++ [{ sq := 0, cid := a.cid, status := .commandSequenceError, dnr := true, dw0 := 0, dw1 := 0 }] }
  (∀ (c : Instr) (a : AdminId) (s : State), adminOf c = some a → vendorOf c = none → tieOf c = none → reports c = false →
    adminLive s a.port = true → s.fh.latch = true → NoQueueZero s a.port → exec c s = .next (refused s a)) ∧
  (∀ (c : Instr) (a : AdminId) (q : VendorReq) (s : State), vendorOf c = some (a, q) →
    adminLive s a.port = true → s.fh.latch = true → NoQueueZero s a.port →
    (tokenLook (s.port a.port) q.token q.opcode q.print = .fresh → exec c s = .next (refused (s.onPort a.port fun p =>
      tokenStore p { token := q.token, opcode := q.opcode, print := q.print, status := .commandSequenceError, dw0 := 0, dw1 := 0 }) a)) ∧
    (tokenLook (s.port a.port) q.token q.opcode q.print ≠ .fresh → exec c s = .next (refused s a))) ∧
  (∀ (c : Instr) (a : AdminId) (o : OwnCmd) (s : State), adminOf c = some a → tieOf c = some o → adminLive s a.port = true →
    adminLive s a.port.other = true → s.fh.latch = true →
    ∃ t, exec (aloneOf c) s = .next t ∧ exec c s = exec (ownInstr a.port.other o) t)

/-- R99: from the port that does not own the drive, Format NVM, Sanitize, Namespace Management and Attachment, the firmware commands and
Device Self-test complete with Ownership Not Held, and a Set Features of a drive-wide feature with Namespace Is Write Protected; but for that
completion nothing changes. -/
def Obligations.ObserverMayNotChangeDrive : Prop :=
  (∀ (c : Instr) (a : AdminId) (s : State), changesDrive c = true → adminOf c = some a → AdminOpen s a →
    s.own.phase ≠ .handover → s.own.owner ≠ a.port → exec c s = .next (adminDone s a .ownershipNotHeld)) ∧
  (∀ (a : AdminId) (s : State), AdminOpen s a → s.own.phase ≠ .handover → s.own.owner ≠ a.port →
    (∀ on, exec (.setFeaturesVwc a on) s = .next (adminDone s a .nsWriteProtected)) ∧
    (∀ on, exec (.setFeaturesFdp a on) s = .next (adminDone s a .nsWriteProtected)) ∧
    (∀ t1 t2, exec (.setFeaturesHctm a t1 t2) s = .next (adminDone s a .nsWriteProtected)) ∧
    (∀ ms, exec (.setFeaturesTimestamp a ms) s = .next (adminDone s a .nsWriteProtected)) ∧
    (∀ fid v, setClass fid = .driveSet → exec (.setFeatures a fid v) s = .next (adminDone s a .nsWriteProtected)))

/-- R117 step 1, R566, R634: during a handover the commands that change the drive (those of R99's list, a Set Features of a drive-wide
feature, and Drydown Control) are held behind those held before, and nothing else changes. While a Sanitize is in progress the owner's
commands of R99's list complete with Sanitize In Progress, and during recovery those of every port with Command Sequence Error. -/
def Obligations.DriveCommandsAreHeldOrRefused : Prop :=
  (∀ (c : Instr) (a : AdminId) (s : State), heldByHandover c = true → adminOf c = some a → AdminOpen s a →
    s.own.phase = .handover →
    exec c s = .next (s.onPort a.port fun p => { p with heldAdmin := p.heldAdmin ++ [c] })) ∧
  ((∀ (c : Instr) (a : AdminId) (s : State), changesDrive c = true → adminOf c = some a → AdminOpen s a →
    s.own.phase ≠ .handover → s.own.owner = a.port → s.sec.sanitize ≠ .none →
    exec c s = .next (adminDone s a .sanitizeInProgress)) ∧
  (∀ (c : Instr) (a : AdminId) (s : State), changesDrive c = true → adminOf c = some a → adminLive s a.port = true →
    s.fh.latch = false → s.run = .recovery →
    exec c s = .next (adminDone s a .commandSequenceError)))

/-- R67, R78, R161: the four queue commands. A queue with a free number from 1 to 128 is created with 2 to 4,096 entries and completes, a
submission queue on a completion queue that exists. A completion queue that no submission queue uses is deleted. Deleting a submission queue
takes its outstanding commands out of the port first, ends each in turn, and then removes the queue and completes: a read or other
command that changes no map ends with Command Aborted due to SQ Deletion; a write that is Protected, or whose data is wholly in flacons,
with Success and its number; any other write with Command Aborted due to SQ Deletion, its number retired. -/
def Obligations.QueueCommandsComplete : Prop :=
  (∀ (a : AdminId) (qid size vector : Nat) (s : State), AdminOpen s a → 1 ≤ qid → qid ≤ 128 →
    (∀ q ∈ (s.port a.port).cqs, q.id ≠ qid) → 2 ≤ size → size ≤ 4096 → vector < 130 →
    exec (.createIoCq a qid size vector) s =
      .next (adminDone (s.onPort a.port fun p => { p with cqs := p.cqs ++ [{ id := qid, size := size, vector := vector }] }) a .success)) ∧
  (∀ (a : AdminId) (qid size cqid prio : Nat) (s : State), AdminOpen s a → 1 ≤ qid → qid ≤ 128 →
    (∀ q ∈ (s.port a.port).sqs, q.id ≠ qid) → 2 ≤ size → size ≤ 4096 → (∃ q ∈ (s.port a.port).cqs, q.id = cqid) →
    exec (.createIoSq a qid size cqid prio) s =
      .next (adminDone (s.onPort a.port fun p => { p with
        sqs := p.sqs ++ [{ id := qid, size := size, cqid := cqid, prio := prio }] }) a .success)) ∧
  (∀ (a : AdminId) (qid : Nat) (s : State), AdminOpen s a → (∃ q ∈ (s.port a.port).cqs, q.id = qid) →
    (∀ q ∈ (s.port a.port).sqs, q.cqid ≠ qid) →
    exec (.deleteIoCq a qid) s =
      .next (adminDone (s.onPort a.port fun p => { p with cqs := p.cqs.filter fun q => q.id ≠ qid }) a .success)) ∧
  (∀ (a : AdminId) (qid : Nat) (s : State), AdminOpen s a → (∃ q ∈ (s.port a.port).sqs, q.id = qid) →
    let mine := (s.port a.port).cmds.filter fun c => decide (c.sq = qid)
    let u := s.onPort a.port fun p => { p with cmds := p.cmds.filter fun c => !decide (c.sq = qid) }
    exec (.deleteIoSq a qid) s =
      .next (adminDone ((mine.foldl endOfDeleted u).onPort a.port fun p => { p with sqs := p.sqs.filter fun q => q.id ≠ qid }) a .success)) ∧
  (∀ (c : OutCmd) (s : State),
    (isWriteOp c.entry.op = false → endOfDeleted s c = ioEnd (abandonRead s c) c .abortedSqDeletion) ∧
    (isWriteOp c.entry.op = true → (c.prot = true ∨ whollyIn s c = true) → endOfDeleted s c = advanceHorizon
      (ioDone (holdData s c) c.port c.sq c.entry.cid .success (BitVec.ofNat 32 (c.seq.getD 0)))) ∧
    (isWriteOp c.entry.op = true → c.prot = false → whollyIn s c = false →
      endOfDeleted s c = ioDone (discardWrite s c) c.port c.sq c.entry.cid .abortedSqDeletion))

/-- R155 to R158, R355, R645, R78: an Abort of a command that is not outstanding on its port answers 1 in DW0 and catches nothing. One of a
catchable command discards it, posts its completion, Command Abort Requested, and then answers 0; one of any other command answers 1. A
write is catchable while it is not Protected and none of its flacons is committed, a Verify always, a Read until its transfer to the host has
begun (which the model leaves to a free value, log entry 75), and no other command. An Asynchronous Event Request is held when no notice is
kept, answered by the first kept notice, and refused beyond eight; Keep Alive completes. -/
def Obligations.AbortEventAndKeepAlive : Prop :=
  (∀ (a : AdminId) (sqid tcid : Nat) (s : State), AdminOpen s a → findCmd s a.port sqid tcid = none →
    exec (.abort a sqid tcid) s = .next (adminDone s a .success 1)) ∧
  (∀ (a : AdminId) (sqid tcid : Nat) (c : OutCmd) (s : State), AdminOpen s a → findCmd s a.port sqid tcid = some c →
    let t := { s with freeCtr := s.freeCtr + 1 }
    (catchable s c = true → isWriteOp c.entry.op = true →
      exec (.abort a sqid tcid) s = .next (adminDone (failWrite t c .abortRequested) a .success 0)) ∧
    (catchable s c = true → isWriteOp c.entry.op = false → exec (.abort a sqid tcid) s =
      .next (adminDone (ioDone (abandonRead t c) c.port c.sq c.entry.cid .abortRequested) a .success 0)) ∧
    (catchable s c = false → exec (.abort a sqid tcid) s = .next (adminDone t a .success 1))) ∧
  (∀ (c : OutCmd) (s : State),
    (∀ a k fua d, c.entry.op = .write a k fua d → (catchable s c = true ↔ c.prot = false ∧ ∀ e ∈ s.path.flacons, ∀ x ∈ e.2.subs,
      x.writer = some (c.port, c.sq, c.entry.cid) → x.comm = false)) ∧
    (∀ a k, c.entry.op = .verify a k → catchable s c = true) ∧
    (∀ a k, c.entry.op = .read a k → catchable s c = !transferBegun s c) ∧
    ((∀ a k fua d, c.entry.op ≠ .write a k fua d) → (∀ a k, c.entry.op ≠ .verify a k) → (∀ a k, c.entry.op ≠ .read a k) →
      catchable s c = false)) ∧
  (∀ (a : AdminId) (s : State), AdminOpen s a → (s.port a.port).aers.length < 8 → (s.port a.port).kept = [] →
    exec (.asynchronousEventRequest a) s = .next (s.onPort a.port fun p => { p with aers := p.aers ++ [a.cid] })) ∧
  (∀ (a : AdminId) (page : Nat) (r : List Nat) (s : State), AdminOpen s a → (s.port a.port).aers = [] →
    (s.port a.port).kept = page :: r → NoQueueZero s a.port →
    exec (.asynchronousEventRequest a) s = .next (s.onPort a.port fun p => { p with
      kept := r
      cqes := p.cqes ++ [{ sq := 0, cid := a.cid, status := .success, dnr := false, dw0 := noticeDw0 page, dw1 := 0 }] })) ∧
  (∀ (a : AdminId) (s : State), AdminOpen s a → 8 ≤ (s.port a.port).aers.length →
    exec (.asynchronousEventRequest a) s = .next (adminDone s a .aerLimitExceeded)) ∧
  (∀ (a : AdminId) (s : State), AdminOpen s a → exec (.keepAlive a) s = .next (adminDone s a .success))

/-- R67, R78, R79, R84, R94, R95, R99, R352, R484, R619: each Set Features sets the value that its feature names and completes; one whose
feature has a row of its own acts as that row, TMT1 not below TMT2 and a power state beyond 4 complete with Invalid Field in Command, FDP
with Command Sequence Error while a namespace exists, Number of Queues sets its value while the port has no I/O queue, and a feature
that is not supported completes with Invalid Field in Command. The feature identifiers are the base specification's (log entry 3). -/
def Obligations.SetFeaturesSets : Prop :=
  (∀ (a : AdminId) (on : Bool) (s : State), OwnerOpen s a →
    exec (.setFeaturesVwc a on) s = .next (adminDone (s.onPath fun p => { p with vwcOff := !on }) a .success)) ∧
  (∀ (a : AdminId) (t1 t2 : Nat) (s : State), OwnerOpen s a →
    ((t1 = 0 ∨ t2 = 0 ∨ t1 < t2) →
      exec (.setFeaturesHctm a t1 t2) s = .next (adminDone (s.onHk fun h => { h with tmt1 := t1, tmt2 := t2 }) a .success)) ∧
    (t1 ≠ 0 → t2 ≠ 0 → t2 ≤ t1 → exec (.setFeaturesHctm a t1 t2) s = .next (adminDone s a .invalidField))) ∧
  (∀ (a : AdminId) (ms : Nat) (s : State), OwnerOpen s a →
    exec (.setFeaturesTimestamp a ms) s =
      .next (adminDone (s.onPath fun p => { p with timestamp := ms, timestampAt := some s.now }) a .success)) ∧
  (∀ (a : AdminId) (on : Bool) (s : State), OwnerOpen s a →
    (s.path.spaces = [] → exec (.setFeaturesFdp a on) s =
      .next (adminDone (putAnchor (s.onPath fun p => { p with fdp := on }) fun x => { x with fdp := on }) a .success)) ∧
    (s.path.spaces ≠ [] → exec (.setFeaturesFdp a on) s = .next (adminDone s a .commandSequenceError))) ∧
  (∀ (a : AdminId) (v : BitVec 32) (s : State), AdminOpen s a →
    exec (.setFeaturesAsyncEvent a v) s = .next (adminDone (s.onPort a.port fun p => { p with asyncCfg := v }) a .success)) ∧
  (∀ (a : AdminId) (ps : Nat) (s : State), AdminOpen s a →
    (ps < 5 → exec (.setFeaturesPowerManagement a ps) s = .next (adminDone (takePs (s.onPort a.port fun p => { p with
      selPs := ps, lastOpPs := if ps < 3 then ps else p.lastOpPs })) a .success)) ∧
    (5 ≤ ps → exec (.setFeaturesPowerManagement a ps) s = .next (adminDone s a .invalidField))) ∧
  (∀ (a : AdminId) (v : Nat) (s : State), AdminOpen s a →
    exec (.setFeatures a 0x02 v) s = exec (.setFeaturesPowerManagement a (v % 32)) s ∧
    exec (.setFeatures a 0x0B v) s = exec (.setFeaturesAsyncEvent a (BitVec.ofNat 32 v)) s ∧
    ((s.port a.port).sqs = [] → (s.port a.port).cqs = [] → v % 65536 ≠ 65535 → v / 65536 ≠ 65535 → exec (.setFeatures a 0x07 v) s =
      .next (adminDone (s.onPort a.port fun p => { p with features := tput 0 p.features 7 v }) a .success 0x007F007F)) ∧
    (∀ fid, ownFeature fid = true → fid ≠ 7 → exec (.setFeatures a fid v) s =
      .next (adminDone (s.onPort a.port fun p => { p with features := tput 0 p.features fid v }) a .success))) ∧
  (∀ (a : AdminId) (v : Nat) (s : State), OwnerOpen s a →
    exec (.setFeatures a 0x06 v) s = exec (.setFeaturesVwc a (decide (v % 2 = 1))) s ∧
    exec (.setFeatures a 0x0E v) s = exec (.setFeaturesTimestamp a v) s ∧
    exec (.setFeatures a 0x10 v) s = exec (.setFeaturesHctm a (v / 65536) (v % 65536)) s ∧
    exec (.setFeatures a 0x1D v) s = exec (.setFeaturesFdp a (decide (v % 2 = 1))) s ∧
    (∀ fid, driveFeature fid = true → exec (.setFeatures a fid v) s =
      .next (adminDone (s.onMisc fun m => { m with features := tput 0 m.features fid v }) a .success)) ∧
    (∀ fid, ownFeature fid = false → driveFeature fid = false → fid ∉ [0x02, 0x06, 0x0B, 0x0E, 0x10, 0x1D] →
      exec (.setFeatures a fid v) s = .next (adminDone s a .invalidField)))

/-- R67, R78, R79, R84, R94, R352, R484, R573, R619: Identify returns the data or the status that the data structure it names has. Get
Features answers the feature's value in DW0, for the Timestamp 0 with the time as data, and Invalid Field in Command for a feature that the
controller does not have. The identifiers and the places of the values are the base specification's (log entry 3). -/
def Obligations.ReportsAnswer : Prop :=
  (∀ (a : AdminId) (cns nsid : Nat) (s : State), AdminOpen s a →
    (∀ bs, identifyAnswer s a.port cns nsid = .inl bs →
      exec (.identify a cns nsid) s = .next (adminDone (answerData s a.port bs) a .success)) ∧
    (∀ st, identifyAnswer s a.port cns nsid = .inr st → exec (.identify a cns nsid) s = .next (adminDone s a st))) ∧
  (∀ (a : AdminId) (fid : Nat) (s : State), AdminOpen s a →
    (featureDw0 s a.port fid = none → exec (.getFeatures a fid) s = .next (adminDone s a .invalidField)) ∧
    (∀ d, featureDw0 s a.port fid = some d → fid ≠ 0x0E → exec (.getFeatures a fid) s = .next (adminDone s a .success d))) ∧
  (∀ (a : AdminId) (s : State), AdminOpen s a →
    exec (.getFeatures a 0x0E) s = .next (adminDone (answerData s a.port (leBytes 8 (hostStamp s))) a .success 0) ∧
    featureDw0 s a.port 0x02 = some (BitVec.ofNat 32 (s.port a.port).selPs) ∧
    featureDw0 s a.port 0x06 = some (if s.path.vwcOff then 0 else 1) ∧
    featureDw0 s a.port 0x07 = some 0x007F007F ∧
    featureDw0 s a.port 0x0B = some (s.port a.port).asyncCfg ∧
    featureDw0 s a.port 0x10 = some (BitVec.ofNat 32 (s.hk.tmt1 * 65536 + s.hk.tmt2)) ∧
    featureDw0 s a.port 0x1D = some (if s.path.fdp then 1 else 0) ∧
    (∀ fid, ownFeature fid = true → fid ≠ 7 → featureDw0 s a.port fid = some (BitVec.ofNat 32 (tget 0 (s.port a.port).features fid))))

/-- R604 to R613: outside the boot ROM, for an offset that is a multiple of 4, each vendor log page but C5h answers its page from the offset
asked for, beyond its end with zeros, whether by the page's own row or by Get Log Page; the wait of R355 for the page ends unless Retain
Asynchronous Event is set. A read of C5h that starts at offset 0 or goes on where the port's previous read of the same cursor ended does so
too and moves the resume offset; one from any other offset, and one of any page from an offset that is no multiple of 4, completes with Invalid
Field in Command. A page that the controller does not have completes with Invalid Log Page. -/
def Obligations.LogPagesAnswer : Prop :=
  (∀ (a : AdminId) (r : LogReq) (s : State), AdminOpen s a → s.boot.romServes = false → r.offset % 4 = 0 →
    let reply := fun (lid : Nat) (page : List Byte) =>
      endPageWait (adminDone (answerData s a.port ((((page.drop r.offset).take r.len) ++ List.replicate r.len 0).take r.len))
        a .success) a.port lid r
    exec (.getLogPageExtendedHealth a r) s = .next (reply 0xC0 (extendedHealth s)) ∧
    exec (.getLogPageLostIu a r) s = .next (reply 0xC1 (lostPage s)) ∧
    exec (.getLogPageSealHorizon a r) s = .next (reply 0xC2 (horizonPage s)) ∧
    exec (.getLogPageFaultHistory a r) s = .next (reply 0xC3 (faultPage s)) ∧
    exec (.getLogPageThermalHistory a r) s = .next (reply 0xC4 (thermalPage s)) ∧
    exec (.getLogPageAccordStatus a r) s = .next (reply 0xC6 (accordPage s)) ∧
    exec (.getLogPage a 0xC0 r) s = exec (.getLogPageExtendedHealth a r) s ∧ exec (.getLogPage a 0xC1 r) s = exec (.getLogPageLostIu a r) s ∧
    exec (.getLogPage a 0xC2 r) s = exec (.getLogPageSealHorizon a r) s ∧ exec (.getLogPage a 0xC3 r) s = exec (.getLogPageFaultHistory a r) s ∧
    exec (.getLogPage a 0xC4 r) s = exec (.getLogPageThermalHistory a r) s ∧
    exec (.getLogPage a 0xC5 r) s = exec (.getLogPageDrydownCursor a r) s ∧
    exec (.getLogPage a 0xC6 r) s = exec (.getLogPageAccordStatus a r) s ∧
    (∀ lid, vendorPage s lid = none → stdPieces s a.port lid = none →
      exec (.getLogPage a lid r) s = .next (adminDone s a .invalidLogPage)) ∧
    ((r.offset = 0 ∨ (r.offset = (s.port a.port).c5Resume ∧ (s.port a.port).c5Gen = s.upkeep.cursorGen)) →
      exec (.getLogPageDrydownCursor a r) s = .next (endPageWait ((adminDone (answerData s a.port
        ((((cursorPage s).drop r.offset).take r.len ++ List.replicate r.len 0).take r.len)) a .success).onPort a.port fun p => { p with
          c5Resume := r.offset + r.len, c5Gen := s.upkeep.cursorGen }) a.port 0xC5 r)) ∧
    (r.offset ≠ 0 → (r.offset ≠ (s.port a.port).c5Resume ∨ (s.port a.port).c5Gen ≠ s.upkeep.cursorGen) →
      exec (.getLogPageDrydownCursor a r) s = .next (adminDone s a .invalidField))) ∧
  (∀ (a : AdminId) (r : LogReq) (s : State), AdminOpen s a → s.boot.romServes = false → r.offset % 4 ≠ 0 →
    exec (.getLogPageDrydownCursor a r) s = .next (adminDone s a .invalidField) ∧
    (∀ lid, exec (.getLogPage a lid r) s = .next (adminDone s a .invalidField)))

/-! ### Firmware, namespaces, Sanitize -/

/-- R597 to R600, R602: Firmware Image Download places its data in the download buffer, marks the 4 KiB granules it fills, and completes; with an
offset that is not a multiple of 4 KiB, or beyond 4 MiB, it completes with Invalid Field in Command; while a commit or an activation runs it and
every Firmware Commit complete with Command Sequence Error. A Firmware Commit to the inactive copy whose image passes step 1 begins by erasing
the selection record of that copy, and posts no completion yet; one whose image fails completes with Invalid Firmware Image, and the buffer is
cleared unless the action is 2. A slot beyond 2 completes with Invalid Firmware Slot, and so does the copy in use, but for action 2, which then
completes and changes nothing. -/
def Obligations.DownloadAndCommitBegin : Prop :=
  ((∀ (a : AdminId) (fs : Nat) (s : State), OwnerOpen s a → s.commit = none → s.activation = none →
    (fs = 0 ∨ (fs ≤ 2 ∧ fs ≠ s.copyInUse)) →
    let began := fun (action : Nat) => { eraseRecord s (3 - s.copyInUse) with
      commit := some { port := a.port, cid := some a.cid, action := action, target := 3 - s.copyInUse, step := 2
                       serialAtT0 := max (effSerial s 1) (effSerial s 2) } }
    let failed := fun (t : State) => adminDone t a .invalidFirmwareImage
    let clear := { s with dlBuf := [], dlGranules := [] }
    exec (.firmwareCommit0 a fs) s = .next (if commitOk s 0 (3 - s.copyInUse) then began 0 else failed clear) ∧
    exec (.firmwareCommit1 a fs) s = .next (if commitOk s 1 (3 - s.copyInUse) then began 1 else failed clear) ∧
    exec (.firmwareCommit2 a fs) s = .next (if commitOk s 2 (3 - s.copyInUse) then began 2 else failed s) ∧
    exec (.firmwareCommit3 a fs) s = .next (if commitOk s 3 (3 - s.copyInUse) then began 3 else failed clear)) ∧
  (∀ (a : AdminId) (fs : Nat) (s : State), OwnerOpen s a → s.commit = none → s.activation = none →
    (2 < fs ∨ (fs ≠ 0 ∧ fs = s.copyInUse)) →
    exec (.firmwareCommit0 a fs) s = .next (adminDone s a .invalidFirmwareSlot) ∧
    exec (.firmwareCommit1 a fs) s = .next (adminDone s a .invalidFirmwareSlot) ∧
    exec (.firmwareCommit2 a fs) s = .next (adminDone s a (if 2 < fs then .invalidFirmwareSlot else .success)) ∧
    exec (.firmwareCommit3 a fs) s = .next (adminDone s a .invalidFirmwareSlot)) ∧
  (∀ (a : AdminId) (fs : Nat) (s : State), OwnerOpen s a → (s.commit.isSome = true ∨ s.activation.isSome = true) →
    exec (.firmwareCommit0 a fs) s = .next (adminDone s a .commandSequenceError) ∧
    exec (.firmwareCommit1 a fs) s = .next (adminDone s a .commandSequenceError) ∧
    exec (.firmwareCommit2 a fs) s = .next (adminDone s a .commandSequenceError) ∧
    exec (.firmwareCommit3 a fs) s = .next (adminDone s a .commandSequenceError))) ∧
  ((∀ (a : AdminId) (offset : Nat) (data : List (BitVec 8)) (s : State), OwnerOpen s a → s.commit = none → s.activation = none →
    (offset % 4096 = 0 → offset + data.length ≤ 4194304 →
      ∃ gs, exec (.firmwareImageDownload a offset data) s =
        .next (adminDone { s with dlBuf := memWrite 0 s.dlBuf offset data, dlGranules := gs } a .success) ∧
        (∀ g, g ∈ gs ↔ g ∈ s.dlGranules ∨ (offset / 4096 ≤ g ∧ g < offset / 4096 + ceilDiv data.length 4096))) ∧
    ((offset % 4096 ≠ 0 ∨ 4194304 < offset + data.length) →
      exec (.firmwareImageDownload a offset data) s = .next (adminDone s a .invalidField))) ∧
  (∀ (a : AdminId) (offset : Nat) (data : List (BitVec 8)) (s : State), OwnerOpen s a →
    (s.commit.isSome = true ∨ s.activation.isSome = true) →
    exec (.firmwareImageDownload a offset data) s = .next (adminDone s a .commandSequenceError)))

/-- R600 to R602, R163, R164: while the controller issues SPI commands, the steps of a commit follow each other: record erased (and with action 2
step 5 next), region erased, image written from the buffer, compared, record written, with serial 0 for action 0 and one above the highest
otherwise. The commit then completes, but for action 3, which starts an activation on both ports where only the microcode and the fr field
differ, and completes with its own status where more differs. A step that exceeds its time, or a read-back that differs in step 4, ends the
commit with Internal Error and the record erased. An activation takes the new microcode and copy, where its image authenticates, once every
fetched command of both ports has completed within 50 ms; after 50 ms without that it ends on the old microcode. -/
def Obligations.CommitStepsAndActivates : Prop :=
  (∀ (c : Commit) (s : State), s.commit = some c → spiRuns s = true →
    let written := fun (serial : Nat) => { s with spi := memWrite 0xFF s.spi (recordBase c.target) (selRecord serial) }
    (c.step = 2 → c.action ≠ 2 → exec (.commitSpiStepEnd .done) s = .next { s with
      spi := memErase s.spi (copyBase c.target) (imageSize (bufReader s)), commit := some { c with step := 3 } }) ∧
    (c.step = 2 → c.action = 2 → exec (.commitSpiStepEnd .done) s = .next { s with commit := some { c with step := 5 } }) ∧
    (c.step = 3 → exec (.commitSpiStepEnd .done) s = .next { s with
      spi := memWrite 0xFF s.spi (copyBase c.target) (bufReader s 0 (imageSize (bufReader s))), commit := some { c with step := 4 } }) ∧
    (c.step = 4 → exec (.commitSpiStepEnd .done) s = .next { s with commit := some { c with step := 5 } }) ∧
    (c.step = 5 → c.action = 0 → exec (.commitSpiStepEnd .done) s = .next (endCommit (written 0) c .success)) ∧
    (c.step = 5 → (c.action = 1 ∨ c.action = 2) →
      exec (.commitSpiStepEnd .done) s = .next (endCommit (written (c.serialAtT0 + 1)) c .success)) ∧
    (c.step = 5 → c.action = 3 → let w := written (c.serialAtT0 + 1)
      exec (.commitSpiStepEnd .done) s = .next (
        if sameSections (spiReader w c.target) (spiReader w w.copyInUse) then
          { { w with commit := none, dlBuf := [], dlGranules := [] }.onBoth (fun p => { p with fetching := false }) with
            activation := some { port := c.port, cid := c.cid, copy := c.target, since := s.now } }
        else endCommit w c .fwNeedsSubsystemReset)) ∧
    (exec (.commitSpiStepEnd .exceeded) s = .next (endCommit (eraseRecord s c.target) c .internalError)) ∧
    (c.step = 4 → exec (.commitSpiStepEnd .mismatch) s = .next (endCommit (eraseRecord s c.target) c .internalError)) ∧
    (c.step ≠ 4 → exec (.commitSpiStepEnd .mismatch) s = .next s)) ∧
  (∀ (x : Activation) (s : State), s.activation = some x → s.run = .running →
    let all := s.portA.cmds = [] ∧ s.portB.cmds = [] ∧ s.upkeep.idleSince ≤ x.since + 50000
    (all → ∃ t, exec .activationDrainEnd s = .next t ∧ t.activation = none ∧ t.image.policy = s.image.policy ∧
      (t.copyInUse, t.ucodeVersion) = (if checkVendor s (spiReader s x.copy) = none
        then (x.copy, (parseImage (spiReader s x.copy)).ucodeVersion) else (s.copyInUse, s.ucodeVersion))) ∧
    (¬all → exec .activationDrainEnd s = .next s) ∧
    (x.since + 50000 ≤ s.now → ¬all →
      ∃ t, exec .activationTimeout s = .next t ∧ t.activation = none ∧ t.copyInUse = s.copyInUse ∧ t.ucodeVersion = s.ucodeVersion) ∧
    ((s.now < x.since + 50000 ∨ all) → exec .activationTimeout s = .next s))

/-- R177, R628, R630, R645: Namespace Management create, for a size that is not 0, one of the two formats and handles that exist, each once,
takes the lowest free identifier and the lowest free segments, draws a key that nothing constrains, starts unattached with its map cleared,
writes the key store, and answers the identifier in DW0; without a free identifier, or without the segments, it completes with the status of
R645 and changes nothing. -/
def Obligations.NamespaceCreateCompletes : Prop :=
  ∀ (a : AdminId) (nsze flbas : Nat) (handles : List Nat) (s : State), OwnerOpen s a →
    flbas ≤ 1 → 0 < nsze → (∀ h ∈ handles, h < s.policy.fdpRuhCount) → handles.Nodup →
    let free := (List.range 33).filter fun i => decide (0 < i) && (findNs s i).isNone
    (∀ nsid ids, free = nsid :: ids → segsFor nsze flbas ≤ (freeSegs s).length →
      let n : Namespace := { nsid := nsid, nsze := nsze, flbas := flbas, segs := (freeSegs s).take (segsFor nsze flbas)
                             handles := if handles.isEmpty then List.range s.policy.fdpRuhCount else handles
                             attached := false, key := Config.freeKey s.freeCtr }
      exec (.namespaceCreate a nsze flbas handles) s =
        .next (adminDone (writeKeyStore (clearNs ({ s with freeCtr := s.freeCtr + 1 }.onPath fun p => { p with
          spaces := p.spaces ++ [n] }) n)) a .success (BitVec.ofNat 32 nsid))) ∧
    (free = [] → exec (.namespaceCreate a nsze flbas handles) s = .next (adminDone s a .nsIdUnavailable)) ∧
    (free ≠ [] → (freeSegs s).length < segsFor nsze flbas →
      exec (.namespaceCreate a nsze flbas handles) s = .next (adminDone s a .nsInsufficientCapacity))

/-- R78, R179, R633: a namespace that exists is attached to or detached from every controller together, where the list names them all and
no other, and is not so already; deleting one clears its map, removes it and writes the key store; formatting one, without Secure Erase or with
one of its two settings, formats it alone, and with a Secure Erase writes the key store. FFFFFFFFh names every namespace for delete and
format. A format or a setting that does not exist is refused. -/
def Obligations.NamespaceCommandsComplete : Prop :=
  (∀ (a : AdminId) (nsid : Nat) (n : Namespace) (s : State), OwnerOpen s a → findNs s nsid = some n →
    (∀ ctrls, everyCtrl s ctrls = true →
      exec (.namespaceAttach a nsid ctrls) s = .next (if n.attached then adminDone s a .nsAlreadyAttached
        else adminDone (modNs s nsid fun x => { x with attached := true }) a .success) ∧
      exec (.namespaceDetach a nsid ctrls) s = .next (if n.attached then
        adminDone (modNs s nsid fun x => { x with attached := false }) a .success else adminDone s a .nsNotAttached)) ∧
    (∀ ctrls, everyCtrl s ctrls = false →
      exec (.namespaceAttach a nsid ctrls) s = .next (adminDone s a .controllerListInvalid) ∧
      exec (.namespaceDetach a nsid ctrls) s = .next (adminDone s a .controllerListInvalid)) ∧
    (nsid ≠ 0xFFFFFFFF → exec (.namespaceDelete a nsid) s = .next (adminDone (writeKeyStore (removeNs s n)) a .success) ∧
      (∀ lbaf, lbaf ≤ 1 → exec (.formatNvm a nsid 0 lbaf) s = .next (adminDone (formatOne 0 lbaf s n) a .success)) ∧
      (∀ ses lbaf, (ses = 1 ∨ ses = 2) → lbaf ≤ 1 →
        exec (.formatNvm a nsid ses lbaf) s = .next (adminDone (writeKeyStore (formatOne ses lbaf s n)) a .success)))) ∧
  (∀ (a : AdminId) (s : State), OwnerOpen s a → s.path.spaces ≠ [] →
    exec (.namespaceDelete a 0xFFFFFFFF) s = .next (adminDone (writeKeyStore (s.path.spaces.foldl removeNs s)) a .success) ∧
    (∀ lbaf, lbaf ≤ 1 →
      exec (.formatNvm a 0xFFFFFFFF 0 lbaf) s = .next (adminDone (s.path.spaces.foldl (formatOne 0 lbaf) s) a .success)) ∧
    (∀ ses lbaf, (ses = 1 ∨ ses = 2) → lbaf ≤ 1 → exec (.formatNvm a 0xFFFFFFFF ses lbaf) s =
      .next (adminDone (writeKeyStore (s.path.spaces.foldl (formatOne ses lbaf) s)) a .success))) ∧
  (∀ (a : AdminId) (nsid ses lbaf : Nat) (s : State), OwnerOpen s a →
    (2 < ses → exec (.formatNvm a nsid ses lbaf) s = .next (adminDone s a .invalidField)) ∧
    (ses ≤ 2 → 1 < lbaf → exec (.formatNvm a nsid ses lbaf) s = .next (adminDone s a .invalidFormat)))

/-- R634: a Sanitize completes at t0, discards the staged writes, ends DRYDOWN, writes its state to the key store, and draws new keys and
clears the map (step 3). The end of step 3 ends a crypto erase, and takes a block erase to step 4, with every die reset; the end of step 4,
which has erased every block that R634 names, ends it with no super-block but the journal's. At the end the key store is written with the state
none. -/
def Obligations.SanitizeRuns : Prop :=
  (∀ (a : AdminId) (s : State), OwnerOpen s a →
    let u := discardStaging (adminDone s a .success)
    let v := if u.mediaMode = 2 then endDrydown u else u
    exec (.sanitizeCryptoErase a) s = .next (trimAll (writeKeyStore (v.onSec fun x => { x with sanitize := .crypto, sanStep := 3 }))) ∧
    exec (.sanitizeBlockErase a) s = .next (trimAll (writeKeyStore (v.onSec fun x => { x with sanitize := .block, sanStep := 3 })))) ∧
  (∀ s : State,
    (s.sec.sanStep = 3 → s.sec.sanitize ≠ .block → exec .sanitizeTrimEnd s =
      .next (writeKeyStore (s.onSec fun x => { x with sanitize := .none, sanStep := 0, sanRerun := false }))) ∧
    (s.sec.sanStep = 3 → s.sec.sanitize = .block →
      exec .sanitizeTrimEnd s = .next ((resetDies s).onSec fun x => { x with sanStep := 4 })) ∧
    (s.sec.sanStep ≠ 3 → exec .sanitizeTrimEnd s = .next s) ∧
    (s.sec.sanStep = 4 →
      let w := ((allDies s).filter fun d => !dieLost s d).foldl (fun s d => (wiped s d).foldl (wipeBlock d) s) s
      ∃ v, exec .sanitizeEraseEnd s =
          .next (writeKeyStore ((advanceHorizon v).onSec fun x => { x with sanitize := .none, sanStep := 0, sanRerun := false })) ∧
        v.media.blocks = w.media.blocks ∧ v.media.pages = w.media.pages ∧ v.path.flacons = [] ∧ v.path.copies = [] ∧
        v.media.sbs = w.media.sbs.filter fun b => decide (b.use = .journal)) ∧
    (s.sec.sanStep ≠ 4 → exec .sanitizeEraseEnd s = .next s))

/-- R78, R86: the short Device Self-test is counted and completes, an abort finds nothing to abort and completes, and any other test is
refused. The Identify directive is the only one: its parameters are 4,096 bytes, and byte 32 says whether Data Placement is supported and
enabled (the place of those bits is the base specification's, log entry 3). -/
def Obligations.SelfTestAndDirectives : Prop :=
  (∀ (a : AdminId) (s : State), OwnerOpen s a →
    exec (.deviceSelfTest a 1) s = .next (adminDone (s.onMisc fun m => { m with selfTests := m.selfTests + 1 }) a .success) ∧
    exec (.deviceSelfTest a 0xF) s = .next (adminDone s a .success) ∧
    (∀ stc, stc ≠ 1 → stc ≠ 0xF → exec (.deviceSelfTest a stc) s = .next (adminDone s a .invalidField))) ∧
  (∀ (a : AdminId) (s : State), AdminOpen s a →
    exec (.directiveSend a 0) s = .next (adminDone s a .success) ∧
    (∀ d, d ≠ 0 → exec (.directiveSend a d) s = .next (adminDone s a .invalidField)) ∧
    (∃ bs, exec (.directiveReceive a 0) s = .next (adminDone (answerData s a.port bs) a .success) ∧
      bs.length = 4096 ∧ bs[32]? = some (if s.path.fdp then 5 else 1)) ∧
    (∀ d, d ≠ 0 → exec (.directiveReceive a d) s = .next (adminDone s a .invalidField)))

/-! ### Ownership, Drydown Control, Diagnostic Unlock, JTAG -/

/-- R106, R109 to R112, R115, R116: a Claim whose token is new, by the phase, the owner and Force. From the owner it answers the generation, and
RELEASED returns to HELD. From the other port it is refused in HANDOVER; with Force it is refused while Force is locked, starts a handover for
the right key, and is counted and refused for a wrong one; without Force it starts a handover in RELEASED or LAPSED and is refused in HELD or
LINK_DOWN. DW0 of a refusal is as R112 has it. A Release from the owner moves HELD to RELEASED, but changes no phase in single x4 mode, and
answers the generation; from the other port it completes with Ownership Not Held. A reserved field that is not 0 is Invalid Field in Command.
Of two commands that arrive together the port named by own_tie is taken first, and the tie is counted and fires source 20 of the cores. -/
def Obligations.ClaimAndRelease : Prop :=
  (∀ (a : AdminId) (token : Nat) (force bad : Bool) (key : BitVec 256) (s : State), AdminOpen s a →
    let q := vendorReq token 0xC0 (b2n force) 0 bad (if force then leBytes 32 key.toNat else [])
    let run := exec (.ownershipClaim a token force key bad none) s
    let refused := fun (t : State) => vendorEnd t a q .takeoverRefused (refusedDw0 t)
    claimRepeats s a.port q = false → tokenLook (s.port a.port) token 0xC0 q.print = .fresh →
    (bad = true → run = .next (vendorEnd s a q .invalidField)) ∧
    (bad = false → s.own.owner = a.port → s.own.phase ≠ .released → run = .next (vendorEnd s a q .success s.own.generation)) ∧
    (bad = false → s.own.owner = a.port → s.own.phase = .released →
      run = .next (vendorEnd (s.onOwn fun o => { o with phase := .held }) a q .success s.own.generation)) ∧
    (bad = false → s.own.owner ≠ a.port → s.own.phase = .handover → run = .next (refused s)) ∧
    (bad = false → s.own.owner ≠ a.port → s.own.phase ≠ .handover → force = true →
      (forceLocked s a.port = true → run = .next (refused s)) ∧
      (forceLocked s a.port = false → keyHashOk s key = true →
        run = .next (startHandover (s.onPort a.port fun p => { p with forceFails := 0, forceLock := none }) a q)) ∧
      (forceLocked s a.port = false → keyHashOk s key = false → run = .next (refused (countForceFail s a.port)))) ∧
    (bad = false → s.own.owner ≠ a.port → force = false →
      ((s.own.phase = .released ∨ s.own.phase = .lapsed) → run = .next (startHandover s a q)) ∧
      ((s.own.phase = .held ∨ s.own.phase = .linkDown) → run = .next (refused s)))) ∧
  (∀ (s : State), (s.own.phase = .held → refusedDw0 s = 0xFFFFFFFF) ∧ (s.own.phase = .handover → refusedDw0 s = 0xFFFFFFFE) ∧
    (s.own.phase = .linkDown → refusedDw0 s = BitVec.ofNat 32 (max 1 (s.policy.takeoverHold - downMs s))) ∧
    ((s.own.phase = .released ∨ s.own.phase = .lapsed) → refusedDw0 s = 0)) ∧
  (∀ (a : AdminId) (token : Nat) (bad : Bool) (s : State), AdminOpen s a →
    let r := vendorReq token 0xC1 0 0 bad []
    let run := exec (.ownershipRelease a token bad none) s
    tokenLook (s.port a.port) token 0xC1 r.print = .fresh →
    (bad = true → run = .next (vendorEnd s a r .invalidField)) ∧
    (bad = false → s.own.owner ≠ a.port → run = .next (vendorEnd s a r .ownershipNotHeld)) ∧
    (bad = false → s.own.owner = a.port → s.own.phase = .held → s.boot.strapPort = true →
      run = .next (vendorEnd (s.onOwn fun o => { o with phase := .released }) a r .success s.own.generation)) ∧
    (bad = false → s.own.owner = a.port → (s.own.phase ≠ .held ∨ s.boot.strapPort = false) →
      run = .next (vendorEnd s a r .success s.own.generation))) ∧
  (∀ (c : Instr) (a : AdminId) (x o : OwnCmd) (s : State), adminOf c = some a → asOwn c = some x → tieOf c = some o →
    adminLive s a.port = true → adminLive s a.port.other = true → s.fh.latch = false → a.ptr = .prp →
    let v := fire (s.onOwn fun w => { w with
      tieCount := satAdd 65535 w.tieCount 1, lastWinner := if s.policy.ownTie = 1 then .B else .A }) (coreSource 20)
    (a.port = (if s.policy.ownTie = 1 then .B else .A) → exec c s = .next (tiedCmd a.port.other o (tiedCmd a.port x v))) ∧
    (a.port ≠ (if s.policy.ownTie = 1 then .B else .A) → exec c s = .next (tiedCmd a.port x (tiedCmd a.port.other o v))))

/-- R125, R126, R614: a vendor command whose token is stored for the same request completes with the stored status, DW0 and DW1 and is not
executed, the hit counted; a repeated challenge returns the outstanding one beside (R641). One whose token is stored for another request
completes with Token Conflict, counted, and is neither executed nor stored, but for the challenge that any C3h ends (R616). So for the admin
commands, where neither a handover (Drydown Control, R117) nor the same Claim's own execution (R127) holds the command, and for Seal once MAP
has accepted it. A token of 0 is found nowhere, and no store takes one. -/
def Obligations.TokensAreNotExecutedTwice : Prop :=
  (∀ (c : Instr) (a : AdminId) (q : VendorReq) (s : State), vendorOf c = some (a, q) → AdminOpen s a →
    (q.opcode = 0xC2 → s.own.phase ≠ .handover) → (q.opcode = 0xC0 → claimRepeats s a.port q = false) →
    let hit := fun (u : State) (t : Token) => adminDone (u.onPort a.port fun p => { p with
      tokenHits := satAdd 255 p.tokenHits 1 }) a t.status t.dw0 t.dw1
    let clash := fun (u : State) => adminDone (u.onPort a.port fun p => { p with
      tokenConflicts := satAdd 255 p.tokenConflicts 1 }) a .tokenConflict
    (∀ t, tokenLook (s.port a.port) q.token q.opcode q.print = .stored t →
      (asksChallenge c = false → exec c s = .next (hit s t)) ∧
      (asksChallenge c = true → t.status = .success → s.own.owner = a.port →
        exec c s = .next (hit (answerData s a.port ((s.port a.port).challenge.getD (List.replicate 64 0))) t)) ∧
      (asksChallenge c = true → (t.status ≠ .success ∨ s.own.owner ≠ a.port) → exec c s = .next (hit s t))) ∧
    (tokenLook (s.port a.port) q.token q.opcode q.print = .conflict →
      (q.opcode ≠ 0xC3 → exec c s = .next (clash s)) ∧
      (q.opcode = 0xC3 → exec c s = .next (clash (s.onPort a.port fun p => { p with challenge := none }))))) ∧
  (∀ (p : PortId) (sq cid token : Nat) (pad bad : Bool) (c : OutCmd) (s : State), findCmd s p sq cid = some c → c.stage = .accepted →
    c.entry.op = .seal pad token bad →
    let print := tokenPrint [token, b2n pad, 0, b2n bad, 0, 0] []
    (∀ t, tokenLook (s.port p) token 0x81 print = .stored t → exec (.seal p sq cid) s =
      .next (ioDone (s.onPort p fun pt => { pt with tokenHits := satAdd 255 pt.tokenHits 1 }) p sq cid t.status t.dw0 t.dw1)) ∧
    (tokenLook (s.port p) token 0x81 print = .conflict → exec (.seal p sq cid) s =
      .next (ioDone (s.onPort p fun pt => { pt with tokenConflicts := satAdd 255 pt.tokenConflicts 1 }) p sq cid .tokenConflict))) ∧
  (∀ (pt : Port) (opcode : Nat) (print : BitVec 32) (t : Token), tokenLook pt 0 opcode print = .fresh ∧
    (t.token = 0 → tokenStore pt t = pt))

/-- R117 steps 5 to 8, R119, R120: outside SAFE a handover goes on from step 5 once handover_drain has passed, or earlier once no
transfer of the old owner is under way, and until then HANDOVER_DRAIN_END changes nothing. The old owner's writes are settled, its Flushes
waiting for them too: with its link up, one wholly in flacons is posted as Protected and any other ends with Asymmetric Access Transition.
Then the claimant becomes the owner, the generation rises by one and stands with the owner in the anchor, the phase is HELD, or LINK_DOWN
with its timer started where the claimant's link is down; the Claim completes, and what was held goes on. -/
def Obligations.HandoverSwitchesOwner : Prop :=
  (∀ (c : ClaimRec) (s : State), s.own.claim = some c → s.own.phase = .handover → s.fh.latch = false →
    let u := raiseFlushes s s.own.owner
    let v := switchOwner ((u.port s.own.owner).cmds.foldl settleWrite u) c
    let w := releaseHeld (releaseHeld (answerClaim v c) c.port) c.port.other
    ((c.t0 + s.policy.handoverDrain * 1000 ≤ s.now ∨ stillTransfers s = false) →
      exec .handoverDrainEnd s = .next (runHeldOf (runHeldOf w c.port) c.port.other)) ∧
    (s.now < c.t0 + s.policy.handoverDrain * 1000 → stillTransfers s = true → exec .handoverDrainEnd s = .next s)) ∧
  (∀ s : State, (s.own.claim = none ∨ s.own.phase ≠ .handover ∨ s.fh.latch = true) → exec .handoverDrainEnd s = .next s) ∧
  (∀ (c : OutCmd) (s : State), underWay c = true → linkIsDown (s.port c.port) = false → whollyIn s c = false →
    settleWrite s c = failWrite s c .asymmetricAccessTransition) ∧
  (∀ (c : ClaimRec) (s : State),
    let t := switchOwner s c
    t.own.owner = c.port ∧ t.own.generation = s.own.generation + 1 ∧ t.own.claim = none ∧
    t.journal.anchor.owner = c.port ∧ t.journal.anchor.generation = (s.own.generation + 1).toNat ∧
    (linkIsDown (s.port c.port) = false → t.own.phase = .held ∧ t.own.downSince = none) ∧
    (linkIsDown (s.port c.port) = true → t.own.phase = .linkDown ∧ t.own.downSince = some s.now))

/-- R106, R111, R639, R640: the timers of ownership and security. takeover_hold after the owner's link went down LINK_DOWN becomes LAPSED; a
Force lock and a challenge lock end at their time; an unlock ends 3,600 s after it began. Before its time, and where it does not run, each
changes nothing. -/
def Obligations.OwnershipTimers : Prop :=
  (∀ (t : Nat) (s : State), s.own.downSince = some t →
    (s.own.phase = .linkDown → t + s.policy.takeoverHold * 1000 ≤ s.now →
      exec .takeoverHoldExpiry s = .next (s.onOwn fun o => { o with phase := .lapsed })) ∧
    ((s.own.phase ≠ .linkDown ∨ s.now < t + s.policy.takeoverHold * 1000) → exec .takeoverHoldExpiry s = .next s)) ∧
  (∀ s : State, s.own.downSince = none → exec .takeoverHoldExpiry s = .next s) ∧
  (∀ (p : PortId) (t : Nat) (s : State),
    ((s.port p).forceLock = some t → t ≤ s.now → exec (.forceLockExpiry p) s = .next (s.onPort p fun x => { x with forceLock := none })) ∧
    ((s.port p).forceLock = some t → s.now < t → exec (.forceLockExpiry p) s = .next s) ∧
    ((s.port p).chLock = some t → t ≤ s.now → exec (.unlockRefusalExpiry p) s = .next (s.onPort p fun x => { x with chLock := none })) ∧
    ((s.port p).chLock = some t → s.now < t → exec (.unlockRefusalExpiry p) s = .next s)) ∧
  (∀ (p : PortId) (s : State), ((s.port p).forceLock = none → exec (.forceLockExpiry p) s = .next s) ∧
    ((s.port p).chLock = none → exec (.unlockRefusalExpiry p) s = .next s)) ∧
  (∀ (u : Unlock) (s : State), s.sec.unlock = some u →
    (u.since + 3600000000 ≤ s.now → exec .unlockExpiry s = .next (endUnlock s)) ∧
    (s.now < u.since + 3600000000 → exec .unlockExpiry s = .next s)) ∧
  (∀ s : State, s.sec.unlock = none → exec .unlockExpiry s = .next s)

/-- R363, R369, R370, R615: a Drydown Control from the owner whose token is new, outside a handover. Start while a Sanitize runs is
Drydown Not Permitted; in NORMAL and PRESERVE it enters DRYDOWN, ends the writes that wait, and answers the generation that the cursor will have;
in DRYDOWN it changes nothing and answers the generation of the cursor that is ready or repeated, or the one it will have. Stop ends DRYDOWN
unless a condition of R358 holds and drydown_auto is 1, ends PRESERVE unless such a condition holds, and is else Drydown Not Permitted; in NORMAL it
changes nothing. -/
def Obligations.DrydownControl : Prop :=
  ∀ (a : AdminId) (token : Nat) (s : State), AdminOpen s a → s.own.phase ≠ .handover → s.own.owner = a.port →
    let q := vendorReq token 0xC2 1 0 false []
    let r := vendorReq token 0xC2 2 0 false []
    (tokenLook (s.port a.port) token 0xC2 q.print = .fresh →
      (s.sec.sanitize ≠ .none → exec (.drydownControlStart a token false) s = .next (vendorEnd s a q .drydownNotPermitted)) ∧
      (s.sec.sanitize = .none → s.mediaMode ≠ 2 → exec (.drydownControlStart a token false) s =
        .next (vendorEnd (refuseWaitingWrites (enterDrydown (s.onUpkeep fun u => { u with cursorRepeat := false }))) a q .success
          (BitVec.ofNat 32 (s.upkeep.cursorGen + 1)))) ∧
      (s.sec.sanitize = .none → s.mediaMode = 2 → exec (.drydownControlStart a token false) s = .next (vendorEnd s a q .success
        (BitVec.ofNat 32 (if s.upkeep.cursorState = 2 ∨ s.upkeep.cursorRepeat then s.upkeep.cursorGen else s.upkeep.cursorGen + 1))))) ∧
    (tokenLook (s.port a.port) token 0xC2 r.print = .fresh →
      let keeps := exec (.drydownControlStop a token false) s = .next (vendorEnd s a r .drydownNotPermitted)
      (s.mediaMode = 2 → (preserveCond s = false ∨ s.policy.drydownAuto ≠ 1) →
        exec (.drydownControlStop a token false) s = .next (vendorEnd (endDrydown s) a r .success)) ∧
      (s.mediaMode = 2 → preserveCond s = true → s.policy.drydownAuto = 1 → keeps) ∧
      (s.mediaMode = 1 → preserveCond s = true → keeps) ∧
      (s.mediaMode = 1 → preserveCond s = false → exec (.drydownControlStop a token false) s =
        .next (vendorEnd (putAnchor { s with mediaMode := 0 } fun x => { x with mediaMode := 0 }) a r .success)) ∧
      (s.mediaMode = 0 → exec (.drydownControlStop a token false) s = .next (vendorEnd s a r .success)))

/-- R614, R616, R637 to R640: a Diagnostic Unlock whose token is new. From the owner, a challenge with a scope below 8 carries the scope, the port
and a nonce that nothing constrains, and is outstanding; while challenges are locked it completes with Access Denied. A response that carries
the outstanding challenge under a good signature opens the unlock, any other is counted and completes with Access Denied, and one without a
challenge completes with Command Sequence Error. Ending ends the port's unlock. From the other port each completes with Ownership Not
Held. Each ends the challenge that was outstanding. The end of an unlock closes the debug ports that the lifecycle state does not hold open,
clears FH_INJECT and the legacy arm word, and changes nothing else. -/
def Obligations.DiagnosticUnlock : Prop :=
  (∀ (a : AdminId) (token : Nat) (s : State), AdminOpen s a → s.own.owner = a.port →
    let e := vendorReq token 0xC3 0 0 false []
    let u := s.onPort a.port fun p => { p with challenge := none }
    (∀ scope, scope < 8 → let q := vendorReq token 0xC3 1 scope false []
      tokenLook (s.port a.port) token 0xC3 q.print = .fresh →
      let ch := challengeBytes s a.port scope (Config.freeNonce s.freeCtr)
      (challengeLocked s a.port = false →
        exec (.diagnosticUnlockChallenge a token scope false) s = .next (vendorEnd ({ s with freeCtr := s.freeCtr + 1 }.onPort a.port
          fun p => { p with challenge := some ch, hostData := ch }) a q .success)) ∧
      (challengeLocked s a.port = true →
        exec (.diagnosticUnlockChallenge a token scope false) s = .next (vendorEnd u a q .accessDenied))) ∧
    (∀ response, let q := vendorReq token 0xC3 2 0 false response
      tokenLook (s.port a.port) token 0xC3 q.print = .fresh →
      (∀ c, (s.port a.port).challenge = some c → exec (.diagnosticUnlockResponse a token response false) s = .next (
        if response.take 64 = c ∧ responseSigned s response = true then
          vendorEnd (openUnlock (u.onPort a.port fun p => { p with chFails := 0 }) a.port (nth 0 c 48).toNat) a q .success
        else vendorEnd (countResponseFail u a.port) a q .accessDenied)) ∧
      ((s.port a.port).challenge = none →
        exec (.diagnosticUnlockResponse a token response false) s = .next (vendorEnd u a q .commandSequenceError))) ∧
    (tokenLook (s.port a.port) token 0xC3 e.print = .fresh →
      exec (.diagnosticUnlockEnd a token false) s = .next (vendorEnd (endUnlockOf u a.port) a e .success))) ∧
  (∀ (c : Instr) (a : AdminId) (q : VendorReq) (s : State), vendorOf c = some (a, q) → q.opcode = 0xC3 → wellFields c = true →
    AdminOpen s a → s.own.owner ≠ a.port → tokenLook (s.port a.port) q.token 0xC3 q.print = .fresh →
    exec c s = .next (vendorEnd (s.onPort a.port fun p => { p with challenge := none }) a q .ownershipNotHeld)) ∧
  (∀ s : State, endUnlock s = { s with
    sec := { s.sec with unlock := none, debugOpen := s.sec.debugOpen && lifecycleOpen s.sec.lifecycle }
    fh := { s.fh with injArmed := false, injAddrEn := false, injMode := 0, injSource := 0, injAddr := 0, legArm := 0, legArmAt := none } })

/-- R554, R620, R623 to R625: an access through an open JTAG port sets the bits it names in the three copies of the lifecycle byte, or in a byte
of the OTP row that may be programmed, clears none, and leaves every other byte as it was; one to another byte leaves the row as it was. What the row
then says takes effect: the lifecycle state, the floor and the open debug ports, and a port that opens fires source 21 of the cores. A closed
port ignores the access. -/
def Obligations.JtagPrograms : Prop :=
  (∀ (op : JtagOp) (s : State), debugPortOpen s 1 = false → exec (.jtagAccess op) s = .next s) ∧
  (∀ (op : JtagOp) (s : State), debugPortOpen s 1 = true →
    let u := s.onSec fun x => { x with otp := jtagProgram x.otp op }
    let v := u.onSec fun x => { x with lifecycle := lifecycleOf u, floor := floorOf u }
    let w := v.onSec fun x => { x with debugOpen := debugPortOpen v 1 || debugPortOpen v 2 }
    exec (.jtagAccess op) s = .next (if debugPortOpen v 2 = true ∧ debugPortOpen s 2 = false then fire w (coreSource 21) else w)) ∧
  (∀ (m : List Host.Cell) (bits : BitVec 8) (a : Nat), memWf 0 m = true → memGet 0 (jtagProgram m (.programLifecycle bits)) a =
    if a ∈ [160, 161, 162] then memGet 0 m a ||| bits else memGet 0 m a) ∧
  (∀ (m : List Host.Cell) (addr : Nat) (bits : BitVec 8) (a : Nat), memWf 0 m = true → memGet 0 (jtagProgram m (.programOtp addr bits)) a =
    if a = addr ∧ otpMayProgram m addr = true then memGet 0 m a ||| bits else memGet 0 m a)

/-- R363 steps 3 and 4, R366, R367: during the entry of DRYDOWN, not halted, CURSOR_READY runs step 3 as far as it goes. Where that leaves no
number unsealed and no copy, the cursor is ready: its extents are those of R366 for the map as it stands, its generation rises by one, or
stays at a repeat, the entry is over, and the notice for C5h becomes due again. Where anything is left the entry goes on. -/
def Obligations.CursorBecomesReady : Prop :=
  ∀ s : State, s.mediaMode = 2 → s.upkeep.drydownEntry = true → s.hk.halt = false →
    let u := advanceHorizon (drydownSeal s)
    (u.path.unsealed = [] → u.path.copies = [] → exec .cursorReady s = .next (notice (u.onUpkeep fun x => { x with
      drydownEntry := false, cursorRepeat := false, cursorState := 2, cursor := cursorExtents u
      cursorGen := if x.cursorRepeat then x.cursorGen else x.cursorGen + 1 }) 0xC5 true)) ∧
    ((u.path.unsealed ≠ [] ∨ u.path.copies ≠ []) → exec .cursorReady s = .next u)

/-! ### I/O commands -/

/-- R70, R72, R78, R94, R97, R130, R566: while a port may fetch, has a slot and has an entry to fetch, the entry of the queue that arbitration
chooses takes the last place in port order and leaves its queue; the link's replay and FEC counts grow by free values (log entry 70). In
PS3 or PS4 the port's selection returns to its last operational state. With an SGL that is not supported it completes at once with SGL
Descriptor Type Invalid, with an opcode that is not supported with Invalid Command Opcode, a Dataset Management that deallocates nothing with
Success, and before the end of recovery every one with Namespace Not Ready. Otherwise nothing is fetched and nothing changes. -/
def Obligations.FetchKeepsPortOrder : Prop :=
  (∀ (p : PortId) (q : Sq) (pt : Port) (e : IoEntry) (rest : List IoEntry) (s : State),
    mayFetch s p = true → slotFree s p = true → chooseSq (s.port p) = some (q, pt) → q.entries = e :: rest →
    let c : OutCmd := { port := p, sq := q.id, entry := e, stage := .fetched }
    let u := ((linkErrors (s.onPort p fun _ => { pt with
      sqs := pt.sqs.map fun x => if x.id = q.id then { x with entries := rest } else x
      cmds := pt.cmds ++ [c], peak := max pt.peak (pt.cmds.length + 1) }) p).onUpkeep fun x => { x with idle := false }).onMisc
        fun m => { m with lastIo := some s.now }
    let v := if 3 ≤ s.misc.drivePs then takePs (u.onPort p fun pt => if 3 ≤ pt.selPs then { pt with selPs := pt.lastOpPs } else pt) else u
    (u.port p).cmds = (s.port p).cmds ++ [c] ∧
    (notReady v = true → exec (.commandFetch p) s = .next (ioEnd v c .namespaceNotReady)) ∧
    (notReady v = false → e.ptr = .sglOther → exec (.commandFetch p) s = .next (ioEnd v c .sglTypeInvalid)) ∧
    (notReady v = false → e.ptr ≠ .sglOther → ∀ k, e.op = .unsupported k →
      exec (.commandFetch p) s = .next (ioDone v p q.id e.cid .invalidOpcode)) ∧
    (notReady v = false → e.ptr ≠ .sglOther → e.op = .dsmOther → exec (.commandFetch p) s = .next (ioDone v p q.id e.cid .success)) ∧
    (notReady v = false → e.ptr ≠ .sglOther → (∀ k, e.op ≠ .unsupported k) → e.op ≠ .dsmOther → exec (.commandFetch p) s = .next v)) ∧
  (∀ (p : PortId) (s : State), (mayFetch s p = false ∨ slotFree s p = false ∨ chooseSq (s.port p) = none) →
    exec (.commandFetch p) s = .next s)

/-- R75, R131, R132, R149, R152, R290, R291: MAP accepts the first command in the owner's port order that is ready, or, where the owner has none
ready, the other port's; with none ready nothing changes. A command that changes no map takes what current read-ahead buffers hold, and records
the highest number assigned and the horizon. One that does receives the next number, which joins the unsealed numbers; its sub-units bear it, the
version counters of its IUs rise, its trims are staged, the old content it needs is fetched, and it is Protected at once if nothing of it is left.
Where its namespace is gone it completes with Invalid Namespace or Format. -/
def Obligations.MapAcceptsInOrder : Prop :=
  (∀ (c : OutCmd) (s : State),
    (readyForMap s s.own.owner = some c ∨ (readyForMap s s.own.owner = none ∧ readyForMap s s.own.owner.other = some c)) →
    (isWriteOp c.entry.op = false → exec .mapAccept s = .next (modCmd (takeBuffers s c) c.port c.sq c.entry.cid fun x => { x with
      stage := .accepted, snapshot := some (s.path.nextSeq - 1), sealAt := s.path.horizon })) ∧
    (isWriteOp c.entry.op = true → findNs s c.entry.nsid = none → exec .mapAccept s = .next (failWrite s c .invalidNamespace)) ∧
    (∀ n, isWriteOp c.entry.op = true → findNs s c.entry.nsid = some n →
      let seq := s.path.nextSeq
      let u := s.onPath fun x => { x with nextSeq := seq + 1, unsealed := x.unsealed ++ [{ seq := seq, port := c.port }] }
      let v := modSubs (modCmd u c.port c.sq c.entry.cid fun x => { x with stage := .running, seq := some seq }) (c.port, c.sq, c.entry.cid)
        fun x => { x with seq := seq }
      let w := c.plans.foldl (fun s x => bumpVer s (mapIndex s n x.iu)) v
      exec .mapAccept s = .next (protectIfDone (fetchOlds (if hasData c.entry.op then w else stageTrims w c n seq)
        { c with stage := .running, seq := some seq } n seq) c.port c.sq c.entry.cid))) ∧
  (∀ (p : PortId) (c : OutCmd) (s : State), readyForMap s p = some c ↔ nextInOrder s p = some c ∧
    (if isWriteOp c.entry.op then c.stage = .admitted ∧ seqAllowed s = true else c.stage = .fetched)) ∧
  (∀ s : State, readyForMap s s.own.owner = none → readyForMap s s.own.owner.other = none → exec .mapAccept s = .next s)

/-- R67, R134, R157, R287: an accepted Read is tracked as a stream; it, and an accepted Verify without that, completes with the status of
its range check where that fails; otherwise every sub-unit that no read-ahead buffer gave selects its version as of the command's snapshot, the
command runs, and it completes if all is at hand. A command that is not accepted, or is another, is left alone. -/
def Obligations.ReadAndVerifyRun : Prop :=
  (∀ (p : PortId) (sq cid slba nlb : Nat) (c : OutCmd) (s : State), findCmd s p sq cid = some c → c.stage = .accepted →
    let begun := fun (u : State) (n : Namespace) =>
      let rest := (subsOf u n c.entry.op).filter fun x => !(c.subs.any fun h => decide (h.iu = x.1) && decide (h.sub = x.2))
      let r := selectSubs c n (c.snapshot.getD 0) u rest
      finishRead (modCmd r.1 c.port c.sq c.entry.cid fun x => { x with stage := .running, subs := c.subs ++ r.2 }) c.port c.sq c.entry.cid
    (c.entry.op = .read slba nlb →
      let u := trackStream s p c.entry.nsid slba nlb
      (∀ n, rangeCheck u c.entry = .inl n → exec (.read p sq cid) s = .next (begun u n)) ∧
      (∀ st, rangeCheck u c.entry = .inr st → exec (.read p sq cid) s = .next (ioDone u c.port c.sq c.entry.cid st))) ∧
    (c.entry.op = .verify slba nlb →
      (∀ n, rangeCheck s c.entry = .inl n → exec (.verify p sq cid) s = .next (begun s n)) ∧
      (∀ st, rangeCheck s c.entry = .inr st → exec (.verify p sq cid) s = .next (ioDone s c.port c.sq c.entry.cid st)))) ∧
  (∀ (p : PortId) (sq cid : Nat) (c : OutCmd) (s : State), findCmd s p sq cid = some c →
    ((c.stage ≠ .accepted ∨ ∀ a k, c.entry.op ≠ .read a k) → exec (.read p sq cid) s = .next s) ∧
    ((c.stage ≠ .accepted ∨ ∀ a k, c.entry.op ≠ .verify a k) → exec (.verify p sq cid) s = .next s)) ∧
  (∀ (p : PortId) (sq cid : Nat) (s : State), findCmd s p sq cid = none →
    exec (.read p sq cid) s = .next s ∧ exec (.verify p sq cid) s = .next s)

/-- R99, R117, R359: a Write, a Write Zeroes or a Deallocate that has been fetched is held during a handover; outside one, from the port that
does not own the drive, or in PRESERVE or DRYDOWN, it completes with Namespace Is Write Protected. -/
def Obligations.WritesAreRefusedOrHeld : Prop :=
  ∀ (p : PortId) (sq cid : Nat) (c : OutCmd) (s : State), findCmd s p sq cid = some c → c.port = p → c.sq = sq → c.entry.cid = cid →
    c.stage = .fetched →
    (s.own.phase ≠ .handover → (s.own.owner ≠ p ∨ s.mediaMode ≠ 0) →
      let refused := ioDone s p sq cid .nsWriteProtected
      (∀ a k fua d, c.entry.op = .write a k fua d → exec (.write p sq cid) s = .next refused) ∧
      (∀ a k d fua, c.entry.op = .writeZeroes a k d fua → exec (.writeZeroes p sq cid) s = .next refused) ∧
      (∀ rs, c.entry.op = .deallocate rs → exec (.datasetManagementDeallocate p sq cid) s = .next refused)) ∧
    (s.own.phase = .handover →
      let held := modCmd s p sq cid fun x => { x with stage := .held }
      (∀ a k fua d, c.entry.op = .write a k fua d → exec (.write p sq cid) s = .next held) ∧
      (∀ a k d fua, c.entry.op = .writeZeroes a k d fua → exec (.writeZeroes p sq cid) s = .next held) ∧
      (∀ rs, c.entry.op = .deallocate rs → exec (.datasetManagementDeallocate p sq cid) s = .next held))

/-- R79, R86, R133, R193, R198: a map-changing command that the owner has fetched in NORMAL, outside a handover, completes with the status of its
range check where that fails, and with Invalid Field in Command, FDP event 4 beside, where its placement handle does not exist. Otherwise the
treatment of each IU and its need are decided and it waits for its credits; it acts as FUA where it says so, the volatile write cache is off, or
the hold-up is not ready. Where an IU can take no treatment it completes with Write Fault in its turn and waits before. A Write Zeroes or a
Deallocate that waits with no need is admitted at once in its turn. -/
def Obligations.WritesAreDecided : Prop :=
  (∀ (c : OutCmd) (fua : Bool) (s : State), c.stage = .fetched → s.own.phase ≠ .handover → s.own.owner = c.port → s.mediaMode = 0 →
    (∀ st, rangeCheck s c.entry = .inr st → startWrite s c fua = ioDone s c.port c.sq c.entry.cid st) ∧
    (∀ n, rangeCheck s c.entry = .inl n →
      (handleOf s n c.entry.op = none → startWrite s c fua = fdpEvent (ioDone s c.port c.sq c.entry.cid .invalidField) 4 0) ∧
      (∀ h, handleOf s n c.entry.op = some h →
        let v := modCmd s c.port c.sq c.entry.cid fun x => { x with fua := fua || s.path.vwcOff || !s.hk.holdupReady }
        let cov := coverOf s n (rangesOf c.entry.op)
        (∀ u pls, decideAll n (hasData c.entry.op) v cov = some (u, pls) → startWrite s c fua = modCmd v c.port c.sq c.entry.cid fun x =>
          { x with stage := .waiting, plans := pls, need := needOf v (hasData c.entry.op) pls cov }) ∧
        (decideAll n (hasData c.entry.op) v cov = none → isTurn v c = true →
          startWrite s c fua = ioDone v c.port c.sq c.entry.cid .writeFault) ∧
        (decideAll n (hasData c.entry.op) v cov = none → isTurn v c = false →
          startWrite s c fua = modCmd v c.port c.sq c.entry.cid fun x => { x with stage := .waiting })))) ∧
  (∀ (p : PortId) (sq cid : Nat) (c : OutCmd) (s : State), findCmd s p sq cid = some c →
    (∀ a k fua d, c.entry.op = .write a k fua d → exec (.write p sq cid) s = .next (startWrite s c fua)) ∧
    (∀ a k d fua, c.entry.op = .writeZeroes a k d fua → exec (.writeZeroes p sq cid) s = .next (admitIfFree (startWrite s c fua) p sq cid)) ∧
    (∀ rs, c.entry.op = .deallocate rs → exec (.datasetManagementDeallocate p sq cid) s =
      .next (admitIfFree (startWrite s c false) p sq cid))) ∧
  (∀ (p : PortId) (sq cid : Nat) (c : OutCmd) (s : State), findCmd s p sq cid = some c →
    (c.stage = .waiting → c.need = 0 → isTurn s c = true → admitIfFree s p sq cid = admitWrite s c) ∧
    ((c.stage ≠ .waiting ∨ c.need ≠ 0 ∨ isTurn s c = false) → admitIfFree s p sq cid = s))

/-- R144: the write at the head of the port's order that waits: where its need fits under avail and its flacons under 4,096, it becomes
admitted with its plans and its need, and no other command of the port changes; where they do not, it goes on waiting; where another command stands
at the head, nothing changes. -/
def Obligations.AdmissionTakesCredits : Prop :=
  (∀ (p : PortId) (c : OutCmd) (n : Namespace) (h : Nat) (u : State) (pls : List IuPlan) (s : State),
    let v := checkUrgent s
    let cov := coverOf v n (rangesOf c.entry.op)
    let need := needOf v (hasData c.entry.op) pls cov
    let staged := (pls.zip cov).map fun x => stageIu v n (c.port, c.sq, c.entry.cid) (hasData c.entry.op) x.1 x.2.2
    nextInOrder s p = some c → c.port = p → c.stage = .waiting →
    rangeCheck v c.entry = .inl n → decideAll n (hasData c.entry.op) v cov = some (u, pls) → handleOf v n c.entry.op = some h →
    ((need = 0 ∨ (need ≤ admitAvail v ∧ v.path.flacons.length + flaconsNeeded v h staged ≤ 4096)) →
      ∃ t, exec (.writeAdmission p) s = .next t ∧
        (t.port p).cmds = (s.port p).cmds.map fun x => if sameCmd c.sq c.entry.cid x then
          { x with stage := .admitted, plans := pls, need := need } else x) ∧
    (0 < need → (admitAvail v < need ∨ 4096 < v.path.flacons.length + flaconsNeeded v h staged) → exec (.writeAdmission p) s =
      .next (modCmd v p c.sq c.entry.cid fun x => { x with stage := .waiting, plans := pls, need := need }))) ∧
  (∀ (p : PortId) (s : State), (nextInOrder s p = none ∨ ∃ c, nextInOrder s p = some c ∧ c.stage ≠ .waiting) →
    exec (.writeAdmission p) s = .next s)

/-- R24, R140, R441: host data of a running Write that is not Protected is placed in the flacon it is for, in the order of the sub-units
that wait for it, and its transfer has begun; an uncorrectable word of the transfer buffer ends the write with Data Transfer Error. For
any other command nothing changes. -/
def Obligations.HostDataIsPlaced : Prop :=
  ∀ (p : PortId) (sq cid i : Nat) (data : List Blk) (c : OutCmd) (s : State), findCmd s p sq cid = some c →
    (c.stage = .running → hasData c.entry.op = true → c.prot = false →
      exec (.hostDataCompletion p sq cid i data false) s =
        .next (modCmd (restage (modFlacon s i fun f => { f with subs := fillSubs s (p, sq, cid) f.subs data }) i) p sq cid
          fun x => { x with dataBegun := true }) ∧
      exec (.hostDataCompletion p sq cid i data true) s = .next (failWrite s c .dataTransferError)) ∧
    ((c.stage ≠ .running ∨ hasData c.entry.op = false ∨ c.prot = true) →
      ∀ sram, exec (.hostDataCompletion p sq cid i data sram) s = .next s)

/-- R74, R147, R151, R373: FLACON_COMMIT commits the parts of the flacon whose data is placed. Where that leaves the last flacon of its only
writer committed and no trim of it waiting, the write is Protected and its flacons READY; without FUA it completes with its number in DW0,
with FUA it waits for the horizon, for which stripes are closed. Where something of the write is left, only the commit happens. -/
def Obligations.FlaconCommitProtects : Prop :=
  ∀ (p : PortId) (sq cid i n : Nat) (c : OutCmd) (s : State),
    let u := commitParts s i
    let w := (p, sq, cid)
    let v := protectSeq ((flaconsOf u w).foldl restage (modSubs u w fun x => { x with prot := true, writer := none })) n
    ((getFlacon s i).subs.filterMap (·.writer)).dedup = [w] → findCmd s p sq cid = some c → c.port = p → c.sq = sq → c.entry.cid = cid →
    c.stage = .running → c.seq = some n → c.prot = false →
    (allCommitted u w = true → trimsLeft u (some n) = false →
      (c.fua = false → exec (.flaconCommit i) s = .next (advanceHorizon (ioDone v p sq cid .success (BitVec.ofNat 32 n)))) ∧
      (c.fua = true → exec (.flaconCommit i) s =
        .next (advanceHorizon (closeIfDue (modCmd v p sq cid fun x => { x with prot := true }))))) ∧
    ((allCommitted u w = false ∨ trimsLeft u (some n) = true) → exec (.flaconCommit i) s = .next u)

/-- R142, R150, R190, R202, R203, R210, R216, R360: PACK makes places for a READY flacon's handle, and packs the flacon whole into the super-block
that is to take it: the handle's SLC super-block that has room, else its reclaim unit, and only where R216 withholds a reclaim unit a collection
super-block. The flacon is then PACKED with its IU slots noted; closings that wait, a full unit's successor and the sealing of DRYDOWN follow.
Where no super-block takes it, or no accumulator slot is free, it stays READY; a flacon in another state is left alone. -/
def Obligations.PackPlacesFlacon : Prop :=
  (∀ (i : Nat) (s : State),
    let f := getFlacon s i
    let n := flaconSlots s f
    let t := makePlace s f.handle n
    (f.st = .ready → f.subs ≠ [] → mediaLive s = true →
      (∀ b, placeFor t f.handle n = some b →
        (∀ u slots, packFlaconSlots b.num f (subsPerIu s) n (notePlace t b f.handle) [] = some (u, slots) →
          exec (.pack i) s = .next (drydownSeal (formSuccessor (closeIfDue (modFlacon u i fun f => { f with
            st := .packed, place := some { sb := b.num, slots := slots } })) b.num))) ∧
        (packFlaconSlots b.num f (subsPerIu s) n (notePlace t b f.handle) [] = none → exec (.pack i) s = .next t)) ∧
      (placeFor t f.handle n = none → exec (.pack i) s = .next t)) ∧
    ((f.st ≠ .ready ∨ f.subs = [] ∨ mediaLive s = false) → exec (.pack i) s = .next s)) ∧
  (∀ (h n : Nat) (s : State),
    (∀ b, sbWithRoom s .slc h n = some b → placeFor s h n = some b) ∧
    (∀ b, sbWithRoom s .slc h n = none → sbWithRoom s .hostRu h n = some b → placeFor s h n = some b) ∧
    (sbWithRoom s .slc h n = none → sbWithRoom s .hostRu h n = none → placeFor s h n =
      if formationAllowed s .hostRu then none else sbWithRoom s .collection h n))

/-- R138, R143, R149, R190, R326, R393: a version that the record rate holds is left and RATE_LIMIT reports it; after any other look the exposure
of the stripes is judged again. Outside SAFE, with room for their records and no read that MAP has accepted still to select, a SAFE flacon's
versions are applied in the order of its sub-units and then count as applied, unless a read waits for a version of one of their IUs; a trim is
applied likewise once all data of its number is committed, and its command is Protected if nothing else of it is left. A SAFE flacon that no read
pins and whose versions are all applied or stale becomes FREE, and any other is left alone. -/
def Obligations.VersionsApplyAndRelease : Prop :=
  (∀ (i : Nat) (pl : Place) (s : State), (getFlacon s i).place = some pl →
    let held := (getFlacon s i).subs.any fun x => reselects s x.nsid x.iu
    (rateHeld s false i = true → exec (.versionApply false i) s = .next (fire s (mjSource 4))) ∧
    (rateHeld s false i = false → (getFlacon s i).st = .safe → ringReady s (2 * (getFlacon s i).subs.length) = true →
      selecting s = false → held = false → mediaLive s = true →
      exec (.versionApply false i) s = .next (judgeExposure (advanceHorizon (modFlacon
        ((List.range (getFlacon s i).subs.length).foldl (fun t k => applyAt t (getFlacon s i) pl k) s) i
        fun f => { f with subs := f.subs.map fun x => { x with applied := true } })))) ∧
    (rateHeld s false i = false → ((getFlacon s i).st ≠ .safe ∨ ringReady s (2 * (getFlacon s i).subs.length) = false ∨
      selecting s = true ∨ held = true ∨ mediaLive s = false) → exec (.versionApply false i) s = .next (judgeExposure s))) ∧
  (∀ (id : Nat) (s : State), rateHeld s true id = true → exec (.versionApply true id) s = .next (fire s (mjSource 4))) ∧
  (∀ (id : Nat) (t : TrimVer) (s : State), s.path.trims.find? (fun t => t.id = id) = some t → rateHeld s true id = false →
    ringReady s (2 * t.subs.length + 1) = true → selecting s = false → reselects s t.nsid t.iu = false → mediaLive s = true →
    ((∀ e ∈ s.path.flacons, ∀ x ∈ e.2.subs, x.seq = t.seq → x.comm = true) →
      (∀ c, cmdOfSeq (trimNow s t) t.seq = some c →
        exec (.versionApply true id) s = .next (judgeExposure (advanceHorizon (protectIfDone (trimNow s t) c.port c.sq c.entry.cid)))) ∧
      (cmdOfSeq (trimNow s t) t.seq = none → exec (.versionApply true id) s = .next (judgeExposure (advanceHorizon (trimNow s t))))) ∧
    ((∃ e ∈ s.path.flacons, ∃ x ∈ e.2.subs, x.seq = t.seq ∧ x.comm = false) → exec (.versionApply true id) s = .next (judgeExposure s))) ∧
  (∀ (i : Nat) (s : State),
    ((getFlacon s i).st = .safe → (getFlacon s i).pins = 0 → (∀ x ∈ (getFlacon s i).subs, x.applied = true ∨ x.stale = true) →
      ∃ t, exec (.flaconRelease i) s = .next t ∧ t.path.flacons = (modFlacon s i fun _ => {}).path.flacons) ∧
    (((getFlacon s i).st ≠ .safe ∨ (getFlacon s i).pins ≠ 0 ∨ ∃ x ∈ (getFlacon s i).subs, x.applied = false ∧ x.stale = false) →
      exec (.flaconRelease i) s = .next s))

/-- R150, R152, R153, R123: a Flush that MAP has accepted runs, the closings it depends on are asked for, the horizon moves as far as it goes,
and the port's Flushes and FUA writes that it has reached complete. A Seal that MAP has accepted, whose token is new, completes with the horizon
that MAP_ACCEPT recorded in DW0 and DW1, its token stored, and with Pad then starts a closing up to its snapshot; with a reserved field that is
not 0 it completes with Invalid Field in Command, its token stored. One that MAP has not accepted is left alone. -/
def Obligations.FlushAndSeal : Prop :=
  (∀ (p : PortId) (sq cid : Nat) (c : OutCmd) (s : State), findCmd s p sq cid = some c → c.entry.op = .flush →
    (c.stage = .accepted → exec (.flush p sq cid) s =
      .next (horizonDone (advanceHorizon (closeIfDue (modCmd s p sq cid fun x => { x with stage := .running }))) p)) ∧
    (c.stage ≠ .accepted → exec (.flush p sq cid) s = .next s)) ∧
  (∀ (p : PortId) (sq cid token : Nat) (pad bad : Bool) (c : OutCmd) (s : State), findCmd s p sq cid = some c →
    c.entry.op = .seal pad token bad →
    let print := tokenPrint [token, b2n pad, 0, b2n bad, 0, 0] []
    let h := c.sealAt
    let done := ioDone (s.onPort p fun pt => tokenStore pt
      ⟨token, 0x81, print, .success, BitVec.ofNat 32 h, BitVec.ofNat 32 (h / 4294967296)⟩) p sq cid .success (BitVec.ofNat 32 h)
      (BitVec.ofNat 32 (h / 4294967296))
    (c.stage = .accepted → tokenLook (s.port p) token 0x81 print = .fresh →
      (bad = false → exec (.seal p sq cid) s = .next (if pad then closeUpTo done (c.snapshot.getD 0) else done)) ∧
      (bad = true → exec (.seal p sq cid) s = .next (ioDone (s.onPort p fun pt => tokenStore pt
        ⟨token, 0x81, print, .invalidField, 0, 0⟩) p sq cid .invalidField))) ∧
    (c.stage ≠ .accepted → exec (.seal p sq cid) s = .next s))

/-- R135, R139, R150: at READ_WAIT_END the sub-units of a running read that wait select again, and it completes if all is at hand; the
sub-units of a write that wait for an old version fetch it again. SEAL_PAD_DELAY_EXPIRY closes the stripes up to the oldest number that is not
Sealed, once that number has been Protected for seal_pad_delay and its stripe is incomplete, and otherwise changes nothing. -/
def Obligations.ReadWaitsAndPadDelay : Prop :=
  (∀ (p : PortId) (sq cid : Nat) (c : OutCmd) (n : Namespace) (s : State), findCmd s p sq cid = some c → findNs s c.entry.nsid = some n →
    (isWriteOp c.entry.op = false → c.stage = .running →
      exec (.readWaitEnd p sq cid) s = .next (finishRead (reselectRead s c n) p sq cid)) ∧
    (isWriteOp c.entry.op = false → c.stage ≠ .running → exec (.readWaitEnd p sq cid) s = .next s) ∧
    (isWriteOp c.entry.op = true → let w := (p, sq, cid)
      exec (.readWaitEnd p sq cid) s = .next (((s.path.flacons.flatMap fun e => e.2.subs).filter fun x =>
        decide (x.writer = some w) && x.waits.isSome).foldl (fun s x => fetchOld s c n (c.seq.getD 0) x)
          (modSubs s w fun x => { x with waits := none })))) ∧
  (∀ (r : SeqRec) (rs : List SeqRec) (s : State), dropSealed s s.path.unsealed = r :: rs →
    (∀ t, r.protAt = some t →
      (t + s.policy.sealPadDelay ≤ s.now → stripeIncomplete s r.seq = true → exec .sealPadDelayExpiry s = .next (closeUpTo s r.seq)) ∧
      ((s.now < t + s.policy.sealPadDelay ∨ stripeIncomplete s r.seq = false) → exec .sealPadDelayExpiry s = .next s)) ∧
    (r.protAt = none → exec .sealPadDelayExpiry s = .next s)) ∧
  (∀ s : State, dropSealed s s.path.unsealed = [] → exec .sealPadDelayExpiry s = .next s)

/-- R30, R59, R71, R503: with the port's REFCLK present, a tail doorbell of an I/O submission queue that exists makes the entries it advances
over wait in the queue, behind those that wait, where the new tail names a place of the queue and does not pass the waiting entries; a head doorbell
of a completion queue that exists, to a place of the queue no further than what was posted, frees entries, and completions that waited are posted
as far as there is room. A doorbell of a queue that does not exist, or to any other place, fires source 4 of the port's front end. Without REFCLK
no doorbell arrives, and one of the admin queue changes nothing in this model (log entry 7). -/
def Obligations.DoorbellsMoveQueues : Prop :=
  (∀ (p : PortId) (qid tail : Nat) (entries : List IoEntry) (q : Sq) (s : State), qid ≠ 0 → (s.port p).refclk = true →
    (s.port p).sqs.find? (fun q => q.id = qid) = some q →
    let n := (tail + q.size - q.tail) % q.size
    (tail < q.size → q.entries.length + n < q.size → entries.length = n →
      exec (.submissionDoorbell p qid tail entries) s = .next (s.onPort p fun pt => { pt with
        sqs := pt.sqs.map fun x => if x.id = qid then { x with tail := tail, entries := x.entries ++ entries } else x })) ∧
    ((q.size ≤ tail ∨ q.size ≤ q.entries.length + n) →
      exec (.submissionDoorbell p qid tail entries) s = .next (fire s (hfeSource p 4)))) ∧
  (∀ (p : PortId) (qid head : Nat) (q : Cq) (s : State), qid ≠ 0 → (s.port p).refclk = true →
    (s.port p).cqs.find? (fun q => q.id = qid) = some q →
    let freed := (head + q.size - q.head) % q.size
    let posted := (q.tail + q.size - q.head) % q.size
    (head < q.size → freed ≤ posted → exec (.completionDoorbell p qid head) s = .next (s.onPort p fun pt => postWaiting { pt with
      cqs := pt.cqs.map fun x => if x.id = qid then { x with head := head } else x })) ∧
    ((q.size ≤ head ∨ posted < freed) → exec (.completionDoorbell p qid head) s = .next (fire s (hfeSource p 4)))) ∧
  (∀ (p : PortId) (qid n : Nat) (entries : List IoEntry) (s : State), qid ≠ 0 → (s.port p).refclk = true →
    ((∀ q ∈ (s.port p).sqs, q.id ≠ qid) → exec (.submissionDoorbell p qid n entries) s = .next (fire s (hfeSource p 4))) ∧
    ((∀ q ∈ (s.port p).cqs, q.id ≠ qid) → exec (.completionDoorbell p qid n) s = .next (fire s (hfeSource p 4)))) ∧
  (∀ (p : PortId) (qid n : Nat) (entries : List IoEntry) (s : State), (qid = 0 ∨ (s.port p).refclk = false) →
    exec (.submissionDoorbell p qid n entries) s = .next s ∧ exec (.completionDoorbell p qid n) s = .next s)

/-! ### Dies, reads and upkeep -/

/-- R243, R246, R250, R252, R263, R493, R494: where the operation that stands highest on a die may start, it starts if it is class 1 or holds a
grant: the die runs it from now, its channel's latest start is now, and no other die changes; without a grant the die asks for one, once. Where
nothing may start, nothing changes. The request that stands first is granted if it fits the budget: its weight is in use and its die active;
one that does not fit waits, which is counted. With nothing to grant, no die waits. -/
def Obligations.DieOperationsStart : Prop :=
  (∀ (die : Nat) (o : DieOp) (s : State), nextOp s (getDie s die) = some o → canStart s die o = true →
    ((o.cls = 1 ∨ o.granted = true) →
      ∃ t, exec (.arrayOperationStart die) s = .next t ∧ (getDie t die).busy = some o ∧ (getDie t die).runFrom = s.now ∧
        (getChan t (dieChan die)).lastStart = some s.now ∧ (∀ d, d ≠ die → getDie t d = getDie s d)) ∧
    (o.cls ≠ 1 → o.granted = false → die ∉ s.hk.waiting →
      exec (.arrayOperationStart die) s = .next (s.onHk fun h => { h with waiting := h.waiting ++ [die] })) ∧
    (o.cls ≠ 1 → o.granted = false → die ∈ s.hk.waiting → exec (.arrayOperationStart die) s = .next s)) ∧
  (∀ (die : Nat) (s : State), (nextOp s (getDie s die) = none ∨ ∃ o, nextOp s (getDie s die) = some o ∧ canStart s die o = false) →
    exec (.arrayOperationStart die) s = .next s) ∧
  (∀ (die : Nat) (o : DieOp) (s : State), nextGrant s = some (die, o) →
    (grantFits s o = true →
      ∃ t, exec .dieActivityGrant s = .next t ∧ t.hk.inUse = s.hk.inUse + opWeight s o.kind ∧ die ∈ t.hk.activeDies ∧
        t.hk.waits = s.hk.waits) ∧
    (grantFits s o = false → exec .dieActivityGrant s = .next (s.onHk fun h => { h with waits := satAdd 65535 h.waits 1 }))) ∧
  (∀ s : State, nextGrant s = none → exec .dieActivityGrant s = .next (s.onHk fun h => { h with waiting := [] }))

/-- R239, R247, R249, R250, R259, R341, R344, R404, R493: a program pass or an erase ends on its die, which returns its grant. A pass that
completes is counted; one that fails fails its block; an erase that passes journals its end, counts, leaves the block's pages erased and queues
the margin check; one that fails retires the block after the next block of the die has taken its place. A margin check that passes readies the
block; one that fails erases it once more, and then retires it. Without such an operation nothing changes. An erase with a host read behind it
is suspended and returns its grant, or each such read is counted once as one that waits. A suspended erase whose moment has come, on a free die
with no run-ahead sense queued, resumes with a grant of its own; any other does not. -/
def Obligations.ProgramsAndErasesRun : Prop :=
  (∀ (die : Nat) (o : DieOp) (s : State), (getDie s die).busy = some o →
    (o.granted = true → (finishOp s die o).hk.inUse = s.hk.inUse - opWeight s o.kind) ∧
    (∀ sb idx, o.kind = .coarse sb idx → exec (.programPassComplete die) s = .next (passDone (finishOp s die o) sb idx true false)) ∧
    (∀ sb idx, o.kind = .fine sb idx → exec (.programPassComplete die) s = .next (passDone (finishOp s die o) sb idx false true)) ∧
    (∀ sb idx, o.kind = .program sb idx → exec (.programPassComplete die) s = .next (passDone (finishOp s die o) sb idx true true)) ∧
    (∀ sb idx, (o.kind = .coarse sb idx ∨ o.kind = .fine sb idx ∨ o.kind = .program sb idx) →
      exec (.programFailure die) s = .next (failBlock (finishOp s die o) sb idx true)) ∧
    (∀ b u again mf, o.kind = .erase b u again →
      let n := (getBlock (finishOp s die o) die b).erases + 1
      let e := modBlock (erasePages (jot (finishOp s die o) (.eraseEnd die b n)) die b) die b fun x => { x with erases := n, unclean := false }
      exec (.eraseComplete die mf) s = .next (checkPreserve (queueOp e die (.marginCheck b u again) (eraseClass u))) ∧
      exec (.eraseFailure die) s = .next (retireBlock (replaceBlock (finishOp s die o) die b u) die b)) ∧
    (∀ b u again, o.kind = .marginCheck b u again →
      exec (.eraseComplete die false) s = .next (checkPreserve (refreshRefuge (blockReady (finishOp s die o) die b u))) ∧
      (again = false → exec (.eraseComplete die true) s = .next (checkPreserve (queueOp (finishOp s die o) die (.erase b u true) (eraseClass u)))) ∧
      (again = true → exec (.eraseComplete die true) s =
        .next (checkPreserve (retireBlock (replaceBlock (finishOp s die o) die b u) die b))))) ∧
  (∀ (die : Nat) (mf : Bool) (s : State), (getDie s die).busy = none → exec (.programPassComplete die) s = .next s ∧
    exec (.programFailure die) s = .next s ∧ exec (.eraseComplete die mf) s = .next s ∧ exec (.eraseFailure die) s = .next s) ∧
  (∀ (die b : Nat) (u : SbUse) (again : Bool) (o : DieOp) (s : State), (getDie s die).busy = some o → o.kind = .erase b u again →
    (hostReadQueued (getDie s die) = true → suspendable s (getDie s die) = true → (getBlock s die b).unclean = false →
      exec (.eraseSuspend die) s = .next (modChan (modDie (returnGrant s die o) die fun d => { d with
        busy := none, susp := some { o with granted := false }, suspends := d.suspends + 1, served := 0 }) (dieChan die)
          fun c => { c with suspends := satAdd 65535 c.suspends 1 })) ∧
    (hostReadQueued (getDie s die) = true → (suspendable s (getDie s die) = false ∨ (getBlock s die b).unclean = true) →
      ∃ t, exec (.eraseSuspend die) s = .next t ∧ (getDie t die).busy = some o ∧ (getChan t (dieChan die)).suspendRefused =
        satAdd 65535 (getChan s (dieChan die)).suspendRefused
          ((getDie s die).queue.filter fun x => decide (x.cls = 3) && isRead x.kind && !x.waited).length) ∧
    (hostReadQueued (getDie s die) = false → exec (.eraseSuspend die) s = .next s)) ∧
  (∀ (die : Nat) (o : DieOp) (s : State), (getDie s die).susp = some o →
    ((getDie s die).busy = none → resumeDue s (getDie s die) = true → (getDie s die).queue.any (·.ahead) = false →
      pauseOver s (dieChan die) 2 = true → grantFits s o = true →
      ∃ t, exec (.eraseResume die) s = .next t ∧ (getDie t die).busy = some { o with granted := true } ∧ (getDie t die).susp = none ∧
        (getDie t die).runFrom = s.now ∧ t.hk.inUse = s.hk.inUse + opWeight s o.kind) ∧
    (((getDie s die).busy ≠ none ∨ resumeDue s (getDie s die) = false ∨ (getDie s die).queue.any (·.ahead) = true ∨
      pauseOver s (dieChan die) 2 = false ∨ grantFits s o = false) → exec (.eraseResume die) s = .next s)) ∧
  (∀ (die : Nat) (s : State), (getDie s die).susp = none → exec (.eraseResume die) s = .next s)

/-- R228, R229, R234, R262, R264, R277, R280 to R284, R288, R290, R306: the read path. A sense that ends sends its jobs whose budget is over to
step 5 and hands each other waiting codeword on, behind a run-ahead read's hard sense its two soft senses follow, and a run-ahead soft sense
that no job wants is dropped. A decode in a decoder whose checks hold within the iteration limit and whose entry is the expected one succeeds,
and any other fails. An exhausted budget sends the page to step 5 unless a sense of it runs. A job of step 5 takes a buffer, and delivers
its computed column once its members are read, or asks for what it lacks. A stream that has been extended twice has its next IU prefetched
within its depth and its namespace, unless the IU is staged or not valid, while no die has two reads waiting. -/
def Obligations.ReadPathRuns : Prop :=
  (∀ (die block pos soft : Nat) (retry : Option Nat) (errs : List CwBits) (o : DieOp) (s : State), (getDie s die).busy = some o →
    o.kind = .sense block pos soft retry →
    let t := finishOp s die o
    let here := t.path.jobs.filter fun j => decide (j.die = die) && decide (j.block = block) && decide (j.pos = pos)
    let u := (here.filter (budgetOver t)).foldl (fun s j => toStep5 (dropSenses s j) j) t
    let hard := u.path.jobs.filter (wantsHard die block pos retry)
    let more := u.path.jobs.filter (wantsSoft die block pos soft)
    (soft = 0 → hard.any (·.runAhead) = false →
      exec (.senseComplete die errs) s = .next (settleReads (hard.foldl (fun s j => hardSensed s errs j) u))) ∧
    (soft = 0 → hard.any (·.runAhead) = true →
      exec (.senseComplete die errs) s = .next (settleReads (hard.foldl (fun s j => hardSensed s errs j) (queueRunAhead u die block pos o)))) ∧
    (soft ≠ 0 → more = [] → o.ahead = true →
      exec (.senseComplete die errs) s = .next (settleReads (dropSoft u (groupOf (dieChan die)) 1 (s.now - (getDie s die).runFrom)))) ∧
    (soft ≠ 0 → (more ≠ [] ∨ o.ahead = false) → exec (.senseComplete die errs) s = .next (settleReads
      (more.foldl (fun x j => softSensed x (s.now - (getDie s die).runFrom) j) u)))) ∧
  (∀ (id : Nat) (r : DecodeResult) (j : CwJob) (s : State), findJob s id = some j →
    let g := groupOf (dieChan j.die)
    let t := leaveDecoder s j
    (inDecoder s j = true → decodeChecks t j r = true → entryExpected j.expect (cwEntry r.estimate) = true →
      exec (.decodeComplete id r) s = .next (refillQueues (settleReads (decodeOk t j r)) g)) ∧
    (inDecoder s j = true → (decodeChecks t j r = false ∨ entryExpected j.expect (cwEntry r.estimate) = false) →
      exec (.decodeComplete id r) s = .next (refillQueues (settleReads (decodeFail t j (decodeChecks t j r))) g)) ∧
    (inDecoder s j = false → exec (.decodeComplete id r) s = .next s)) ∧
  (∀ (s : State) (j : CwJob) (r : DecodeResult), decodeChecks s j r = true ↔
    r.iters ≤ (if j.step = 2 ∨ j.step = 3 then s.image.ldpc.softIterMax else s.image.ldpc.hardIterMax) ∧ ldpcCheck s.image.ldpc r.estimate = true) ∧
  (∀ (id : Nat) (j : CwJob) (s : State), findJob s id = some j →
    let ofPage := fun (o : DieOp) => ∃ soft retry, o.kind = .sense j.block j.pos soft retry
    (budgetOver s j = true → (∀ o, (getDie s j.die).busy = some o → ¬ofPage o) → exec (.readRecoverBudgetExpiry id) s =
      .next (settleReads ((s.path.jobs.filter fun x => samePage x j && budgetOver s x).foldl (fun s x => toStep5 s x) (dropSenses s j)))) ∧
    ((budgetOver s j = false ∨ ∃ o, (getDie s j.die).busy = some o ∧ ofPage o) → exec (.readRecoverBudgetExpiry id) s = .next s)) ∧
  (∀ (id : Nat) (j : CwJob) (s : State), findJob s id = some j →
    (j.step ≠ 5 → exec (.reconstruction id) s = .next (settleReads s)) ∧
    (j.step = 5 → j.hasBuf = false → exec (.reconstruction id) s = .next (settleReads (takeBuffer s id))) ∧
    (∀ b ms, j.step = 5 → j.hasBuf = true → findSb s j.sb = some b → memberPlan (columnDown s b j) = some ms →
      ((∀ m ∈ ms, ∃ g ∈ j.got, g.1 = m) → exec (.reconstruction id) s = .next (settleReads (finishColumn s j ms))) ∧
      ((∃ m ∈ ms, ∀ g ∈ j.got, g.1 ≠ m) → exec (.reconstruction id) s = .next (settleReads (beginStep5 s id))))) ∧
  (∀ (p : PortId) (stream : Nat) (t : Stream) (n : Namespace) (s : State), (s.port p).streams[stream]? = some t → findNs s t.nsid = some n →
    let last := t.lastLba / lbasPerIu s n
    let iu := max t.nextIu (last + 1)
    let u := s.onPort p fun pt => { pt with streams := setNth pt.streams stream fun x => { x with nextIu := iu + 1 } }
    let staged := ∃ sub < subsPerIu s, stagedSubs s n.nsid iu sub ≠ [] ∨ stagedTrims s n.nsid iu sub ≠ []
    ((t.extensions < 2 ∨ last + s.policy.readaheadDepth < iu ∨ n.nsze / lbasPerIu s n ≤ iu) → exec (.prefetch p stream) s = .next s) ∧
    (2 ≤ t.extensions → iu ≤ last + s.policy.readaheadDepth → iu < n.nsze / lbasPerIu s n → (∀ d, demandReads s d < 2) →
      ((staged ∨ (getMap s (mapIndex s n iu)).valid = false) → exec (.prefetch p stream) s = .next u) ∧
      (¬staged → (getMap s (mapIndex s n iu)).valid = true → exec (.prefetch p stream) s = .next (prefetchIu u p stream t.usedAt n iu))))

/-- R202, R203, R206, R207, R210, R211, R215, R299, R300, R330, R401: a super-block is formed, after the uses that stand before it, for a use
that is due one, and for no other: no open one of it takes data; a handle with something to pack and no unit with room, or with less than one
eighth of RUNS left in its only unit; an SLC super-block within the cache. Nothing is formed where it cannot be. A closed one without a valid
unit or a pin, and that nothing staged refers to, is released, a journal one once no replay needs it. A reclaim unit open for ru_active_limit
is closed with filler and its events recorded, and no other. -/
def Obligations.SuperBlocksFormAndRelease : Prop :=
  (∀ (h : Nat) (s : State),
    let form := fun (t : State) (u : SbUse) (h : Nat) => formSb (formBefore t u) u h
    (sbWithRoom s .collection 0xFF 1 = none → exec (.superBlockFormation .collection h) s = .next (form s .collection 0xFF)) ∧
    (sbWithRoom s .rebuildDest 0xFF 1 = none → exec (.superBlockFormation .rebuildDest h) s = .next (form s .rebuildDest 0xFF)) ∧
    (sbWithRoom s .collection 0xFF 1 ≠ none → exec (.superBlockFormation .collection h) s = .next s) ∧
    (sbWithRoom s .rebuildDest 0xFF 1 ≠ none → exec (.superBlockFormation .rebuildDest h) s = .next s) ∧
    (openOf (closeFullJournal s) .journal 0xFF = [] →
      exec (.superBlockFormation .journal h) s = .next (form (closeFullJournal s) .journal 0xFF)) ∧
    (openOf (closeFullJournal s) .journal 0xFF ≠ [] → exec (.superBlockFormation .journal h) s = .next (closeFullJournal s)) ∧
    exec (.superBlockFormation .refuge h) s = .next s ∧
    let waits := packWaits s h = true ∨ groupWaits s (.hostRu, h) = true
    (waits → openOf s .hostRu h = [] → exec (.superBlockFormation .hostRu h) s = .next (form s .hostRu h)) ∧
    (¬waits → openOf s .hostRu h = [] → exec (.superBlockFormation .hostRu h) s = .next s) ∧
    (∀ b, openOf s .hostRu h = [b] → sbRoom s b * 8 < ruUnits s → exec (.superBlockFormation .hostRu h) s = .next (form s .hostRu h)) ∧
    (∀ b, openOf s .hostRu h = [b] → ruUnits s ≤ sbRoom s b * 8 → exec (.superBlockFormation .hostRu h) s = .next s) ∧
    (∀ a b l, openOf s .hostRu h = a :: b :: l →
      (waits → sbWithRoom s .hostRu h 1 = none → exec (.superBlockFormation .hostRu h) s = .next (form s .hostRu h)) ∧
      ((¬waits ∨ sbWithRoom s .hostRu h 1 ≠ none) → exec (.superBlockFormation .hostRu h) s = .next s)) ∧
    (packWaits s h = true → openOf s .slc h = [] → slcCount s < slcCacheSize s → slcAllowed s = true →
      exec (.superBlockFormation .slc h) s = .next (form s .slc h)) ∧
    (packWaits s h = false ∨ openOf s .slc h ≠ [] ∨ slcCacheSize s ≤ slcCount s ∨ slcAllowed s = false →
      exec (.superBlockFormation .slc h) s = .next s)) ∧
  (∀ (u : SbUse) (h : Nat) (s : State), (freeSbNum s = none ∨ chansGood s < 18 ∨ (pickChans s 18 []).length < 18 ∨
    formationAllowed s u = false ∨ s.journal.anchor.clean = true ∨ mediaLive s = false) → formSb s u h = s) ∧
  (∀ (sb : Nat) (b : SuperBlock) (s : State), findSb s sb = some b →
    (b.use ≠ .journal → b.st = .closed → b.valid = 0 → b.pins = 0 → sbReferenced s b = false →
      exec (.superBlockRelease sb) s = .next (checkUrgent (checkPreserve (releaseSb s sb)))) ∧
    (b.use = .journal → b.st = .closed → b.valid = 0 → b.pins = 0 → sbReferenced s b = false → journalSpent s b = true →
      ∃ t, exec (.superBlockRelease sb) s = .next (checkUrgent (checkPreserve t)) ∧ sb ∉ t.journal.anchor.sbs ∧
        (∀ g ∈ t.journal.segments, g.sb ≠ sb) ∧ t.media = (releaseSb s sb).media) ∧
    ((b.st ≠ .closed ∨ b.valid ≠ 0 ∨ b.pins ≠ 0 ∨ sbReferenced s b = true ∨ (b.use = .journal ∧ journalSpent s b = false)) →
      exec (.superBlockRelease sb) s = .next s)) ∧
  (∀ (sb : Nat) (b : SuperBlock) (s : State), findSb s sb = some b →
    let due := b.use = .hostRu ∧ b.st = .isOpen ∧ s.policy.ruActiveLimit ≠ 0 ∧ elapsed s b.openedAt (s.policy.ruActiveLimit * 3600000000) = true
    (due → exec (.ruActiveLimitExpiry sb) s = .next (fdpEvent (fdpEvent (closeUnit s sb none) 2 b.handle) 6 b.handle)) ∧
    (¬due → exec (.ruActiveLimitExpiry sb) s = .next s))

/-- R199, R200, R211, R317, R319, R322, R331, R332, R337, R346: the drive becomes idle after gc_idle_ms without I/O; a victim is chosen within
the limit, and no other; a source super-block's next valid unit is read, and for relocation counted; a wear move takes the least worn
collectable super-block while the spread asks for it; an IU that is due a fold, and not in one, is folded; a closed SLC super-block becomes a
source of folds; rebuild copies the units of the next stripe and ends when none is left. -/
def Obligations.CollectionAndRebuildWork : Prop :=
  (∀ s : State, let due := noIo s = true ∧ elapsed s s.upkeep.idleSince (s.policy.gcIdleMs * 1000) = true
    (due → exec .idleEntry s = .next (s.onUpkeep fun u => { u with idle := true })) ∧ (¬due → exec .idleEntry s = .next s)) ∧
  (∀ s : State, let t := checkUrgent s
    let may := upkeepRuns t = true ∧ victims t < victimLimit t
    (∀ b, may → nextVictim t = some b → exec .collectionStart s = .next (modSb t b.num fun x => { x with victim := true, copied := 0 })) ∧
    ((¬may ∨ nextVictim t = none) → exec .collectionStart s = .next t)) ∧
  (∀ (sb : Nat) (b : SuperBlock) (s : State), findSb s sb = some b →
    (∀ kind u, upkeepRuns s = true → copyKindOf s b = some kind → kind ≠ .scrub →
      minBy unitKey ((sbUnits s sb).filter fun x => !inCopy s x) = some u → exec (.copy sb) s = .next (startCopy s kind 7 u)) ∧
    (∀ u, upkeepRuns s = true → copyKindOf s b = some .scrub →
      minBy unitKey (((sbUnits s sb).filter fun x => !inCopy s x).filter (toRelocate s sb)) = some u →
      (startCopy s .scrub 7 u).path.copyNext ≠ s.path.copyNext →
      exec (.copy sb) s = .next (modSb (startCopy s .scrub 7 u) sb fun b => { b with relocated := b.relocated + 1 })) ∧
    ((upkeepRuns s = false ∨ copyKindOf s b = none) → exec (.copy sb) s = .next s)) ∧
  (∀ s : State,
    let level := decide (s.policy.wearSpread < eraseSpread s) || (s.upkeep.levelling && decide (s.policy.wearSpread * 3 / 4 < eraseSpread s))
    let t := s.onUpkeep fun u => { u with levelling := level }
    let may := upkeepRuns t = true ∧ t.mediaMode = 0 ∧ gcUrgentNow t = false ∧ t.upkeep.levelling = true ∧ t.upkeep.wearing = none
    (∀ b, may → minBy (fun b => sbErases t b * 4294967296 + b.serial) (t.media.sbs.filter (collectable t)) = some b →
      exec .wearMove s = .next (modSb (t.onUpkeep fun x => { x with wearing := some b.num }) b.num fun x => { x with copied := 0 })) ∧
    (¬may → exec .wearMove s = .next t)) ∧
  (∀ (nsid iu : Nat) (n : Namespace) (s : State), findNs s nsid = some n →
    let mi := mapIndex s n iu
    let may := upkeepRuns s = true ∧ foldDue s mi = true ∧ (∀ c ∈ s.path.copies, c.kind = .fold → c.nsid = nsid → c.iu = iu → c.dead = true) ∧
      (getMap s mi).poisoned = false ∧ copyRoom s (subsPerIu s) = true
    (may → exec (.fold nsid iu) s = .next (startFold s n iu)) ∧ (¬may → exec (.fold nsid iu) s = .next s)) ∧
  (∀ (sb : Nat) (b : SuperBlock) (s : State), findSb s sb = some b →
    let may := b.use = .slc ∧ b.st = .closed ∧ upkeepRuns s = true ∧ (s.upkeep.idle = true ∨ slcOver s = true)
    (may → exec (.slcFold sb) s = .next (modSb s sb fun x => { x with victim := true })) ∧ (¬may → exec (.slcFold sb) s = .next s)) ∧
  (∀ s : State, rebuildUnits s = [] →
    ((s.upkeep.rebuilding = true ∨ s.upkeep.degraded = true) → exec .rebuild s =
      .next (notice (s.onUpkeep fun u => { u with rebuilding := false, degraded := false, exposedNoticed := false }) 0xC6)) ∧
    (s.upkeep.rebuilding = false → s.upkeep.degraded = false → exec .rebuild s = .next s)) ∧
  (∀ s : State, rebuildUnits s ≠ [] →
    let t := s.onUpkeep fun u => { u with rebuilding := true }
    let mine := fun (x y : SuperBlock × SrcUnit) => decide (y.1.num = x.1.num) && decide (unitStripe t y.2 = unitStripe t x.2) && !inCopy t y.2
    (∀ x, rebuildRuns t = true → minBy (rebuildKey t) ((rebuildUnits s).filter fun y => !inCopy t y.2) = some x →
      exec .rebuild s = .next (((rebuildUnits s).filter (mine x)).foldl (fun s y => startCopy s .rebuild (rebuildClass s) y.2) t)) ∧
    (rebuildRuns t = false → exec .rebuild s = .next t))

/-- R347 to R350: while scrub runs, the next page of the pass, and no other, is read and counted, its super-block's last page moves the pass on, segments and
chunks follow the super-blocks, and a pass with nothing left ends; a page whose channel resets waits. A page decoded only by reconstruction has its
whole stripe relocated, and one that needed step 2 or many iterations its own units. A super-block with scrub_sb_refresh relocations becomes a
class 2 victim and is relocated from no more. A pass that outlasts scrub_period counts one overrun. -/
def Obligations.PatrolScrubRuns : Prop :=
  (∀ (page : Nat) (s : State), scrubRuns s = false ∨ page ≠ s.upkeep.scrubPages → exec (.scrubRead page) s = .next s) ∧
  (∀ (b : SuperBlock) (s : State), scrubRuns s = true → minBy (·.num) (scrubSbs s) = some b →
    let t := if s.upkeep.scrubAt = 0 ∨ b.num ≠ s.upkeep.scrubSb then setScrubRate (s.onUpkeep fun u => { u with scrubSb := b.num, scrubAt := 0 }) else s
    let n := t.upkeep.scrubAt
    let u := scrubTake t b (n / 18) (n % 18) none
    (scrubWaits t b (n / 18) (n % 18) = true → exec (.scrubRead s.upkeep.scrubPages) s = .next t) ∧
    (scrubWaits t b (n / 18) (n % 18) = false → n + 1 < sbPages u b → exec (.scrubRead s.upkeep.scrubPages) s = .next u) ∧
    (scrubWaits t b (n / 18) (n % 18) = false → sbPages u b ≤ n + 1 → exec (.scrubRead s.upkeep.scrubPages) s = .next (noteScrub u (b.num + 1))) ∧
    u.upkeep.scrubPages = s.upkeep.scrubPages + 1) ∧
  (∀ s : State, scrubRuns s = true → scrubSbs s = [] →
    ((scrubSystem s)[s.upkeep.scrubSys]? = none → exec (.scrubRead s.upkeep.scrubPages) s = .next (endScrubPass s)) ∧
    (∀ x, (scrubSystem s)[s.upkeep.scrubSys]? = some x →
      (systemPlace s x = none → exec (.scrubRead s.upkeep.scrubPages) s = .next (nextSystem s)) ∧
      (∀ sb first b, systemPlace s x = some (sb, first) → findSb s sb = some b →
        let n := s.upkeep.scrubAt
        let u := scrubTake s b (first + n / 18) (n % 18) (some x)
        (scrubWaits s b (first + n / 18) (n % 18) = true → exec (.scrubRead s.upkeep.scrubPages) s = .next s) ∧
        (scrubWaits s b (first + n / 18) (n % 18) = false → n + 1 < systemPages x → exec (.scrubRead s.upkeep.scrubPages) s = .next u) ∧
        (scrubWaits s b (first + n / 18) (n % 18) = false → systemPages x ≤ n + 1 → exec (.scrubRead s.upkeep.scrubPages) s = .next (nextSystem u))))) ∧
  (∀ (r : ScrubRead) (s : State), r.system = none →
    ((∃ o ∈ r.outs, 5 ≤ o.2.1) → scrubPage s r = queueRelocation s r.sb r.k 18) ∧
    ((∀ o ∈ r.outs, o.2.1 < 5) → (∃ o ∈ r.outs, 2 ≤ o.2.1 ∨ s.policy.scrubRefreshIters ≤ o.2.2) →
      scrubPage s r = queueRelocation s r.sb r.k r.member) ∧
    ((∀ o ∈ r.outs, o.2.1 < 2 ∧ o.2.2 < s.policy.scrubRefreshIters) → scrubPage s r = s)) ∧
  (∀ (sb : Nat) (b : SuperBlock) (s : State), findSb s sb = some b →
    (s.policy.scrubSbRefresh ≤ b.relocated → ∃ t, exec (.scrubSbRefresh sb) s = .next t ∧ sb ∈ t.upkeep.class2 ∧
      (∀ x ∈ t.upkeep.relocate, x.1 ≠ sb) ∧ (∀ k m, queueRelocation t sb k m = t)) ∧
    (b.relocated < s.policy.scrubSbRefresh → exec (.scrubSbRefresh sb) s = .next s)) ∧
  (∀ s : State,
    (s.upkeep.overrunCounted = false → s.upkeep.scrubStart + s.policy.scrubPeriod * 1440 ≤ powerOnMin s →
      exec .scrubPeriodOverrun s = .next (s.onUpkeep fun u => { u with overruns := u.overruns + 1, overrunCounted := true })) ∧
    ((s.upkeep.overrunCounted = true ∨ powerOnMin s < s.upkeep.scrubStart + s.policy.scrubPeriod * 1440) →
      exec .scrubPeriodOverrun s = .next s))

/-! ### Journal, recovery, power and links -/

/-- R388, R394, R398, R399, R402, R405, R412 to R414, R566: the journal's own work and recovery. At its ceiling MAP reserves 2^20 numbers by
a record of the new one. A chunk is closed journal_flush_ms after its first record. A checkpoint segment that is due, in turn or because scrub found
it failing, is written from the next record's position into the ready journal super-block with room for it, CKPT_DONE follows, and the next in
turn is due two chunks later. A refuge set whose versions are all SAFE is released and its blocks are erased. Recovery ends with the drive
running and CSTS.RDY following CC.EN, the clean flag cleared; 25 s after CC.EN the controller becomes ready without waiting. Before its
moment each of these changes nothing. -/
def Obligations.JournalAndRecoveryWork : Prop :=
  ((∀ s : State,
    (Running s → s.path.ceiling < s.path.nextSeq → let top := s.path.ceiling + 1048576
      exec .seqReserve s = .next ((jot s (.seqReserve top)).onPath fun p => { p with ceiling := top })) ∧
    ((¬Running s ∨ s.path.nextSeq ≤ s.path.ceiling) → exec .seqReserve s = .next s)) ∧
  (∀ (c : Chunk) (t : Nat) (s : State), s.journal.chunks.find? (fun c => !c.closed) = some c → c.firstAt = some t →
    (mediaLive s = true → elapsed s t (s.policy.journalFlushMs * 1000) = true → exec .journalFlushExpiry s = .next (closeChunk s)) ∧
    ((mediaLive s = false ∨ elapsed s t (s.policy.journalFlushMs * 1000) = false) → exec .journalFlushExpiry s = .next s)) ∧
  (∀ (b : SuperBlock) (s : State), segmentDue s = true → journalSb s = some b → b.nextSlot + 516 ≤ stripesIn s 0 * 4 →
    let i := dueSegment s
    ∃ u g, exec .checkpointSegmentStart s =
        .next (jot u (.ckptDone i g.startChunk g.startRec b.num (b.nextSlot / 4 / diesPerChan s))) ∧
      g ∈ u.journal.segments ∧ g.index = i ∧ g.body = segBody s i ∧ g.sb = b.num ∧ g.done = true ∧
      (∀ c, s.journal.chunks.find? (fun c => !c.closed) = some c → g.startChunk = c.serial ∧ g.startRec = c.recs.length + 1) ∧
      (s.journal.chunks.find? (fun c => !c.closed) = none → g.startChunk = s.journal.nextSerial ∧ g.startRec = 0) ∧
      (s.upkeep.segAgain = [] → i = s.journal.nextSegment ∧ u.journal.chunksSince = s.journal.chunksSince - 2 ∧
        u.journal.nextSegment = (i + 1) % segmentCount s) ∧
      (∀ k l, s.upkeep.segAgain = k :: l → i = k ∧ u.upkeep.segAgain = l ∧ u.journal.chunksSince = s.journal.chunksSince ∧
        u.journal.nextSegment = s.journal.nextSegment)) ∧
  (∀ s : State, (segmentDue s = false ∨ journalSb s = none ∨ ∃ b, journalSb s = some b ∧ stripesIn s 0 * 4 < b.nextSlot + 516) →
    exec .checkpointSegmentStart s = .next s) ∧
  (∀ (set : Nat) (f : Flush) (s : State),
    let r := if set = 0 then s.journal.setA else s.journal.setB
    r.flush = some f →
    (Running s → r.st = .inUse → stagedFrom s f.serial = false →
      exec (.refugeSetRelease set) s = .next (refreshRefuge (putAnchor (r.blocks.foldl
        (fun s x => queueOp s x.1 (.erase x.2 .refuge false) (eraseClass .refuge))
        (s.onJournal (putSet set { r with st := .releasing, toErase := r.blocks, flush := none }))) id))) ∧
    ((¬Running s ∨ r.st ≠ .inUse ∨ stagedFrom s f.serial = true) → exec (.refugeSetRelease set) s = .next s))) ∧
  ((∀ (env : RecoveryEnv) (s : State), s.run = .recovery → s.fh.latch = false → s.boot.stage = 7 →
    exec (.recovery env) s = .next (drydownAgain (sanitizeAgain (takePs (beReady (restore s env) env)))) ∧
    (s.journal.anchor.clean = true → (restore s env).journal.anchor.clean = false)) ∧
  (∀ (env : RecoveryEnv) (s : State), (beReady s env).run = .running ∧ (beReady s env).boot.stage = 8 ∧
    ∀ p, ((beReady s env).port p).rdy = (s.port p).ccEn) ∧
  (∀ (env : RecoveryEnv) (s : State), (s.run ≠ .recovery ∨ s.fh.latch = true ∨ s.boot.stage ≠ 7) → exec (.recovery env) s = .next s) ∧
  (∀ (p : PortId) (s : State),
    let due := s.run = .recovery ∧ (s.port p).ccEn = true ∧ (s.port p).rdy = false ∧ elapsed s (s.port p).ccEnAt 25000000 = true
    (due → exec (.recoveryTimeout p) s =
      .next ((s.onPort p fun pt => { pt with rdy := true }).onBoot fun b => { b with lateRdy := true })) ∧
    (¬due → exec (.recoveryTimeout p) s = .next s)))

/-- R371, R376, R382, R384, R524, R543, R545, R546, R549, R550, R558, R568: supplies and the pins POR_N and PWR_FAIL_N. With valid supplies the
straps are sampled, once in a power cycle, and start-up begins unless POR_N is low; a supply's fall resets. A power failure in operation
flushes where PLS is armed and the clean flag is clear, and otherwise writes nothing; in SAFE, in a flush and in reset it is only noted. After the
flush the controller idles, stays in SAFE with its cause kept, or resets for POR_N, which acts as a power failure does and holds the
controller. It starts again when the pins allow. -/
def Obligations.PowerFailsAndReturns : Prop :=
  (∀ (env : StartEnv) (board : List (Nat × BitVec 8)) (s : State),
    (s.run = .inReset → s.boot.porLow = false →
      exec (.suppliesValid env board) s = .next (startUp (sampleStraps (boardWrites s board) env) env 0)) ∧
    (s.run = .inReset → s.boot.porLow = true →
      exec (.suppliesValid env board) s = .next { sampleStraps (boardWrites s board) env with run := .porHeld }) ∧
    (s.run ≠ .inReset → exec (.suppliesValid env board) s = .next s)) ∧
  (∀ s : State, exec .supplyFall s = .next ((enterReset s false 0).onBoot fun b => { b with strapsSampled := false })) ∧
  (∀ s : State,
    let u := s.onJournal fun j => { j with pwrFail := true }
    let works := (s.run = .running ∨ s.run = .recovery ∨ s.run = .subsystemReset) ∧ s.fh.latch = false
    (works → s.journal.pls = 1 → s.journal.anchor.clean = false → exec .pwrFailNAssert s = .next { beginFlush u 1 with run := .flushing }) ∧
    (works → (s.journal.pls ≠ 1 ∨ s.journal.anchor.clean = true) → exec .pwrFailNAssert s = .next { noFlush u with run := .idle }) ∧
    (¬works → exec .pwrFailNAssert s = .next u)) ∧
  (∀ s : State,
    let e := endFlush s
    let f := if e.fh.latch then e.onBoot fun b => { b with prevSafe := e.fh.safe } else e
    (s.journal.pls = 2 → f.journal.porAfter = true → exec .refugeFlushEnd s = .next (holdInReset f)) ∧
    (s.journal.pls = 2 → f.journal.porAfter = false → f.run = .safe → exec .refugeFlushEnd s = .next f) ∧
    (s.journal.pls = 2 → f.journal.porAfter = false → f.run ≠ .safe → exec .refugeFlushEnd s = .next { f with run := .idle }) ∧
    (s.journal.pls ≠ 2 → exec .refugeFlushEnd s = .next s)) ∧
  (∀ (env : StartEnv) (s : State), let u := s.onJournal fun j => { j with pwrFail := false }
    (s.run = .idle → exec (.pwrFailNRelease env) s = .next (startUp (enterReset u false s.now) env 0)) ∧
    (s.run ≠ .idle → exec (.pwrFailNRelease env) s = .next u)) ∧
  (∀ s : State, s.boot.porLow = false →
    let u := s.onBoot fun b => { b with porLow := true }
    let after := fun (t : State) => t.onJournal fun j => { j with porAfter := true }
    ((s.run = .inReset ∨ s.run = .porHeld) → exec .porNAssert s = .next u) ∧
    ((s.run = .flushing ∨ (s.run ≠ .inReset ∧ s.run ≠ .porHeld ∧ s.journal.pls = 2)) → exec .porNAssert s = .next (after u)) ∧
    (s.run ≠ .inReset → s.run ≠ .porHeld → s.run ≠ .flushing → s.journal.pls ≠ 2 →
      (s.fh.latch = false → s.journal.pls = 1 → s.journal.anchor.clean = false →
        exec .porNAssert s = .next (after { beginFlush u 1 with run := .flushing })) ∧
      ((s.fh.latch = true ∨ s.journal.pls ≠ 1 ∨ s.journal.anchor.clean = true) → exec .porNAssert s = .next (holdInReset u)))) ∧
  (∀ s : State, s.boot.porLow = true → exec .porNAssert s = .next s) ∧
  (∀ (env : StartEnv) (board : List (Nat × BitVec 8)) (s : State),
    let u := (boardWrites s board).onBoot fun b => { b with porLow := false }
    (s.run = .porHeld → exec (.porNRelease env board) s = .next (startUp u env s.boot.nextCause)) ∧
    (s.run = .inReset → exec (.porNRelease env board) s = .next u) ∧
    (s.run ≠ .porHeld → s.run ≠ .inReset → exec (.porNRelease env board) s = .next s)) ∧
  (∀ (env : StartEnv) (s : State),
    (s.run = .pfWait →
      exec (.pfWaitEnd env) s = .next (discover env { s.onJournal (fun j => { j with pwrFail := false }) with run := .recovery })) ∧
    (s.run ≠ .pfWait → exec (.pfWaitEnd env) s = .next s))

/-- R73, R90, R92, R94, R95, R159, R251, R414, R525, R567, R568: shutdown, NVM subsystem reset and power states. The owner's notification closes
stripes, and the clean flag is set once every number is Sealed; the observer's, or one in SAFE, only shows as complete. A subsystem reset by the
owner, or by either port in SAFE, stops the ports unless a flush runs, and closes stripes once recovery has ended outside SAFE; once
staging is then on the media, internal reset and start-up follow with CSTS.NSSRO set on both controllers, which a host clears on its own. An idle
port's selection becomes non-operational where its host has enabled the feature. The entry into PS3 or PS4 ends when no die is busy or holds a
suspended erase and, for PS4, everything is Sealed, and DRAM then enters self-refresh, which the exit ends. -/
def Obligations.ShutdownResetAndPowerStates : Prop :=
  ((∀ (p : PortId) (s : State),
    (hfeRuns s p = true → (s.port p).ccEn = true → s.fh.latch = false → s.own.owner = p → exec (.shutdownNotification p) s =
      .next (closeUpTo (s.onPort p fun pt => { pt with ccShn := 1, shst := 1 }) (s.path.nextSeq - 1))) ∧
    (hfeRuns s p = true → (s.port p).ccEn = true → (s.fh.latch = true ∨ s.own.owner ≠ p) → exec (.shutdownNotification p) s =
      .next (s.onPort p fun pt => { pt with ccShn := 1, shst := 2 })) ∧
    ((hfeRuns s p = false ∨ (s.port p).ccEn = false) → exec (.shutdownNotification p) s = .next s)) ∧
  (∀ s : State, let due := Running s ∧ (s.port s.own.owner).shst = 1 ∧ allSealed s = true
    (due → exec .shutdownComplete s = .next (markClean ((advanceHorizon s).onPort s.own.owner fun pt => { pt with shst := 2 }))) ∧
    (¬due → exec .shutdownComplete s = .next s)) ∧
  (∀ (p : PortId) (s : State),
    let may := hfeRuns s p = true ∧ (s.own.owner = p ∨ s.fh.latch = true)
    let u := (stopPorts s).onBoot fun b => { b with nextCause := 2 }
    let on := s.run = .running ∨ s.run = .recovery ∨ s.run = .safe ∨ s.run = .pfWait
    (may → on → s.journal.pls ≠ 2 → s.fh.latch = false → s.boot.stage = 8 →
      exec (.nvmSubsystemReset p) s = .next { closeUpTo u (u.path.nextSeq - 1) with run := .subsystemReset }) ∧
    (may → on → s.journal.pls ≠ 2 → (s.fh.latch = true ∨ s.boot.stage ≠ 8) →
      exec (.nvmSubsystemReset p) s = .next { u with run := .subsystemReset }) ∧
    ((¬may ∨ ¬on ∨ s.journal.pls = 2) → exec (.nvmSubsystemReset p) s = .next s)) ∧
  (∀ (env : StartEnv) (s : State),
    let writes := s.fh.latch = false ∧ s.boot.stage = 8
    let go := fun (u : State) => (startUp (enterReset u true s.now) env s.boot.nextCause).onBoth fun p => { p with nssro := true }
    (s.run = .subsystemReset → writes → allSealed s = true → exec (.nssrStagingWritten env) s = .next (go (markClean (advanceHorizon s)))) ∧
    (s.run = .subsystemReset → ¬writes → exec (.nssrStagingWritten env) s = .next (go s)) ∧
    ((s.run ≠ .subsystemReset ∨ (writes ∧ allSealed s = false)) → exec (.nssrStagingWritten env) s = .next s)) ∧
  (∀ (p : PortId) (s : State), exec (.cstsNssroClear p) s = .next (s.onPort p fun pt => { pt with nssro := false }))) ∧
  ((∀ (p : PortId) (ps : Nat) (s : State),
    let may := (ps = 3 ∨ ps = 4) ∧ tget 0 (s.port p).features 0x0C % 2 = 1 ∧ (s.port p).cmds = [] ∧ adminLive s p = true ∧ s.fh.latch = false
    (may → exec (.apst p ps) s = .next (takePs (s.onPort p fun pt => { pt with selPs := ps }))) ∧ (¬may → exec (.apst p ps) s = .next s)) ∧
  (∀ (t : Nat) (s : State), s.misc.psEntering = some t →
    let still := ∀ e ∈ s.media.dies, e.2.busy = none ∧ e.2.susp = none
    let u := s.onMisc fun m => { m with psEntering := none }
    (t ≠ 4 → (t < 3 ∨ still) → exec .powerStateEntryEnd s = .next (takePs u)) ∧
    (t = 4 → still → allSealed s = true → exec .powerStateEntryEnd s = .next (takePs (selfRefreshAll (advanceHorizon u)))) ∧
    (3 ≤ t → ¬still → exec .powerStateEntryEnd s = .next s) ∧ (t = 4 → allSealed s = false → exec .powerStateEntryEnd s = .next s)) ∧
  (∀ (t : Nat) (s : State), s.misc.psExiting = some t →
    exec .powerStateExitEnd s = .next (takePs ({ s with dcs := tvals {} s.dcs fun (d : Dc) =>
      if d.st = DcState.selfRefresh then { d with st := .active } else d }.onMisc fun m => { m with drivePs := t, psExiting := none }))) ∧
  (∀ s : State, (s.misc.psEntering = none → exec .powerStateEntryEnd s = .next s) ∧
    (s.misc.psExiting = none → exec .powerStateExitEnd s = .next s)))

/-- R30, R54, R56 to R58, R63, R64, R66, R97, R103, R106, R119, R160, R499, R547, R548, R561, R562, R565: the pins and the link of a port, its
controller's enable, and configuration requests. PERST# low for 1 us ends the link, up to 100 ns does not, and in between a free value says.
A link that ends resets the port's controller and tells OWN. The link trains, with REFCLK and without PERST#, to the rates and widths of
its port and in no other case. CC.EN sets and clears the controller; a held one stays. A configuration request before the identity is loaded, or
with the HFE not running, changes nothing; after it, each takes its value or answers what it reads, and L2 ends an old owner's writes in a handover.
The bits and places of configuration space are the base specification's (log entry 3); the answers' form is the model's. -/
def Obligations.LinksAndControllersAnswer : Prop :=
  ((∀ (p : PortId) (lowNs : Nat) (s : State),
    let low := fun (t : State) => t.onPort p fun pt => { pt with perst := true, wake := false, replayCount := 0, fecCorrected := 0 }
    let hit := fun (t : State) => if hfePowered t p then linkEnds (low t) p .detect else low t
    let u := { s with freeCtr := s.freeCtr + 1 }
    (1000 ≤ lowNs → exec (.perstAssert p lowNs) s = .next (hit s)) ∧
    (lowNs ≤ 100 → exec (.perstAssert p lowNs) s = .next s) ∧
    (100 < lowNs → lowNs < 1000 → exec (.perstAssert p lowNs) s = .next (if Config.freePulse s.freeCtr then hit u else u))) ∧
  (∀ (p : PortId) (s : State),
    exec (.perstDeassert p) s = .next (s.onPort p fun pt => if pt.perst then downIn .detect { pt with perst := false } else pt)) ∧
  (∀ (p : PortId) (s : State), exec (.refclkLoss p) s = .next (s.onPort p fun pt => { pt with refclk := false }) ∧
    exec (.refclkReturn p) s = .next (s.onPort p fun pt => { pt with refclk := true })) ∧
  (∀ (p : PortId) (s : State),
    (hfePowered s p = true → linkIsDown (s.port p) = false → exec (.linkDown p) s = .next (linkEnds s p .detect)) ∧
    ((hfePowered s p = false ∨ linkIsDown (s.port p) = true) → exec (.linkDown p) s = .next s) ∧
    (hfeRuns s p = true → linkUp (s.port p) = true →
      exec (.hotReset p) s = .next (linkEnds s p .hotReset) ∧ exec (.linkDisable p) s = .next (linkEnds s p .disabled)) ∧
    ((hfeRuns s p = false ∨ linkUp (s.port p) = false) → exec (.hotReset p) s = .next s ∧ exec (.linkDisable p) s = .next s)) ∧
  (∀ (p : PortId) (speed width : Nat) (flit rev : Bool) (s : State),
    let may := hfeRuns s p = true ∧ (s.port p).perst = false ∧ trains s speed width flit = true
    (may → exec (.linkUp p speed width flit rev) s = .next (takePs (ownerUp (s.onPort p fun pt => { pt with
      ltssm := .l0, speed := speed, width := width, flit := flit, laneReversed := rev, inL2 := false }) p))) ∧
    (¬may → exec (.linkUp p speed width flit rev) s = .next s) ∧
    (trains s speed width flit = true → 1 ≤ speed ∧ speed ≤ 6 ∧ (speed = 6 → flit = true) ∧
      (width = 1 ∨ width = 2 ∨ (width = 4 ∧ s.boot.strapPort = false)))) ∧
  (∀ (p : PortId) (ams : Nat) (s : State),
    let reset := controllerReset (s.onPort p fun pt => { pt with d3hot := false, pmeEn := false }) p
    (hfeRuns s p = true → exec (.functionLevelReset p) s = .next reset) ∧
    (hfeRuns s p = true → (s.port p).ccEn = true → exec (.ccEnClear p) s = .next (controllerReset s p)) ∧
    (hfeRuns s p = true → (s.port p).ccEn = false → (s.port p).resetHeld = false → exec (.ccEnSet p ams) s = .next (s.onPort p fun pt => { pt with
      ccEn := true, ccAms := ams, ccEnAt := s.now, rdy := decide (s.run = .running) || s.fh.latch })) ∧
    ((s.port p).ccEn = false → exec (.ccEnClear p) s = .next s) ∧
    (((s.port p).ccEn = true ∨ (s.port p).resetHeld = true) → exec (.ccEnSet p ams) s = .next s) ∧
    (hfeRuns s p = false → exec (.functionLevelReset p) s = .next s ∧ exec (.ccEnClear p) s = .next s ∧ exec (.ccEnSet p ams) s = .next s))) ∧
  ((∀ (p : PortId) (r : CfgReq) (s : State), (configIdentity s = none ∨ hfeRuns s p = false) → exec (.configurationRequest p r) s = .next s) ∧
  (∀ (p : PortId) (i : Identity) (s : State), configIdentity s = some i → hfeRuns s p = true →
    let port := fun (f : Port → Port) => s.onPort p f
    let dual := s.boot.strapPort
    exec (.configurationRequest p .readId) s = .next (port fun pt => { pt with hostData := cfgBytes i }) ∧
    (∀ f, exec (.configurationRequest p (.readSupport f)) s = .next (port fun pt => { pt with hostData := leBytes 1 (pcieSupport dual f) })) ∧
    (∀ n, exec (.configurationRequest p (.readBar n)) s =
      .next (port fun pt => { pt with hostData := leBytes 4 (barShape n).1 ++ leBytes 1 (barShape n).2 })) ∧
    (∀ f on, exec (.configurationRequest p (.setControl f on)) s = .next (port (setControl dual f on)) ∧
      exec (.configurationRequest p (.setL1 on)) s = .next (port (setL1 on)) ∧
      exec (.configurationRequest p (.setL0p on)) s = .next (port (setL0p dual on)) ∧
      exec (.configurationRequest p (.setPmeEn on)) s = .next (port fun pt => { pt with pmeEn := on }) ∧
      exec (.configurationRequest p (.setPowerD3hot on)) s = .next (port fun pt => { pt with d3hot := on })) ∧
    (∀ b, exec (.configurationRequest p (.setMaxPayload b)) s =
        .next (if sizeOk 128 1024 b then port fun pt => { pt with maxPayload := b } else s) ∧
      exec (.configurationRequest p (.setMaxReadRequest b)) s =
        .next (if sizeOk 128 4096 b then port fun pt => { pt with maxReadReq := b } else s)) ∧
    exec (.configurationRequest p .initiateFlr) s =
      .next (controllerReset (port fun pt => { pt with d3hot := false, pmeEn := false }) p) ∧
    (linkUp (s.port p) = true → exec (.configurationRequest p (.setL2 true)) s =
      .next (takePs (endHandoverWrites (ownerDown (port fun pt => { downIn .l2 pt with inL2 := true }) p) p))) ∧
    (linkUp (s.port p) = false → exec (.configurationRequest p (.setL2 true)) s = .next s) ∧
    ((s.port p).inL2 = true → exec (.configurationRequest p (.setL2 false)) s =
      .next (port fun pt => { downIn .detect pt with inL2 := false })) ∧
    ((s.port p).inL2 = false → exec (.configurationRequest p (.setL2 false)) s = .next s)))

/-! ### Housekeeping and the fault hub -/

/-- R474, R476 to R478, R484, R489, R491: housekeeping. A round starts when its period is over, and one still running makes the next
late, which is reported once; a round ends with its readings judged, and the owed one starts; an input held for 60 s is excluded; the
level steps when the step time is over; the entry into HALTED ends when no die works or is suspended; and VAUX or VIO leaving its
window on a side it was not on fires the source once, until it is back in its window. Before its moment each of these changes nothing. -/
def Obligations.HousekeepingRuns : Prop :=
  (∀ (t : Nat) (s : State), s.hk.roundAt = some t →
    let due := hkRuns s = true ∧ elapsed s t (roundUs s) = true
    (due → s.hk.inRound = false →
      exec .hkRoundStart s = .next (s.onHk fun h => { h with inRound := true, roundAt := some s.now, late := false })) ∧
    (due → s.hk.inRound = true → s.hk.late = false →
      exec .hkRoundStart s = .next (fire (s.onHk fun h => { h with late := true }) (hkSource 22))) ∧
    ((¬due ∨ (s.hk.inRound = true ∧ s.hk.late = true)) → exec .hkRoundStart s = .next s)) ∧
  (∀ s : State, s.hk.roundAt = none → exec .hkRoundStart s = .next s) ∧
  (∀ (d : RoundData) (s : State),
    let u := closeRound s (readRound s d)
    let v := applyLevel (judgeWarn (judgeHalt (recordEvents s (stepLevel (latchTmt u)))))
    (s.hk.inRound = true → hkRuns s = true → exec (.hkRoundEnd d) s = .next (if v.hk.late then beginRound v else v)) ∧
    (u.hk.inRound = false ∧ u.hk.endedAt = some s.now ∧ u.hk.anyRound = true) ∧
    ((s.hk.inRound = false ∨ hkRuns s = false) → exec (.hkRoundEnd d) s = .next s)) ∧
  (∀ (i : Nat) (s : State),
    (∀ t, (nth {} s.hk.inputs i).heldAt = some t → t + 60000000 ≤ s.now →
      exec (.inputHoldExpiry i) s = .next (s.onHk fun h => { h with inputs := setNth h.inputs i fun x =>
        { x with held := false, warn := false, thr := false, shut := false } })) ∧
    ((∀ t, (nth {} s.hk.inputs i).heldAt = some t → s.now < t + 60000000) → exec (.inputHoldExpiry i) s = .next s)) ∧
  (∀ s : State, let due := hkRuns s = true ∧ s.hk.anyRound = true ∧ elapsed s s.hk.lastStep (1000 * s.policy.throttleStepMs) = true
    (due → exec .throttleStep s = .next (applyLevel (stepLevel s))) ∧ (¬due → exec .throttleStep s = .next s)) ∧
  (∀ s : State,
    let due := s.hk.halt = true ∧ s.hk.haltEntry = true ∧ ∀ e ∈ s.media.dies, e.2.busy = none ∧ e.2.susp = none
    (due → exec .haltEntryEnd s = .next (applyLevel (s.onHk fun h => { h with haltEntry := false }))) ∧
    (¬due → exec .haltEntryEnd s = .next s)) ∧
  (∀ (above : Bool) (s : State), let side := if above then 2 else 1
    (s.hk.vioOut ≠ side →
      exec (.vauxVio true above) s = .next (fire (s.onHk fun h => { h with vioOut := side }) (hkSource 17))) ∧
    (s.hk.vauxOut ≠ side →
      exec (.vauxVio false above) s = .next (fire (s.onHk fun h => { h with vauxOut := side }) (hkSource 17))) ∧
    (s.hk.vioOut = side → exec (.vauxVio true above) s = .next s) ∧ (s.hk.vauxOut = side → exec (.vauxVio false above) s = .next s)) ∧
  (∀ s : State, exec (.vauxVioWindowReturn true) s = .next (s.onHk fun h => { h with vioOut := 0 }) ∧
    exec (.vauxVioWindowReturn false) s = .next (s.onHk fun h => { h with vauxOut := 0 }))

/-- R223, R261, R264, R465, R498, R503, R518, R523: the firings of a cycle halt the mover channels they name, are judged together, and an
injection that one of them reports is spent; an operation or a Reset that has taken twice its maximum, a decoder that has taken twice its bound,
a core, the fabric and a host transfer that is too late each fire their own source, and before that nothing changes; and a fault of the hub's
own, outside reset, is noted and enters SAFE without a class lookup, or only shows its cause once the latch is set. -/
def Obligations.SourcesFire : Prop :=
  (∀ (fs : List Firing) (s : State),
    ((∀ f ∈ fs, f.injected = true → f.source ≠ s.fh.injSource) →
      exec (.faultSourceFiring fs) s = .next (fs.foldl memoryNote (fireAll (fs.foldl moverFails s) fs))) ∧
    ((∃ f ∈ fs, f.injected = true ∧ f.source = s.fh.injSource) →
      exec (.faultSourceFiring fs) s = .next (fs.foldl memoryNote (fireAll (fs.foldl moverFails (s.onFh fun h => { h with injArmed := false })) fs)))) ∧
  (∀ (die : Nat) (s : State),
    let late := (∃ o, (getDie s die).busy = some o ∧ elapsed s (getDie s die).runFrom (2 * opMaxUs s die o.kind) = true) ∨
      ((getChan s (dieChan die)).st = .reset ∧ ∃ t, (getChan s (dieChan die)).resetAt = some t ∧ elapsed s t (2 * s.image.timing.tRst) = true)
    (late → exec (.busyTimeout die) s = .next (fire s (csSource (dieChan die) 0))) ∧ (¬late → exec (.busyTimeout die) s = .next s)) ∧
  (∀ (g : Nat) (s : State),
    let c := getCluster s g
    let late := fun (soft : Bool) (d : Decoding) => 2 * decodeMaxNs s g soft ≤ 1000 * (s.now - d.since)
    (c.st ≠ .reset → ((∃ d ∈ c.hardDec, late false d) ∨ ∃ d ∈ c.softDec, late true d) → exec (.decTimeout g) s = .next (fire s (lcSource g 3))) ∧
    ((c.st = .reset ∨ ((∀ d ∈ c.hardDec, ¬late false d) ∧ ∀ d ∈ c.softDec, ¬late true d)) → exec (.decTimeout g) s = .next s)) ∧
  (∀ (k : Nat) (s : State), exec (.coreWdog k) s = .next (fire s (coreSource 0))) ∧
  (∀ s : State, exec .fabricTimeout s = .next (fire s (coreSource 15))) ∧
  (∀ (p : PortId) (sq cid : Nat) (s : State), findCmd s p sq cid = none → exec (.cplTimeout p sq cid) s = .next s) ∧
  (∀ (p : PortId) (sq cid : Nat) (c : OutCmd) (s : State), findCmd s p sq cid = some c →
    (c.prot = true → exec (.cplTimeout p sq cid) s = .next s) ∧
    (c.prot = false → isWriteOp c.entry.op = true →
      exec (.cplTimeout p sq cid) s = .next (fire (failWrite s c .dataTransferError) (hfeSource p 1))) ∧
    (c.prot = false → isWriteOp c.entry.op = false →
      exec (.cplTimeout p sq cid) s = .next (fire (ioDone (abandonRead s c) p sq cid .dataTransferError) (hfeSource p 1)))) ∧
  (∀ (c : SelfCause) (s : State),
    let u := s.onFh fun h => { h with selfBits := setBit h.selfBits (selfBit c), cycle := h.cycle + 1 }
    let r := recordFiring u 0x1FF 4 16 0xFFFF 0 false
    (s.run ≠ .inReset → s.run ≠ .porHeld → s.fh.latch = false → exec (.hubSelfFault c) s =
      .next (enterSafe r { valid := true, cls := 4, source := 0x1FF, isSelf := true, timeUs := sinceStart r })) ∧
    (s.run ≠ .inReset → s.run ≠ .porHeld → s.fh.latch = true → exec (.hubSelfFault c) s = .next u) ∧
    ((s.run = .inReset ∨ s.run = .porHeld) → exec (.hubSelfFault c) s = .next s))

/-- R255, R256, R258, R264, R499, R509, R511, R528, R529: what follows a reaction. A sequencer's block reset ends with the dies that are not
ready or not trained failed, and the channel active, or, at the reset limit, past its bound or without a die left, failed; at the bound
it fails at once; a cluster's ends with its decodes begun again; a C3 unit reset's end returns its units and lets the controller resets
it held run; a window closes in its last cycle; counted firings are recorded, as the latest of them was, once fh_log_interval is over;
and ALIVE toggles, a level read back wrong firing ALIVE_MON. Before its moment each changes nothing. -/
def Obligations.ReactionsEnd : Prop :=
  (∀ (ch t0 : Nat) (notReady untrained : List Nat) (s : State), (getChan s ch).st = .reset → (getChan s ch).resetAt = some t0 →
    let c := getChan s ch
    let bad := (diesOf s ch).filter fun d => decide (d ∈ notReady) || decide (d % 32 / 8 ∈ untrained)
    let t := bad.foldl (fun s d => modDie s d fun x => { x with isFailed := true }) s
    let starts := recent t 60000000 (c.resetStarts ++ List.replicate c.pendingSecond t.now)
    let gone := c.failAtEnd = true ∨ t.policy.csResetLimit ≤ starts.length ∨ (∀ d ∈ diesOf t ch, (getDie t d).isFailed = true) ∨
      t0 + 2 * t.image.timing.tRst + 517 < t.now
    let lost := untrained.foldl (fun (m : BitVec 4) k => m ||| BitVec.twoPow 4 k) 0
    let u := modChan t ch fun x => { x with
      st := .active, resetAt := none, lastResetUs := min 65535 (t.now - t0), resetStarts := starts, pendingSecond := 0, cut := []
      trained := x.trained &&& ~~~lost }
    (gone → exec (.channelBlockResetEnd ch ⟨notReady, untrained⟩) s = .next (returnCut (failChannel u ch) c.cut)) ∧
    (¬gone → bad = [] → exec (.channelBlockResetEnd ch ⟨notReady, untrained⟩) s = .next (returnCut u c.cut)) ∧
    (¬gone → bad ≠ [] → exec (.channelBlockResetEnd ch ⟨notReady, untrained⟩) s =
      .next (refreshRefuge (packCopies (memberLoss (returnCut u c.cut))))) ∧
    (elapsed s t0 (2 * s.image.timing.tRst + 517) = true → exec (.blockResetBoundExpiry ch) s = .next (returnCut (failChannel
      (modChan s ch fun x => { x with lastResetUs := min 65535 (s.now - t0) }) ch) c.cut)) ∧
    (elapsed s t0 (2 * s.image.timing.tRst + 517) = false → exec (.blockResetBoundExpiry ch) s = .next s)) ∧
  (∀ (ch : Nat) (notReady untrained : List Nat) (s : State), ((getChan s ch).st ≠ .reset ∨ (getChan s ch).resetAt = none) →
    exec (.channelBlockResetEnd ch ⟨notReady, untrained⟩) s = .next s ∧ exec (.blockResetBoundExpiry ch) s = .next s) ∧
  (∀ (g : Nat) (s : State), let again := fun (d : Decoding) => { d with since := s.now }
    ((getCluster s g).st = .reset → exec (.clusterBlockResetEnd g) s = .next (feedDecoders (modCluster s g fun c => { c with
      st := .active, resetAt := none, resetEnd := s.now, hardDec := c.hardDec.map again, softDec := c.softDec.map again }) g)) ∧
    ((getCluster s g).st ≠ .reset → exec (.clusterBlockResetEnd g) s = .next s)) ∧
  (∀ (u : UnitReset) (s : State), s.fh.unitReset = some u →
    let v := u.sources.foldl unitBack (s.onFh fun h => { h with unitReset := none })
    let w := if v.portA.resetHeld then resetPortNow v .A else v
    exec .unitResetEnd s = .next (if w.portB.resetHeld then resetPortNow w .B else w)) ∧
  (∀ s : State, s.fh.unitReset = none → exec .unitResetEnd s = .next s) ∧
  (∀ (source : Nat) (s : State), exec (.reactionWindowClose source) s = .next (s.onFh fun h => { h with
    windows := h.windows.filter fun w => !(decide (w.primary = source) && windowOver s w) })) ∧
  (∀ (source : Nat) (s : State), let n := tget 0 s.fh.counted source
    let past := elapsed s (tget 0 s.fh.recordedAt source - 1) (1000 * s.policy.fhLogInterval) = true
    let r := tget {} s.fh.waiting source
    (0 < n → past → exec (.fhLogIntervalExpiry source) s = .next (addHistory s source r.cls r.flags.toNat r.primary n r.detail)) ∧
    ((n = 0 ∨ ¬past) → exec (.fhLogIntervalExpiry source) s = .next s)) ∧
  (∀ (pin : Bool) (s : State),
    (s.fh.aliveDriving = false → exec (.aliveEdge pin) s = .next (s.onFh fun h => { h with aliveReadback := pin })) ∧
    (s.fh.aliveDriving = true → pin = !s.fh.aliveLevel →
      exec (.aliveEdge pin) s = .next (s.onFh fun h => { h with aliveLevel := pin, aliveReadback := pin })) ∧
    (s.fh.aliveDriving = true → pin = s.fh.aliveLevel → exec (.aliveEdge pin) s = .next (fire (s.onFh fun h => { h with
      aliveLevel := !s.fh.aliveLevel, aliveReadback := pin, mismatches := satAdd 65535 h.mismatches 1 }) (coreSource 22))))

/-! ### Data movers and DRAM -/

/-- R455 to R458, R460, R461, R463, R464, R467: a chain is given to an idle channel, which fetches; a descriptor is checked before any byte
moves; pacing lets it move; the port goes to the requesting channel first after the pointer; responses are counted, and dropped after a
disable; a complete descriptor is counted and signalled, gives its credits, and ends the chain, loops too long, or leads to the next; and a
channel for which nothing returns within dm_bus_timeout, with its DRAM controller at work, halts. In any other case nothing changes. -/
def Obligations.MoversRunChains : Prop :=
  (∀ (block chan head : Nat) (s : State),
    ((getMover s (8 * block + chan)).st = .idle → exec (.chainStart block chan head) s =
      .next (modMover s (8 * block + chan) fun x => { x with
        st := .fetch, issuedAt := s.now, hops := 0, descAddr := head, desc := none, remain := 0, prevBurst := none, firstBurst := none
        paced := false, poisoned := false, code := 0, resumeAt := none })) ∧
    ((getMover s (8 * block + chan)).st ≠ .idle → exec (.chainStart block chan head) s = .next s)) ∧
  (∀ (block chan : Nat) (s : State), let n := 8 * block + chan
    ((getMover s n).st = .fetch → exec (.descriptorFetch block chan .failed) s = .next (haltMover s n 3)) ∧
    (∀ src dst length control next,
      let d : Desc := { src := src, dst := dst, length := length, control := control, next := next }
      ((getMover s n).st = .fetch → descInvalid s n d = true → exec (.descriptorFetch block chan (.desc src dst length control next)) s =
        .next (haltMover (modMover s n fun m => { m with desc := some d, remain := length % 16777216 }) n 5)) ∧
      ((getMover s n).st = .fetch → descInvalid s n d = false → exec (.descriptorFetch block chan (.desc src dst length control next)) s =
        .next (tryPace (modMover s n fun m => { m with st := .wait, desc := some d, remain := length, paced := false, owed := 0 }) n))) ∧
    (∀ f, (getMover s n).st ≠ .fetch → exec (.descriptorFetch block chan f) s = .next s)) ∧
  (∀ (block chan : Nat) (d : Desc) (s : State), let n := 8 * block + chan
    (getMover s n).desc = some d →
    let may := (getMover s n).st = .wait ∧ (getMover s n).paced = false ∧ paceMet s (getMover s n) d = true
    (may → exec (.paceTimer block chan) s = .next (modMover s n fun x => { x with
      st := .move, paced := true, issuedAt := s.now, credits := if ctlPace d = 3 then x.credits - ctlVal d else x.credits })) ∧
    (¬may → exec (.paceTimer block chan) s = .next s)) ∧
  (∀ (ch : Nat) (d : Desc) (s : State), (getMover s ch).desc = some d →
    let may := (getMover s ch).st = .wait ∧ ctlPace d = 1 ∧ 0 < (getMover s ch).remain
    (may → exec (.peripheralRequest ch) s = .next (modMover s ch fun x => { x with st := .move, paced := true, issuedAt := s.now })) ∧
    (¬may → exec (.peripheralRequest ch) s = .next s)) ∧
  (∀ (block chan ch : Nat) (s : State),
    ((getMover s (8 * block + chan)).desc = none → exec (.paceTimer block chan) s = .next s ∧ exec (.descriptorComplete block chan) s = .next s) ∧
    ((getMover s ch).desc = none → exec (.peripheralRequest ch) s = .next s)) ∧
  (∀ (block : Nat) (ready : List MoverReady) (s : State),
    (∀ w, minBy (fun r => (r.chan + 8 - (getMoverBlock s block).pointer) % 8) (ready.filter (requests s block)) = some w →
      exec (.burstGrant block ready) s = .next (modMoverBlock (moveBurst s (8 * block + w.chan) w.poisoned) block fun b =>
        { b with pointer := (w.chan + 1) % 8, grants := satAdd 65535 b.grants 1 })) ∧
    ((∀ r ∈ ready, requests s block r = false) → exec (.burstGrant block ready) s = .next s)) ∧
  (∀ (block chan : Nat) (s : State), ((getMover s (8 * block + chan)).st ≠ .disabled →
      exec (.writeResponse block chan) s = .next (modMover s (8 * block + chan) fun m => { m with owed := m.owed - 1 })) ∧
    ((getMover s (8 * block + chan)).st = .disabled → exec (.writeResponse block chan) s = .next s)) ∧
  (∀ (block chan : Nat) (d : Desc) (s : State), let n := 8 * block + chan
    (getMover s n).desc = some d →
    let past := (getMover s n).remain = 0 ∧ ((getMover s n).st = .move ∨ (getMover s n).st = .wait ∨ (getMover s n).st = .resp) ∧
      (ctlWresp d = true → (getMover s n).owed = 0)
    let x := modMover (closeMoverWindow s n) n fun x => { x with
      done := satAdd 4294967295 x.done 1, hops := x.hops + 1, desc := none, paced := false
      signals := if ctlNotify d || ctlLast d then x.signals ++ [(x.descAddr, 0)] else x.signals, prevBurst := x.firstBurst, firstBurst := none }
    let y := if ctlNotify d then addCredits x n else x
    (past → ctlLast d = true → exec (.descriptorComplete block chan) s = .next (modMover y n fun x => { x with st := .idle, code := 0 })) ∧
    (past → ctlLast d = false → y.policy.dmHopLimit ≤ (getMover s n).hops + 1 →
      exec (.descriptorComplete block chan) s = .next (haltMover y n 2)) ∧
    (past → ctlLast d = false → (getMover s n).hops + 1 < y.policy.dmHopLimit →
      exec (.descriptorComplete block chan) s = .next (modMover y n fun x => { x with st := .fetch, issuedAt := y.now, descAddr := d.next })) ∧
    (¬past → exec (.descriptorComplete block chan) s = .next s)) ∧
  (∀ (block chan : Nat) (s : State), let m := getMover s (8 * block + chan)
    let late := timerStands s m = false ∧ elapsed s m.issuedAt s.policy.dmBusTimeout = true
    (late → m.st = .fetch → exec (.dTimeout block chan) s = .next (haltMover s (8 * block + chan) 3)) ∧
    (late → (m.st = .move ∨ m.st = .resp) → exec (.dTimeout block chan) s = .next (haltMover s (8 * block + chan) 4)) ∧
    ((¬late ∨ (m.st ≠ .fetch ∧ m.st ≠ .move ∧ m.st ≠ .resp)) → exec (.dTimeout block chan) s = .next s))

/-- R420, R423, R424, R427, R428, R430 to R432, R443, R444, R448: the DRAM controllers. Arrivals join the queue, and where the controller works its
first request is read or written, after the row's activate; a refresh is issued when due, the row-hammer tables are cleared at each refresh
window, scrub takes the next burst and writes corrected data back, a corrected rate fires its source, an alert stops the channel for a replay, a
third failed one in a row fires CA_RETRY_FAIL, and the enabled channels change point together, a first entry that fails training leaving
6,400 MT/s. That a replay which no alert has broken ends at the next request is the model's choice (log entry 16). -/
def Obligations.DramControllersRun : Prop :=
  (∀ (ch : Nat) (arrivals : List DramReq) (seen : EccSeen) (activates : Bool) (s : State),
    let u := modDc s ch fun d => { d with
      queue := (d.queue ++ arrivals).take 64
      st := if d.st = .replay ∧ !d.alerting then .active else d.st
      run := if d.st = .replay ∧ !d.alerting then 0 else d.run }
    let works := (getDc u ch).st = .active ∧ dcOn u ch = true
    (∀ r rest, works → (getDc u ch).queue = r :: rest →
      let burst := (dramMap u.image.board.dramChannels (reqAddr r)).2.1
      let v := modDc u ch fun d => { d with queue := rest, retryBuf := (d.retryBuf ++ [r]).drop ((d.retryBuf ++ [r]).length - 64) }
      let w := if activates then activateRow v ch burst else v
      (∀ a, r = .read a → exec (.dramRequest ch arrivals seen activates) s = .next (dramRead w ch burst seen)) ∧
      (∀ a bs, r = .write a bs → exec (.dramRequest ch arrivals seen activates) s = .next (dramWrite w ch burst bs seen))) ∧
    ((¬works ∨ (getDc u ch).queue = []) → exec (.dramRequest ch arrivals seen activates) s = .next u)) ∧
  (∀ (ch : Nat) (hot : Bool) (s : State),
    (refreshDue s (getDc s ch) = true → exec (.dramRefresh ch hot) s =
      .next (modDc s ch fun d => { d with refreshes := d.refreshes + 1, refreshAt := some s.now, hot := hot })) ∧
    (refreshDue s (getDc s ch) = false → exec (.dramRefresh ch hot) s = .next s) ∧
    (rhWindowOver s (getDc s ch) = true → exec (.refreshWindowStart ch) s = .next (modDc s ch fun d => { d with rh := [], windowAt := s.now })) ∧
    (rhWindowOver s (getDc s ch) = false → exec (.refreshWindowStart ch) s = .next s)) ∧
  (∀ (ch : Nat) (seen : EccSeen) (s : State),
    let at' := (getDc s ch).scrubPos
    let b := tget {} (getDc s ch).mem at'
    let t := noteSeen s ch at' seen
    let move := fun (t : State) => modDc t ch fun d =>
      if at' + 1 < chanBursts t then { d with scrubPos := at' + 1 } else { d with scrubPos := 0, passes := satAdd 65535 d.passes 1 }
    let w := modDc t ch fun d => { d with
      mem := tput {} d.mem at' { b with flaw := 0 }, rewrites := satAdd 65535 d.rewrites 1, correctedLast := addOnce at' d.correctedLast }
    (∀ n, (getDc s ch).st = .active → burstSeen b seen = .corrected n → exec (.dramPatrolScrub ch seen) s =
      .next (move (if at' ∈ (getDc t ch).correctedLast then installRemap w ch at' else w))) ∧
    ((getDc s ch).st = .active → (∀ n, burstSeen b seen ≠ .corrected n) → exec (.dramPatrolScrub ch seen) s =
      .next (move (modDc t ch fun d => { d with correctedLast := d.correctedLast.filter (· ≠ at') }))) ∧
    ((getDc s ch).st ≠ .active → exec (.dramPatrolScrub ch seen) s = .next s)) ∧
  (∀ (ch : Nat) (s : State), let n := ((getDc s ch).ceTimes.filter fun t => decide (s.now < t + 1000000)).length
    (s.policy.dramCeThresh ≤ n → exec (.eccCeRate ch) s = .next (fire (modDc s ch fun d => { d with ceTimes := [] }) (dcSource ch 0))) ∧
    (n < s.policy.dramCeThresh → exec (.eccCeRate ch) s = .next s)) ∧
  (∀ (ch : Nat) (s : State),
    let stop := fun (x : Dc) => { x with st := .replay, alerting := true, alerts := satAdd 65535 x.alerts 1 }
    let fail := fun (n : Nat) (x : Dc) => { stop x with failedReplays := satAdd 255 x.failedReplays 1, run := n }
    ((getDc s ch).st = .active ∨ ((getDc s ch).st = .replay ∧ (getDc s ch).alerting = true) →
      exec (.alertNAssert ch) s = .next (fire (modDc s ch stop) (dcSource ch 3))) ∧
    ((getDc s ch).st = .replay → (getDc s ch).alerting = false → (getDc s ch).run < 2 →
      exec (.alertNAssert ch) s = .next (fire (modDc s ch (fun x => fail (x.run + 1) x)) (dcSource ch 3))) ∧
    ((getDc s ch).st = .replay → (getDc s ch).alerting = false → 2 ≤ (getDc s ch).run →
      exec (.alertNAssert ch) s = .next (fire (fire (modDc s ch (fail 0)) (dcSource ch 3)) (dcSource ch 4))) ∧
    ((getDc s ch).st ≠ .active → (getDc s ch).st ≠ .replay → exec (.alertNAssert ch) s = .next s) ∧
    exec (.alertNDeassert ch) s = .next (modDc s ch fun d => { d with alerting := false })) ∧
  (∀ (failing : List Nat) (s : State),
    let on := (List.range 4).filter fun n => dcOn s n && decide ((getDc s n).st = .active)
    let want := wantedPoint s
    let bad := on.filter fun n => decide (n ∈ failing) && want && !(getDc s n).trained3200
    let same := on = [] ∨ (∀ n ∈ on, (getDc s n).point3200 = want) ∨ (want = true ∧ ∃ n ∈ on, (getDc s n).unusable3200 = true)
    (¬same → bad = [] → exec (.frequencyChange failing) s = .next (on.foldl (fun s n => modDc s n fun d => { d with
      point3200 := want, trained3200 := d.trained3200 || want }) s)) ∧
    (¬same → bad ≠ [] → exec (.frequencyChange failing) s = .next (fireAll (on.foldl (fun s n => modDc s n fun d => { d with
      point3200 := false, unusable3200 := true }) s) (bad.map fun n => { source := dcSource n 5, detail := 0, injected := false }))) ∧
    (same → exec (.frequencyChange failing) s = .next s)) ∧
  (∀ (ch : Nat) (s : State), exec (.trainingStep ch true) s = .next s ∧
    exec (.trainingStep ch false) s = .next (fire s (dcSource ch 5)))

/-! ### Sideband and windows -/

/-- R78, R89 to R91, R568: the sideband answers each command it serves and changes nothing else, in SAFE those that R91 leaves; the Reset
starts an NVM subsystem reset; a structure or controller that does not exist, a setting that cannot be made and a range outside the VPD are
invalid parameters, an opcode that is not served is invalid, and the Basic Management Command has no answer in I3C mode or SAFE. Before the OTP
row is read nothing is answered. The answers' places and codes are NVMe-MI's (log entry 3). -/
def Obligations.SidebandAnswers : Prop :=
  (∀ s : State, sidebandUp s = true →
    (∀ (dtype portId ctrlId : Nat),
      (∀ bs, miStructure s dtype portId ctrlId = some bs → exec (.miReadDataStructure dtype portId ctrlId) s = .next (miAnswer s 0 bs)) ∧
      (miStructure s dtype portId ctrlId = none → exec (.miReadDataStructure dtype portId ctrlId) s = .next (miAnswer s 4 []))) ∧
    (∃ bs, exec .miSubsystemHealthPoll s = .next (miAnswer s 0 bs) ∧ bs.length = 8) ∧
    (∀ p, (p ∈ ports s → ∃ bs, exec (.miControllerHealthPoll p) s = .next (miAnswer s 0 bs) ∧ bs.length = 16) ∧
      (p ∉ ports s → exec (.miControllerHealthPoll p) s = .next (miAnswer s 0 []))) ∧
    exec .miReset s = .next (subsystemResetFrom (miAnswer s 0 []) 3) ∧
    (∀ (p : PortId) (field nsid : Nat) (r : LogReq), p ∈ ports s →
      (∀ bs, identifyAnswer s p field nsid = .inl bs →
        exec (.miTunnelledAdmin p 6 field nsid r) s = .next (miAnswer s 0 (slicePage bs r))) ∧
      (∀ st, identifyAnswer s p field nsid = .inr st → exec (.miTunnelledAdmin p 6 field nsid r) s = .next (miAnswer s 0 [] st)) ∧
      (∀ bs, miLogPage s p field r = .inl bs → exec (.miTunnelledAdmin p 2 field nsid r) s = .next (miAnswer s 0 bs)) ∧
      (∀ st, miLogPage s p field r = .inr st → exec (.miTunnelledAdmin p 2 field nsid r) s = .next (miAnswer s 0 [] st)) ∧
      (s.fh.latch = true → exec (.miTunnelledAdmin p 10 field nsid r) s = .next (miAnswer s 3 [])) ∧
      (s.fh.latch = false → featureDw0 s p field = none → exec (.miTunnelledAdmin p 10 field nsid r) s = .next (miAnswer s 0 [] .invalidField)) ∧
      (∀ d, s.fh.latch = false → featureDw0 s p field = some d → exec (.miTunnelledAdmin p 10 field nsid r) s =
        .next (miAnswer s 0 (if field = 0x0E then leBytes 8 (hostStamp s) else []) .success d)) ∧
      (∀ op, op ≠ 6 → op ≠ 2 → op ≠ 10 → exec (.miTunnelledAdmin p op field nsid r) s = .next (miAnswer s 3 []))) ∧
    (∀ (p : PortId) (op field nsid : Nat) (r : LogReq), p ∉ ports s → exec (.miTunnelledAdmin p op field nsid r) s = .next (miAnswer s 4 []))) ∧
  (∀ s : State, sidebandUp s = true → s.fh.latch = false →
    exec (.miConfigurationGet 1) s = .next (miAnswer s 0 (leBytes 3 s.misc.smbusFreq)) ∧
    exec (.miConfigurationGet 2) s = .next (miAnswer s 0 (leBytes 3 0)) ∧
    exec (.miConfigurationGet 3) s = .next (miAnswer s 0 (leBytes 3 s.misc.mctpUnit)) ∧
    (∀ w, w ≠ 1 → w ≠ 2 → w ≠ 3 → exec (.miConfigurationGet w) s = .next (miAnswer s 4 [])) ∧
    (∀ v, 1 ≤ v → v ≤ 3 → s.boot.strapSb = false →
      exec (.miConfigurationSet 1 v) s = .next (miAnswer (s.onMisc fun m => { m with smbusFreq := v }) 0 [])) ∧
    (∀ v, 64 ≤ v → v < 65536 →
      exec (.miConfigurationSet 3 v) s = .next (miAnswer (s.onMisc fun m => { m with mctpUnit := v }) 0 [])) ∧
    (∀ w v, ¬(w = 1 ∧ s.boot.strapSb = false ∧ 1 ≤ v ∧ v ≤ 3) → ¬(w = 3 ∧ 64 ≤ v ∧ v < 65536) →
      exec (.miConfigurationSet w v) s = .next (miAnswer s 4 [])) ∧
    (∀ offset len,
      (s.boot.romServes = false → offset + len ≤ s.image.ident.vpdLength → exec (.miVpdRead offset len) s =
        .next (miAnswer s 0 ((List.range len).map fun i => nth 0 s.image.ident.vpd (offset + i)))) ∧
      (s.boot.romServes = false → s.image.ident.vpdLength < offset + len → exec (.miVpdRead offset len) s = .next (miAnswer s 4 [])) ∧
      (s.boot.romServes = true → ∃ bs, exec (.miVpdRead offset len) s = .next (miAnswer s 0 bs) ∧ bs.length = len)) ∧
    (s.boot.strapSb = false → ∃ bs, exec .basicManagementCommand s = .next (miAnswer s 0 bs) ∧ bs.length = 30) ∧
    (s.boot.strapSb = true → exec .basicManagementCommand s = .next s)) ∧
  (∀ s : State, sidebandUp s = true → s.fh.latch = true →
    (∀ w, exec (.miConfigurationGet w) s = .next (miAnswer s 3 [])) ∧ (∀ w v, exec (.miConfigurationSet w v) s = .next (miAnswer s 3 [])) ∧
    (∀ o n, exec (.miVpdRead o n) s = .next (miAnswer s 3 [])) ∧ exec .basicManagementCommand s = .next s) ∧
  (∀ s : State, sidebandUp s = false →
    (∀ a b c, exec (.miReadDataStructure a b c) s = .next s) ∧ exec .miSubsystemHealthPoll s = .next s ∧
    (∀ p, exec (.miControllerHealthPoll p) s = .next s) ∧ (∀ w, exec (.miConfigurationGet w) s = .next s) ∧
    (∀ w v, exec (.miConfigurationSet w v) s = .next s) ∧ (∀ o n, exec (.miVpdRead o n) s = .next s) ∧ exec .miReset s = .next s ∧
    (∀ p op f n r, exec (.miTunnelledAdmin p op f n r) s = .next s) ∧ exec .basicManagementCommand s = .next s)

/-- R13, R15 to R17, with R30, R506, R518 to R520: the diagnostic window. Only an unlock of window scope on the port lets it write. A read
returns the register, or 0xFFFFFFFF where it is not a naturally aligned word; that of a low word latches the high word for the port, whose very
next access, if it reads that high word, gets it. A write without such an unlock, or not aligned, changes no register; the low word of a 64-bit
register waits in the port's buffer until the high word applies both; a high word alone leaves the low word. An access drops what was latched,
and what was buffered for another address than its register's words. The hub's registers with rows of their own act as their rules say, and
ignore a port without the unlock. Without REFCLK the port's link carries no access. -/
def Obligations.WindowAccesses : Prop :=
  (∀ (p : PortId) (s : State), mayWrite s p = true ↔ ∃ u, s.sec.unlock = some u ∧ u.port = p ∧ u.scope.getLsbD 0 = true) ∧
  (∀ (p : PortId) (addr width : Nat) (s : State), (s.port p).refclk = true →
    let kept := match (s.port p).wbuf with
      | some (a, w) => if addr = a ∨ addr = a + 4 then some (a, w) else none
      | none => none
    let ok := width = 4 ∧ addr % 4 = 0
    (ok → (∀ a hi, (s.port p).latch = some (a, hi) → a + 4 ≠ addr) → exec (.windowReadLowWord p addr width) s = .next (s.onPort p fun x => { x with
      windowData := regRead s addr, latch := if isLow64 addr then some (addr, regRead s (addr + 4)) else none, wbuf := kept })) ∧
    (∀ a hi, ok → (s.port p).latch = some (a, hi) → a + 4 = addr →
      exec (.windowReadLowWord p addr width) s = .next (s.onPort p fun x => { x with
        windowData := hi, latch := if isLow64 addr then some (addr, regRead s (addr + 4)) else none, wbuf := kept })) ∧
    (¬ok → exec (.windowReadLowWord p addr width) s = .next (s.onPort p fun x => { x with windowData := 0xFFFFFFFF, latch := none, wbuf := kept })) ∧
    (∀ v, (¬ok ∨ mayWrite s p = false) →
      let t := s.onPort p fun x => { x with latch := none, wbuf := kept }
      exec (.windowWrite p addr width v) s = .next t ∧ exec (.windowWriteLowWord p addr width v) s = .next t ∧
      exec (.windowWriteHighWord p addr width v) s = .next t)) ∧
  (∀ (p : PortId) (addr : Nat) (v : BitVec 32) (s : State), (s.port p).refclk = true → mayWrite s p = true → addr % 4 = 0 →
    let t := s.onPort p fun x => { x with latch := none, wbuf := none }
    let all := fun (u : State) => exec (.windowWrite p addr 4 v) s = .next u ∧ exec (.windowWriteLowWord p addr 4 v) s = .next u ∧
      exec (.windowWriteHighWord p addr 4 v) s = .next u
    (isLow64 addr = true → isHigh64 addr = false → all (s.onPort p fun x => { x with latch := none, wbuf := some (addr, v) })) ∧
    (∀ w, isLow64 addr = false → isHigh64 addr = true → (s.port p).wbuf = some (addr - 4, w) → all (regWrite64 t (addr - 4) (some w) v)) ∧
    (isLow64 addr = false → isHigh64 addr = true → (∀ w, (s.port p).wbuf ≠ some (addr - 4, w)) → all (regWrite64 t (addr - 4) none v)) ∧
    (isLow64 addr = false → isHigh64 addr = false → addr ≠ 0x100D0 → addr ≠ 0x18000 → (addr < 0x18010 ∨ 0x18038 ≤ addr) →
      all (regWrite t addr v)) ∧
    (∀ u, addr = 0x100D0 → exec (.fhInjectArm p v) s = .next u → all u) ∧
    (∀ u, addr = 0x18000 → exec (.fhLegArmWrite p v) s = .next u → all u) ∧
    (∀ k u, k < 10 → addr = 0x18010 + 4 * k → exec (.fhLegForceWrite p k v) s = .next u → all u)) ∧
  (∀ (p : PortId) (v : BitVec 32) (s : State), (s.port p).refclk = true →
    let t := s.onPort p fun x => { x with latch := none, wbuf := none }
    (mayWrite s p = false → exec (.fhInjectArm p v) s = .next t ∧ exec (.fhFirstValidClear p) s = .next t ∧
      exec (.fhLegArmWrite p v) s = .next t ∧ ∀ k, exec (.fhLegForceWrite p k v) s = .next t) ∧
    (mayWrite s p = true →
      exec (.fhFirstValidClear p) s = .next (t.onFh fun h => { h with first := { h.first with valid := false } }) ∧
      exec (.fhLegArmWrite p v) s = .next (t.onFh fun h => { h with legArm := v, legArmAt := some s.now }) ∧
      (∀ n, n = v.toNat % 512 → exec (.fhInjectArm p v) s = .next (t.onFh fun h => { h with
          injSource := n, injMode := v.toNat / 16777216 % 4, injAddrEn := v.getLsbD 29
          injArmed := v.getLsbD 31 && injectable n, injRefused := if v.getLsbD 31 then !injectable n else h.injRefused })) ∧
      (∀ k, k < 10 → s.fh.legArm = 0x0000C3A5 → exec (.fhLegForceWrite p k v) s = .next (fireAll t
        (((List.range 32).filter fun i => v.getLsbD i).map fun i => { source := 32 * k + i, detail := 0, injected := true }))) ∧
      (∀ k, (10 ≤ k ∨ s.fh.legArm ≠ 0x0000C3A5) → exec (.fhLegForceWrite p k v) s = .next t))) ∧
  (∀ (p : PortId) (s : State), (s.port p).refclk = false → (∀ a w, exec (.windowReadLowWord p a w) s = .next s) ∧
    (∀ a w v, exec (.windowWrite p a w v) s = .next s ∧ exec (.windowWriteLowWord p a w v) s = .next s ∧
      exec (.windowWriteHighWord p a w v) s = .next s) ∧ exec (.fhFirstValidClear p) s = .next s ∧
    (∀ v, exec (.fhInjectArm p v) s = .next s ∧ exec (.fhLegArmWrite p v) s = .next s ∧ ∀ k, exec (.fhLegForceWrite p k v) s = .next s)) ∧
  (∀ s : State,
    (∀ t, s.fh.legArmAt = some t → t + 1000000 ≤ s.now → exec .fhLegArmExpiry s = .next (s.onFh fun h => { h with legArm := 0, legArmAt := none })) ∧
    ((∀ t, s.fh.legArmAt = some t → s.now < t + 1000000) → exec .fhLegArmExpiry s = .next s))
/-! ### Reset, and what every step keeps -/

/-- R12, R18, R51, R97, R129, R259, R293, R294, R416, R449, R469, R496, R531, R532, R575, R642: after reset every word of the diagnostic window
reads the value that the Reset column of its table gives, and reserved words read 0. -/
def Obligations.RegistersResetAsTabled : Prop :=
  ∀ a : Nat, a % 4 = 0 → a < 0x90000 → regRead State.reset a = resetWord a

/-- The state after reset holds the invariants that every step keeps: nothing waits, the OTP row and the SPI NOR are in canonical form, no
unlock is in effect, and the fault latch is clear. An OTP row and a SPI NOR with nothing listed are the model's choice (log entry 1). -/
def Obligations.ResetMeetsInvariants : Prop :=
  State.reset.pending = [] ∧ memWf 0 State.reset.sec.otp = true ∧ memWf 0xFF State.reset.spi = true ∧ unlockOwned State.reset = true ∧
    State.reset.sec.unlock = none ∧ State.reset.fh.latch = false ∧ State.reset.run = .inReset

/-- R620: a bit of the OTP row that has been programmed to 1 never returns to 0, whatever command runs; and the row keeps its canonical
form. -/
def Obligations.OtpBitsNeverReturn : Prop :=
  ∀ s t : State, memWf 0 s.sec.otp = true → step s = .next t →
    memWf 0 t.sec.otp = true ∧ ∀ (a : Nat) (i : Nat), (memGet 0 s.sec.otp a).getLsbD i = true → (memGet 0 t.sec.otp a).getLsbD i = true

/-- R14: an unlock in effect belongs to the owner, and every step keeps it so: none is obtained by the other port, and none outlasts its
port's ownership. -/
def Obligations.UnlockStaysWithOwner : Prop :=
  ∀ s t : State, unlockOwned s = true → step s = .next t → unlockOwned t = true

/-- R387, R390, R509, R610: every step answers a next state, takes exactly the command at the front of the queue, and never takes a record
number of the fault history, of the Thermal History or of the Lost-IU log back, nor a chunk's serial number or a free value's; the SPI
NOR keeps its canonical form. -/
def Obligations.StepsTakeOneCommandAndNumbersRise : Prop :=
  ∀ s : State, ∃ t, step s = .next t ∧ t.pending = s.pending.tail ∧ s.fh.historyNext ≤ t.fh.historyNext ∧
    s.hk.historyNext ≤ t.hk.historyNext ∧ s.upkeep.lostNext ≤ t.upkeep.lostNext ∧ s.journal.nextSerial ≤ t.journal.nextSerial ∧
    s.freeCtr ≤ t.freeCtr ∧ (memWf 0xFF s.spi = true → memWf 0xFF t.spi = true)
end

