-- ==== Sys2Proof/Laws/Tables.lean ====
section
/-! SUPPORT. Canonical tables and byte memories: reading after writing, and that every operation keeps the canonical form. -/
namespace Sys2Proof.Machine

variable {α : Type} [DecidableEq α] {d : α}

theorem twfAbove_mono {lo lo' : Nat} (h : lo' ≤ lo) {t : Tbl α} (w : twfAbove d lo t = true) : twfAbove d lo' t = true := by
  cases t with
  | nil => rfl
  | cons x r =>
    simp only [twfAbove, Bool.and_eq_true, decide_eq_true_eq] at *
    exact ⟨⟨by omega, w.1.2⟩, w.2⟩

theorem twfAbove_of_twf {t : Tbl α} {k : Nat} {v : α} (w : twf d ((k, v) :: t) = true) : twfAbove d k t = true := by
  simp only [twf, Bool.and_eq_true] at w
  exact w.2

theorem tget_above {t : Tbl α} {lo k : Nat} (w : twfAbove d lo t = true) (h : k ≤ lo) : tget d t k = d := by
  induction t generalizing lo with
  | nil => rfl
  | cons x r ih =>
    simp only [twfAbove, Bool.and_eq_true, decide_eq_true_eq] at w
    simp only [tget]
    rw [if_neg (by omega)]
    exact ih w.2 (by omega)

theorem tput_above {t : Tbl α} {lo k : Nat} {v : α} (w : twfAbove d lo t = true) (h : lo < k) : twfAbove d lo (tput d t k v) = true := by
  induction t generalizing lo with
  | nil =>
    simp only [tput]
    split
    · rfl
    · simp_all [twfAbove]
  | cons x r ih =>
    obtain ⟨k', v'⟩ := x
    simp only [twfAbove, Bool.and_eq_true, decide_eq_true_eq] at w
    simp only [tput]
    split
    · split
      · exact twfAbove_mono (by omega) w.2
      · simp_all [twfAbove]
    · split
      · split
        · simp_all [twfAbove]
        · simp_all [twfAbove]
      · simp only [twfAbove, Bool.and_eq_true, decide_eq_true_eq]
        exact ⟨w.1, ih w.2 (by omega)⟩

theorem twf_of_above {t : Tbl α} {lo : Nat} (w : twfAbove d lo t = true) : twf d t = true := by
  cases t with
  | nil => rfl
  | cons x r =>
    simp only [twfAbove, Bool.and_eq_true] at w
    simp only [twf, Bool.and_eq_true]
    exact ⟨w.1.2, w.2⟩

/-- A write keeps the canonical form. -/
theorem tput_twf {t : Tbl α} (w : twf d t = true) (k : Nat) (v : α) : twf d (tput d t k v) = true := by
  cases t with
  | nil =>
    simp only [tput]
    split
    · rfl
    · simp_all [twf, twfAbove]
  | cons x r =>
    obtain ⟨k', v'⟩ := x
    have w1 := w
    simp only [twf, Bool.and_eq_true, decide_eq_true_eq] at w
    simp only [tput]
    split
    · split
      · exact twf_of_above w.2
      · simp_all [twf]
    · split
      · split
        · exact w1
        · simp_all [twf, twfAbove]
      · simp only [twf, Bool.and_eq_true, decide_eq_true_eq]
        exact ⟨w.1, tput_above w.2 (by omega)⟩

theorem tget_tput_same_above {t : Tbl α} {lo : Nat} (w : twfAbove d lo t = true) (k : Nat) (v : α) : tget d (tput d t k v) k = v := by
  induction t generalizing lo with
  | nil =>
    simp only [tput]
    split
    · simp_all [tget]
    · simp [tget]
  | cons x r ih =>
    obtain ⟨k', v'⟩ := x
    simp only [twfAbove, Bool.and_eq_true, decide_eq_true_eq] at w
    simp only [tput]
    split
    · split
      · rename_i h1 h2
        rw [h2]; exact tget_above w.2 (by omega)
      · simp [tget]
    · split
      · split
        · rename_i h1 h2 h3
          simp only [tget]; rw [if_neg h1, h3]; exact tget_above w.2 (by omega)
        · simp [tget]
      · rename_i h1 h2
        simp only [tget]; rw [if_neg h1]; exact ih w.2

/-- A read after a write to the same key gives the value written. -/
theorem tget_tput_same {t : Tbl α} (w : twf d t = true) (k : Nat) (v : α) : tget d (tput d t k v) k = v := by
  cases t with
  | nil =>
    simp only [tput]
    split
    · simp_all [tget]
    · simp [tget]
  | cons x r =>
    obtain ⟨k', v'⟩ := x
    have w2 := twfAbove_of_twf w
    simp only [tput]
    split
    · split
      · rename_i h1 h2
        rw [h2]; exact tget_above w2 (by omega)
      · simp [tget]
    · split
      · split
        · rename_i h1 h2 h3
          simp only [tget]; rw [if_neg h1, h3]; exact tget_above w2 (by omega)
        · simp [tget]
      · rename_i h1 h2
        simp only [tget]; rw [if_neg h1]; exact tget_tput_same_above w2 k v

/-- A write leaves every other key alone. -/
theorem tget_tput_other (t : Tbl α) {k j : Nat} (h : j ≠ k) (v : α) : tget d (tput d t k v) j = tget d t j := by
  induction t with
  | nil =>
    simp only [tput]
    split
    · rfl
    · simp only [tget]; rw [if_neg (by omega)]
  | cons x r ih =>
    obtain ⟨k', v'⟩ := x
    simp only [tput]
    split
    · rename_i h1
      split
      · simp only [tget]; rw [if_neg (by omega)]
      · simp only [tget]; rw [if_neg (by omega), if_neg (by omega)]
    · split
      · split
        · rfl
        · simp only [tget]; rw [if_neg (by omega)]
      · simp only [tget]
        split
        · rfl
        · exact ih

theorem tmod_twf {t : Tbl α} (w : twf d t = true) (k : Nat) (f : α → α) : twf d (tmod d t k f) = true := tput_twf w k _

theorem tget_tmod_same {t : Tbl α} (w : twf d t = true) (k : Nat) (f : α → α) : tget d (tmod d t k f) k = f (tget d t k) :=
  tget_tput_same w k _

theorem tget_tmod_other (t : Tbl α) {k j : Nat} (h : j ≠ k) (f : α → α) : tget d (tmod d t k f) j = tget d t j :=
  tget_tput_other t h _

theorem filter_above {t : Tbl α} {lo : Nat} (w : twfAbove d lo t = true) (p : Nat × α → Bool) : twfAbove d lo (t.filter p) = true := by
  induction t generalizing lo with
  | nil => rfl
  | cons x r ih =>
    simp only [twfAbove, Bool.and_eq_true, decide_eq_true_eq] at w
    simp only [List.filter_cons]
    split
    · simp only [twfAbove, Bool.and_eq_true, decide_eq_true_eq]
      exact ⟨w.1, ih w.2⟩
    · exact twfAbove_mono (by omega) (ih w.2)

theorem filter_twf {t : Tbl α} (w : twf d t = true) (p : Nat × α → Bool) : twf d (t.filter p) = true := by
  cases t with
  | nil => rfl
  | cons x r =>
    have w2 := twfAbove_of_twf w
    simp only [List.filter_cons]
    split
    · simp only [twf, Bool.and_eq_true] at *
      exact ⟨w.1, filter_above w.2 p⟩
    · exact twf_of_above (filter_above w2 p)

theorem memPut_wf {z : Byte} {m : List Host.Cell} (w : memWf z m = true) (a : Nat) (v : Byte) : memWf z (memPut z m a v) = true := tput_twf w a v

theorem memGet_memPut_same {z : Byte} {m : List Host.Cell} (w : memWf z m = true) (a : Nat) (v : Byte) : memGet z (memPut z m a v) a = v :=
  tget_tput_same w a v

theorem memGet_memPut_other {z : Byte} (m : List Host.Cell) {a b : Nat} (h : b ≠ a) (v : Byte) : memGet z (memPut z m a v) b = memGet z m b :=
  tget_tput_other m h v

theorem memWrite_wf {z : Byte} {m : List Host.Cell} (w : memWf z m = true) (a : Nat) (l : List Byte) : memWf z (memWrite z m a l) = true := by
  induction l generalizing m a with
  | nil => exact w
  | cons b bs ih => exact ih (memPut_wf w a b) (a + 1)

theorem memErase_wf {z : Byte} {m : List Host.Cell} (w : memWf z m = true) (a n : Nat) : memWf z (memErase m a n) = true := filter_twf w _

end Sys2Proof.Machine
end

