-- ==== Sys2Proof/Laws/Keeps.lean ====
section
/-! SUPPORT. What every part of every command leaves true (`Keeps`), and how it composes over the shapes of the model. -/
namespace Sys2Proof.Machine

theorem OtpGrows.refl (m : List Host.Cell) : OtpGrows m m := fun h => ⟨h, fun _ => BitVec.and_self⟩

theorem OtpGrows.trans {a b c : List Host.Cell} (h : OtpGrows a b) (k : OtpGrows b c) : OtpGrows a c := fun w => by
  obtain ⟨wb, hb⟩ := h w
  obtain ⟨wc, hc⟩ := k wb
  refine ⟨wc, fun x => ?_⟩
  have h1 := hb x
  have h2 := hc x
  rw [← h1, ← BitVec.and_assoc, h2]

/-- What every part of every command leaves true: the queue is untouched, OTP bits stay programmed (R620), the SPI NOR keeps its
canonical form, an unlock stays the owner's (R14), and no record, chunk or free value number is used again. -/
structure Keeps (s t : State) : Prop where
  queue : t.pending = s.pending
  otp : OtpGrows s.sec.otp t.sec.otp
  spi : memWf 0xFF s.spi = true → memWf 0xFF t.spi = true
  unlock : unlockOwned s = true → unlockOwned t = true
  faults : s.fh.historyNext ≤ t.fh.historyNext
  thermals : s.hk.historyNext ≤ t.hk.historyNext
  chunks : s.journal.nextSerial ≤ t.journal.nextSerial
  losses : s.upkeep.lostNext ≤ t.upkeep.lostNext
  draws : s.freeCtr ≤ t.freeCtr


theorem Keeps.refl (s : State) : Keeps s s :=
  ⟨rfl, .refl _, id, id, Nat.le_refl _, Nat.le_refl _, Nat.le_refl _, Nat.le_refl _, Nat.le_refl _⟩

theorem Keeps.trans {s t u : State} (h : Keeps s t) (k : Keeps t u) : Keeps s u :=
  ⟨k.queue.trans h.queue, h.otp.trans k.otp, k.spi ∘ h.spi, k.unlock ∘ h.unlock, h.faults.trans k.faults,
    h.thermals.trans k.thermals, h.chunks.trans k.chunks, h.losses.trans k.losses, h.draws.trans k.draws⟩

theorem Keeps.eqs {s m t : State} (h : Keeps s m) (hp : t.pending = m.pending) (hs : t.sec = m.sec) (hn : t.spi = m.spi)
    (ho : t.own = m.own)
    (hf : t.fh = m.fh) (hh : t.hk = m.hk) (hj : t.journal = m.journal) (hu : t.upkeep = m.upkeep)
    (hc : t.freeCtr = m.freeCtr) : Keeps s t :=
  h.trans ⟨hp, hs ▸ .refl _, by rw [hn]; exact id, by unfold unlockOwned; rw [hs, ho]; exact id, Nat.le_of_eq (by rw [hf]),
    Nat.le_of_eq (by rw [hh]), Nat.le_of_eq (by rw [hj]), Nat.le_of_eq (by rw [hu]), Nat.le_of_eq (by rw [hc])⟩

/-- A change of other components. -/
theorem Keeps.raw {s m : State}
    {now run boot image copyInUse ucode dlBuf dlGran commit activation pa pb mode path movers blocks dcs misc}
    (h : Keeps s m) :
    Keeps s (.mk now run boot m.spi image copyInUse ucode dlBuf dlGran commit activation pa pb m.own mode path m.media
        m.upkeep m.journal
      movers blocks dcs m.hk m.fh m.sec misc m.freeCtr m.pending) :=
  h.eqs rfl rfl rfl rfl rfl rfl rfl rfl rfl

theorem Keeps.ite {c : Prop} [Decidable c] {s a b : State} (ha : Keeps s a) (hb : Keeps s b) : Keeps s (if c then a else b) :=
    by
  split <;> assumption

theorem Keeps.foldl {α : Type} {f : State → α → State} {l : List α} {s t : State} (h : ∀ u x, Keeps u (f u x)) (k : Keeps s t) :
    Keeps s (l.foldl f t) := by
  induction l generalizing t with
  | nil => exact k
  | cons x xs ih => exact ih (k.trans (h t x))

theorem Keeps.onPort {s t : State} {p : PortId} {f : Port → Port} (h : Keeps s t) : Keeps s (t.onPort p f) := by
  cases p <;> exact h.eqs rfl rfl rfl rfl rfl rfl rfl rfl rfl

theorem Keeps.onBoth {s t : State} {f : Port → Port} (h : Keeps s t) : Keeps s (t.onBoth f) := h.eqs rfl rfl rfl rfl rfl rfl
    rfl rfl rfl
theorem Keeps.onPath {s t : State} {f : Path → Path} (h : Keeps s t) : Keeps s (t.onPath f) := h.eqs rfl rfl rfl rfl rfl rfl
    rfl rfl rfl
theorem Keeps.onMisc {s t : State} {f : Misc → Misc} (h : Keeps s t) : Keeps s (t.onMisc f) := h.eqs rfl rfl rfl rfl rfl rfl
    rfl rfl rfl
theorem Keeps.onMedia {s t : State} {f : Media → Media} (h : Keeps s t) : Keeps s (t.onMedia f) := h.eqs rfl rfl rfl rfl rfl
    rfl rfl rfl rfl
theorem Keeps.onBoot {s t : State} {f : Boot → Boot} (h : Keeps s t) : Keeps s (t.onBoot f) := h.eqs rfl rfl rfl rfl rfl rfl
    rfl rfl rfl

theorem Keeps.onUpkeep {s t : State} {f : Upkeep → Upkeep} (k : ∀ x, x.lostNext ≤ (f x).lostNext) (h : Keeps s t) : Keeps s
    (t.onUpkeep f) :=
  h.trans ⟨rfl, .refl _, id, id, Nat.le_refl _, Nat.le_refl _, Nat.le_refl _, k t.upkeep, Nat.le_refl _⟩
theorem Keeps.onJournal {s t : State} {f : Journal → Journal} (k : ∀ x, x.nextSerial ≤ (f x).nextSerial) (h : Keeps s t) :
    Keeps s (t.onJournal f) :=
  h.trans ⟨rfl, .refl _, id, id, Nat.le_refl _, Nat.le_refl _, k t.journal, Nat.le_refl _, Nat.le_refl _⟩
theorem Keeps.onHk {s t : State} {f : Hk → Hk} (k : ∀ x, x.historyNext ≤ (f x).historyNext) (h : Keeps s t) : Keeps s
    (t.onHk f) :=
  h.trans ⟨rfl, .refl _, id, id, Nat.le_refl _, k t.hk, Nat.le_refl _, Nat.le_refl _, Nat.le_refl _⟩
theorem Keeps.onFh {s t : State} {f : Fh → Fh} (k : ∀ x, x.historyNext ≤ (f x).historyNext) (h : Keeps s t) : Keeps s
    (t.onFh f) :=
  h.trans ⟨rfl, .refl _, id, id, k t.fh, Nat.le_refl _, Nat.le_refl _, Nat.le_refl _, Nat.le_refl _⟩
theorem Keeps.onSec {s t : State} {f : Sec → Sec} (ho : ∀ x, (f x).otp = x.otp) (hu : ∀ x, (f x).unlock = x.unlock)
    (h : Keeps s t) :
    Keeps s (t.onSec f) :=
  h.trans ⟨rfl, by change OtpGrows _ (f t.sec).otp; rw [ho]; exact .refl _, id, by
    unfold unlockOwned State.onSec; simp only [hu]; exact id,
    Nat.le_refl _, Nat.le_refl _, Nat.le_refl _, Nat.le_refl _, Nat.le_refl _⟩
/-- The unlock ends. -/
theorem Keeps.onSecNone {s t : State} {f : Sec → Sec} (ho : ∀ x, (f x).otp = x.otp) (hu : ∀ x, (f x).unlock = none)
    (h : Keeps s t) :
    Keeps s (t.onSec f) :=
  h.trans ⟨rfl, by change OtpGrows _ (f t.sec).otp; rw [ho]; exact .refl _, id, by
    unfold unlockOwned State.onSec; simp only [hu]; exact fun _ => trivial,
    Nat.le_refl _, Nat.le_refl _, Nat.le_refl _, Nat.le_refl _, Nat.le_refl _⟩
theorem Keeps.onOwn {s t : State} {f : Own → Own} (k : ∀ x, (f x).owner = x.owner) (h : Keeps s t) : Keeps s (t.onOwn f) :=
  h.trans ⟨rfl, .refl _, id, by
    unfold unlockOwned State.onOwn; simp only [k]; exact id,
    Nat.le_refl _, Nat.le_refl _, Nat.le_refl _, Nat.le_refl _, Nat.le_refl _⟩
/-- A free value is drawn. -/
theorem Keeps.draw {s m : State}
    {now run boot image copyInUse ucode dlBuf dlGran commit activation pa pb mode path movers blocks dcs misc}
    (h : Keeps s m) :
    Keeps s (.mk now run boot m.spi image copyInUse ucode dlBuf dlGran commit activation pa pb m.own mode path m.media
        m.upkeep m.journal
      movers blocks dcs m.hk m.fh m.sec misc (m.freeCtr + 1) m.pending) :=
  h.trans ⟨rfl, .refl _, id, id, Nat.le_refl _, Nat.le_refl _, Nat.le_refl _, Nat.le_refl _, Nat.le_succ _⟩
/-- The SPI NOR is written, and stays in canonical form. -/
theorem Keeps.spiPut {s m : State}
    {now run boot spi image copyInUse ucode dlBuf dlGran commit activation pa pb mode path movers blocks dcs misc}
    (w : memWf 0xFF m.spi = true → memWf 0xFF spi = true) (h : Keeps s m) :
    Keeps s (.mk now run boot spi image copyInUse ucode dlBuf dlGran commit activation pa pb m.own mode path m.media m.upkeep
        m.journal
      movers blocks dcs m.hk m.fh m.sec misc m.freeCtr m.pending) :=
  h.trans ⟨rfl, .refl _, w, id, Nat.le_refl _, Nat.le_refl _, Nat.le_refl _, Nat.le_refl _, Nat.le_refl _⟩
/-- The owner changes while no unlock is in effect. -/
theorem Keeps.onOwnNone {s t : State} {f : Own → Own} (k : t.sec.unlock = none) (h : Keeps s t) : Keeps s (t.onOwn f) :=
  h.trans ⟨rfl, .refl _, id, by
    unfold unlockOwned State.onOwn; simp only [k]; exact fun _ => trivial,
    Nat.le_refl _, Nat.le_refl _, Nat.le_refl _, Nat.le_refl _, Nat.le_refl _⟩
theorem Keeps.onSecOtp {s t : State} {f : Sec → Sec} (ho : ∀ x, OtpGrows x.otp (f x).otp) (hu : ∀ x, (f x).unlock = x.unlock)
    (h : Keeps s t) : Keeps s (t.onSec f) :=
  h.trans ⟨rfl, ho _, id, by
    unfold unlockOwned State.onSec; simp only [hu]; exact id,
    Nat.le_refl _, Nat.le_refl _, Nat.le_refl _, Nat.le_refl _, Nat.le_refl _⟩
theorem Keeps.foldl1 {α β : Type} {f : State × β → α → State × β} {l : List α} {s : State} {acc : State × β}
    (h : ∀ a x, Keeps a.1 (f a x).1) (k : Keeps s acc.1) : Keeps s (l.foldl f acc).1 := by
  induction l generalizing acc with
  | nil => exact k
  | cons x xs ih => exact ih (k.trans (h acc x))
theorem Keeps.foldlE {α β : Type} {f : State × β → α → State × β} {l : List α} {acc : State × β} {t : State} {n : β}
    (h : ∀ a x, Keeps a.1 (f a x).1) (e : l.foldl f acc = (t, n)) : Keeps acc.1 t := by
  have := Keeps.foldl1 (l := l) h (Keeps.refl acc.1)
  rw [e] at this; exact this
theorem Keeps.iteL {c : Prop} [Decidable c] {s a p : State} (h : Keeps p a) (k : Keeps s p) : Keeps s (if c then a else p) := by
  split
  · exact k.trans h
  · exact k
theorem Keeps.iteR {c : Prop} [Decidable c] {s a p : State} (h : Keeps p a) (k : Keeps s p) : Keeps s (if c then p else a) := by
  split
  · exact k
  · exact k.trans h

theorem Keeps.elimL {α : Type} {o : Option α} {s p : State} {f : α → State} (h : ∀ x, Keeps p (f x)) (k : Keeps s p) : Keeps s
    (o.elim p f) := by
  cases o with
  | none => exact k
  | some x => exact k.trans (h x)

theorem OtpGrows.program (m : List Host.Cell) (a : Nat) (b : Byte) : OtpGrows m (memPut 0 m a (memGet 0 m a ||| b)) := fun w
    => by
  refine ⟨memPut_wf w a _, fun x => ?_⟩
  by_cases h : x = a
  · subst h
    rw [memGet_memPut_same w]
    ext i hi
    simp only [BitVec.getElem_and, BitVec.getElem_or]
    cases (memGet 0 m x)[i] <;> simp
  · rw [memGet_memPut_other _ h, BitVec.and_self]
theorem OtpGrows.foldl {α : Type} {f : List Host.Cell → α → List Host.Cell} {l : List α} {m : List Host.Cell}
    (h : ∀ n x, OtpGrows n (f n x)) :
    OtpGrows m (l.foldl f m) := by
  induction l generalizing m with
  | nil => exact .refl m
  | cons x xs ih => exact (h m x).trans ih

end Sys2Proof.Machine
end

