-- ==== Sys2Proof/Laws/KeepsShared.lean ====
section
/-! SUPPORT. `Keeps` for the shared operations: one lemma per operation. -/
namespace Sys2Proof.Machine

theorem modBlock_keeps (s : State) (die block : Nat) (f : Block → Block) : Keeps s (modBlock s die block f) := by
  unfold modBlock
  with_reducible (refine .onMedia ?_; exact .refl _)
theorem modDie_keeps (s : State) (die : Nat) (f : Die → Die) : Keeps s (modDie s die f) := by
  unfold modDie
  with_reducible (refine .onMedia ?_; exact .refl _)
theorem modChan_keeps (s : State) (ch : Nat) (f : Channel → Channel) : Keeps s (modChan s ch f) := by
  unfold modChan
  with_reducible (refine .onMedia ?_; exact .refl _)
theorem modCluster_keeps (s : State) (g : Nat) (f : Cluster → Cluster) : Keeps s (modCluster s g f) := by
  unfold modCluster
  with_reducible (refine .onMedia ?_; exact .refl _)
theorem modFlacon_keeps (s : State) (i : Nat) (f : Flacon → Flacon) : Keeps s (modFlacon s i f) := by
  unfold modFlacon
  with_reducible (refine .onPath ?_; exact .refl _)
theorem modSb_keeps (s : State) (n : Nat) (f : SuperBlock → SuperBlock) : Keeps s (modSb s n f) := by
  unfold modSb
  with_reducible (refine .onMedia ?_; exact .refl _)
theorem modStripe_keeps (s : State) (sb k : Nat) (f : Stripe → Stripe) : Keeps s (modStripe s sb k f) := by
  unfold modStripe
  with_reducible (refine .onMedia ?_; exact .refl _)
theorem putMap_keeps (s : State) (mi : Nat) (e : MapEntry) : Keeps s (putMap s mi e) := by
  unfold putMap
  with_reducible (refine .onPath ?_; exact .refl _)
theorem bumpVer_keeps (s : State) (mi : Nat) : Keeps s (bumpVer s mi) := by
  unfold bumpVer
  with_reducible (refine .onPath ?_; exact .refl _)
theorem programMember_keeps (sb : Nat) (t : Stripe) (s : State) (m : Nat) : Keeps s (programMember sb t s m) := by
  unfold programMember
  with_reducible
    split; exact .refl _; dsimp only; refine .iteR ?_ ?_; refine .trans ?_ (modChan_keeps ..); refine .trans ?_ (modSb_keeps ..)
    refine .onMedia ?_; exact .refl _; exact .refl _
theorem programSystem_keeps (s : State) (sb n : Nat) (el : Nat → Element) : Keeps s (programSystem s sb n el) := by
  unfold programSystem
  with_reducible
    split; exact .refl _; dsimp only; refine .trans ?_ (modSb_keeps ..); refine .foldl (fun _ _ => ?_) ?_
    refine .foldl (fun _ _ => ?_) ?_; refine .trans ?_ (programMember_keeps ..); exact .refl _; exact .refl _; exact .refl _
theorem idleTick_keeps (s : State) : Keeps s (idleTick s) := by
  unfold idleTick
  with_reducible (refine .raw ?_; exact .refl _)
theorem pmeOnChange_keeps (old s : State) : Keeps s (pmeOnChange old s) := by
  unfold pmeOnChange
  with_reducible (dsimp only; refine .iteL ?_ ?_; refine .onBoth ?_; exact .refl _; exact .refl _)
theorem postCqe_keeps (s : State) (p : PortId) (c : Cqe) : Keeps s (postCqe s p c) := by
  unfold postCqe
  with_reducible (refine .onPort ?_; exact .refl _)
theorem adminDone_keeps (s : State) (a : AdminId) (st : Status) (dw0 : BitVec 32) (dw1 : BitVec 32) : Keeps s
    (adminDone s a st dw0 dw1) := by
  unfold adminDone
  with_reducible (refine .trans ?_ (postCqe_keeps ..); exact .refl _)
theorem refuseInSafe_keeps (s : State) (a : AdminId) : Keeps s (refuseInSafe s a) := by
  unfold refuseInSafe
  with_reducible (refine .trans ?_ (postCqe_keeps ..); exact .refl _)
theorem modCmd_keeps (s : State) (p : PortId) (sq cid : Nat) (f : OutCmd → OutCmd) : Keeps s (modCmd s p sq cid f) := by
  unfold modCmd
  with_reducible (refine .onPort ?_; exact .refl _)
theorem dropCmd_keeps (s : State) (p : PortId) (sq cid : Nat) : Keeps s (dropCmd s p sq cid) := by
  unfold dropCmd
  with_reducible (dsimp only; refine .onPort ?_; refine .onUpkeep (fun _ => Nat.le_refl _) ?_; exact .refl _)
theorem ioDone_keeps (s : State) (p : PortId) (sq cid : Nat) (st : Status) (dw0 : BitVec 32) (dw1 : BitVec 32) : Keeps s
    (ioDone s p sq cid st dw0 dw1) := by
  unfold ioDone
  with_reducible (refine .trans ?_ (postCqe_keeps ..); refine .trans ?_ (dropCmd_keeps ..); exact .refl _)
theorem notice_keeps (s : State) (page : Nat) (again : Bool) : Keeps s (notice s page again) := by
  unfold notice
  with_reducible (refine .foldl (fun _ _ => ?_) ?_; refine .onPort ?_; exact .refl _; exact .refl _)
theorem openChunk_keeps (s : State) : Keeps s (openChunk s) := by
  unfold openChunk
  with_reducible (refine .onJournal (fun _ => Nat.le_succ _) ?_; exact .refl _)
theorem modChunk_keeps (s : State) (serial : Nat) (f : Chunk → Chunk) : Keeps s (modChunk s serial f) := by
  unfold modChunk
  with_reducible (refine .onJournal (fun _ => Nat.le_refl _) ?_; exact .refl _)
theorem programChunk_keeps (sb : Nat) (s : State) (c : Chunk) : Keeps s (programChunk sb s c) := by
  unfold programChunk
  with_reducible
    dsimp only; refine .trans ?_ (modSb_keeps ..); refine .onMedia ?_; refine .onJournal (fun _ => Nat.le_refl _) ?_
    refine .trans ?_ (programSystem_keeps ..); exact .refl _
theorem deltaProgram_keeps (s : State) : Keeps s (deltaProgram s) := by
  unfold deltaProgram
  with_reducible
    split; exact .refl _; dsimp only; refine .foldl (fun _ _ => ?_) ?_; refine .trans ?_ (programChunk_keeps ..); exact .refl _
    refine .onUpkeep (fun _ => Nat.le_refl _) ?_; exact .refl _
theorem closeChunk_keeps (s : State) : Keeps s (closeChunk s) := by
  unfold closeChunk
  with_reducible
    split; exact .refl _; dsimp only; refine .trans ?_ (deltaProgram_keeps ..); refine .onJournal (fun _ => Nat.le_refl _) ?_
    refine .trans ?_ (modChunk_keeps ..); exact .refl _
theorem rateSecond_serial (n : Nat) (j : Journal) : (rateSecond n j).nextSerial = j.nextSerial := by
  unfold rateSecond
  split <;> rfl
theorem rateWindow_serial (n : Nat) (j : Journal) : (rateWindow n j).nextSerial = j.nextSerial := by
  unfold rateWindow
  split <;> rfl
theorem rateMore_serial (j : Journal) : (rateMore j).nextSerial = j.nextSerial := rfl
theorem countRecord_keeps (s : State) : Keeps s (countRecord s) := by
  unfold countRecord
  exact Keeps.onJournal
      (fun _ => Nat.le_of_eq ((rateMore_serial _).trans ((rateWindow_serial _ _).trans (rateSecond_serial _ _))).symm) (.refl s)
theorem withOpenChunk_keeps (s : State) : Keeps s (withOpenChunk s) := by
  unfold withOpenChunk
  with_reducible (refine .iteL ?_ ?_; refine .trans ?_ (openChunk_keeps ..); exact .refl _; exact .refl _)
theorem putRecord_keeps (s : State) (n : Nat) (r : Rec) : Keeps s (putRecord s n r) := by
  unfold putRecord
  with_reducible
    dsimp only; refine .iteL ?_ ?_; refine .trans ?_ (closeChunk_keeps ..); exact .refl _; refine .trans ?_ (modChunk_keeps ..)
    exact .refl _
theorem putOpen_keeps (s : State) (r : Rec) : Keeps s (putOpen s r) := by
  unfold putOpen
  with_reducible (split; exact .refl _; refine .trans ?_ (putRecord_keeps ..); exact .refl _)
theorem jot_keeps (s : State) (r : Rec) : Keeps s (jot s r) := by
  unfold jot
  with_reducible
    refine .trans ?_ (putOpen_keeps ..); refine .trans ?_ (withOpenChunk_keeps ..); refine .trans ?_ (countRecord_keeps ..)
    exact .refl _
theorem jotAll_keeps (s : State) (rs : List Rec) : Keeps s (jotAll s rs) := by
  unfold jotAll
  with_reducible (refine .foldl (fun _ _ => ?_) ?_; refine .trans ?_ (jot_keeps ..); exact .refl _; exact .refl _)
theorem putAnchor_keeps (s : State) (f : Anchor → Anchor) : Keeps s (putAnchor s f) := by
  unfold putAnchor
  with_reducible (refine .onJournal (fun _ => Nat.le_refl _) ?_; exact .refl _)
theorem noteSeal_keeps (s : State) (c : OutCmd) (st : Status) : Keeps s (noteSeal s c st) := by
  unfold noteSeal
  with_reducible (split; dsimp only; split; refine .onPort ?_; exact .refl _; exact .refl _; exact .refl _)
theorem ioEnd_keeps (s : State) (c : OutCmd) (st : Status) : Keeps s (ioEnd s c st) := by
  unfold ioEnd
  with_reducible (refine .trans ?_ (ioDone_keeps ..); refine .trans ?_ (noteSeal_keeps ..); exact .refl _)
theorem vendorDone_keeps (s : State) (a : AdminId) (t : Token) : Keeps s (vendorDone s a t) := by
  unfold vendorDone
  with_reducible
    dsimp only; refine .foldl (fun _ _ => ?_) ?_; refine .trans ?_ (adminDone_keeps ..); refine .onPort ?_; exact .refl _
    refine .onPort ?_; refine .trans ?_ (adminDone_keeps ..); refine .onPort ?_; exact .refl _
theorem noteRefused_keeps (s : State) (a : AdminId) (token opcode : Nat) (print : BitVec 32) : Keeps s
    (noteRefused s a token opcode print) := by
  unfold noteRefused
  with_reducible (split; refine .onPort ?_; exact .refl _; exact .refl _)
theorem vendorCmd_keeps (s : State) (a : AdminId) (token opcode : Nat) (print : BitVec 32) (fieldsBad needOwner held : Bool)
    (run : State → State) (hrun : ∀ s, Keeps s (run s)) : Keeps s
    (vendorCmd s a token opcode print fieldsBad needOwner held run) := by
  unfold vendorCmd
  with_reducible
    refine .ite ?_ ?_; refine .trans ?_ (refuseInSafe_keeps ..); refine .trans ?_ (noteRefused_keeps ..); exact .refl _
    refine .ite ?_ ?_; refine .onPort ?_; exact .refl _; split; refine .trans ?_ (adminDone_keeps ..); refine .onPort ?_
    exact .refl _; refine .trans ?_ (adminDone_keeps ..); refine .onPort ?_; exact .refl _; refine .ite ?_ ?_
    refine .trans ?_ (vendorDone_keeps ..); exact .refl _; refine .ite ?_ ?_; refine .trans ?_ (vendorDone_keeps ..)
    exact .refl _; refine .trans ?_ (hrun _); exact .refl _
theorem horizonDone_keeps (s : State) (p : PortId) : Keeps s (horizonDone s p) := by
  unfold horizonDone
  with_reducible
    refine .foldl (fun _ _ => ?_) ?_; split; refine .ite ?_ ?_; refine .trans ?_ (ioDone_keeps ..); exact .refl _; exact .refl _
    refine .ite ?_ ?_; split; refine .ite ?_ ?_; refine .trans ?_ (ioDone_keeps ..); exact .refl _; exact .refl _; exact .refl _
    exact .refl _; exact .refl _
theorem advanceHorizon_keeps (s : State) : Keeps s (advanceHorizon s) := by
  unfold advanceHorizon
  with_reducible
    dsimp only; refine .iteR ?_ ?_; refine .trans ?_ (horizonDone_keeps ..); refine .trans ?_ (horizonDone_keeps ..)
    refine .trans ?_ (jot_keeps ..); refine .onPath ?_; exact .refl _; refine .onPath ?_; exact .refl _
theorem assignSeq_keeps1 (s : State) (p : PortId) : Keeps s (assignSeq s p).1 := by
  unfold assignSeq
  with_reducible (dsimp only; refine .onPath ?_; exact .refl _)

theorem assignSeq_keeps {s : State} {p : PortId} {t : State} {r} (e : assignSeq s p = (t, r)) : Keeps s t := by
  have k := assignSeq_keeps1 s p
  rw [e] at k; exact k
theorem retireSeq_keeps (s : State) (n : Nat) : Keeps s (retireSeq s n) := by
  unfold retireSeq
  with_reducible (refine .onPath ?_; exact .refl _)
theorem protectSeq_keeps (s : State) (n : Nat) : Keeps s (protectSeq s n) := by
  unfold protectSeq
  with_reducible (refine .onPath ?_; exact .refl _)
theorem addValid_keeps (s : State) (pa n : Nat) : Keeps s (addValid s pa n) := by
  unfold addValid
  with_reducible (refine .trans ?_ (modSb_keeps ..); exact .refl _)
theorem subValid_keeps (s : State) (pa n : Nat) : Keeps s (subValid s pa n) := by
  unfold subValid
  with_reducible (refine .trans ?_ (modSb_keeps ..); exact .refl _)
theorem fixOverlayBit_keeps (s : State) (mi : Nat) : Keeps s (fixOverlayBit s mi) := by
  unfold fixOverlayBit
  with_reducible (refine .trans ?_ (putMap_keeps ..); exact .refl _)
theorem ovlRemove_keeps (s : State) (n : Namespace) (iu sub seq : Nat) : Keeps s (ovlRemove s n iu sub seq) := by
  unfold ovlRemove
  with_reducible
    dsimp only; split; exact .refl _; refine .trans ?_ (fixOverlayBit_keeps ..); refine .iteR ?_ ?_
    refine .trans ?_ (subValid_keeps ..); exact .refl _; refine .onPath ?_; refine .trans ?_ (jot_keeps ..); exact .refl _
theorem ovlReserve_keeps (s : State) (mi sub : Nat) : Keeps s (ovlReserve s mi sub) := by
  unfold ovlReserve
  with_reducible (refine .ite ?_ ?_; exact .refl _; split; exact .refl _; refine .onPath ?_; exact .refl _)
theorem ovlRelease_keeps (s : State) (n : Namespace) (iu : Nat) (subs : List Nat) : Keeps s (ovlRelease s n iu subs) := by
  unfold ovlRelease
  with_reducible (dsimp only; refine .onPath ?_; exact .refl _)
theorem ovlStore_keeps (s : State) (e : OvlEntry) : Keeps s (ovlStore s e) := by
  unfold ovlStore
  with_reducible
    split; dsimp only; refine .onPath ?_; refine .iteR ?_ ?_; refine .trans ?_ (subValid_keeps ..); exact .refl _; exact .refl _
    split; exact .refl _; refine .onPath ?_; exact .refl _
theorem ovlPlace_keeps (s : State) (mi sub : Nat) (trimmed : Bool) (pa psub seq : Nat) : Keeps s
    (ovlPlace s mi sub trimmed pa psub seq) := by
  unfold ovlPlace
  with_reducible
    dsimp only; refine .trans ?_ (fixOverlayBit_keeps ..); refine .iteR ?_ ?_; refine .trans ?_ (addValid_keeps ..)
    exact .refl _; refine .trans ?_ (ovlStore_keeps ..); refine .trans ?_ (jot_keeps ..); exact .refl _
theorem mergeLost_keeps (s : State) : Keeps s (mergeLost s) := by
  unfold mergeLost
  with_reducible
    refine .ite ?_ ?_; exact .refl _; split; exact .refl _; dsimp only; refine .trans ?_ (jotAll_keeps ..)
    refine .onUpkeep (fun _ => Nat.le_refl _) ?_; exact .refl _
theorem addLost_keeps (s : State) (n : Namespace) (iu cause seq : Nat) : Keeps s (addLost s n iu cause seq) := by
  unfold addLost
  with_reducible
    dsimp only; split; refine .trans ?_ (jotAll_keeps ..); refine .onUpkeep (fun _ => Nat.le_refl _) ?_; exact .refl _
    refine .trans ?_ (notice_keeps ..); refine .trans ?_ (jotAll_keeps ..); refine .onUpkeep (fun _ => Nat.le_succ _) ?_
    refine .trans ?_ (mergeLost_keeps ..); exact .refl _
theorem cleanLost_keeps (s : State) : Keeps s (cleanLost s) := by
  unfold cleanLost
  with_reducible
    dsimp only; refine .iteR ?_ ?_; refine .trans ?_ (jotAll_keeps ..); refine .onUpkeep (fun _ => Nat.le_refl _) ?_
    exact .refl _; exact .refl _
theorem poisonIu_keeps (s : State) (n : Namespace) (iu cause seq : Nat) (ovlSub : Option Nat) : Keeps s
    (poisonIu s n iu cause seq ovlSub) := by
  unfold poisonIu
  with_reducible
    dsimp only; refine .iteR ?_ ?_; refine .trans ?_ (addLost_keeps ..); refine .onUpkeep (fun _ => Nat.le_refl _) ?_
    refine .iteL ?_ ?_; refine .trans ?_ (subValid_keeps ..); exact .refl _; refine .trans ?_ (putMap_keeps ..)
    refine .trans ?_ (jot_keeps ..); exact .refl _; split; exact .refl _; refine .trans ?_ (ovlRemove_keeps ..); exact .refl _
theorem setApplied_keeps (s : State) (mi sub seq : Nat) : Keeps s (setApplied s mi sub seq) := by
  unfold setApplied
  with_reducible (refine .onPath ?_; exact .refl _)
theorem forgetApplied_keeps (s : State) (n : Namespace) (iu : Nat) : Keeps s (forgetApplied s n iu) := by
  unfold forgetApplied
  with_reducible (dsimp only; refine .iteR ?_ ?_; refine .onPath ?_; exact .refl _; exact .refl _)
theorem setBase_keeps (s : State) (mi : Nat) (pa : Option Nat) (seq : Nat) : Keeps s (setBase s mi pa seq) := by
  unfold setBase
  with_reducible
    dsimp only; split; refine .trans ?_ (addValid_keeps ..); refine .iteL ?_ ?_; refine .trans ?_ (subValid_keeps ..)
    exact .refl _; refine .trans ?_ (putMap_keeps ..); refine .trans ?_ (jot_keeps ..); exact .refl _; refine .iteL ?_ ?_
    refine .trans ?_ (subValid_keeps ..); exact .refl _; refine .trans ?_ (putMap_keeps ..); refine .trans ?_ (jot_keeps ..)
    exact .refl _
theorem killFolds_keeps (s : State) (nsid iu : Nat) : Keeps s (killFolds s nsid iu) := by
  unfold killFolds
  with_reducible (refine .onPath ?_; exact .refl _)
theorem applyWhole_keeps (s : State) (n : Namespace) (iu seq : Nat) (pa : Option Nat) : Keeps s (applyWhole s n iu seq pa) := by
  unfold applyWhole
  with_reducible
    dsimp only; refine .iteR ?_ ?_; refine .iteR ?_ ?_; refine .trans ?_ (cleanLost_keeps ..); exact .refl _
    refine .foldl (fun _ _ => ?_) ?_; refine .trans ?_ (setApplied_keeps ..); refine .trans ?_ (ovlRemove_keeps ..)
    exact .refl _; refine .trans ?_ (killFolds_keeps ..); refine .trans ?_ (setBase_keeps ..); exact .refl _; exact .refl _
theorem applySub_keeps (s : State) (n : Namespace) (iu sub seq : Nat) (trimmed : Bool) (pa psub : Nat) : Keeps s
    (applySub s n iu sub seq trimmed pa psub) := by
  unfold applySub
  with_reducible
    dsimp only; refine .iteR ?_ ?_; refine .trans ?_ (setApplied_keeps ..); refine .trans ?_ (killFolds_keeps ..)
    refine .trans ?_ (ovlPlace_keeps ..); exact .refl _; exact .refl _
theorem queueOp_keeps (s : State) (die : Nat) (k : OpKind) (cls : Nat) : Keeps s (queueOp s die k cls) := by
  unfold queueOp
  with_reducible (refine .trans ?_ (modDie_keeps ..); exact .refl _)
theorem returnGrant_keeps (s : State) (die : Nat) (o : DieOp) : Keeps s (returnGrant s die o) := by
  unfold returnGrant
  with_reducible (refine .iteL ?_ ?_; refine .onHk (fun _ => Nat.le_refl _) ?_; exact .refl _; exact .refl _)
theorem dropOps_keeps (s : State) (die : Nat) (f : DieOp → Bool) : Keeps s (dropOps s die f) := by
  unfold dropOps
  with_reducible
    dsimp only; refine .trans ?_ (modDie_keeps ..); refine .foldl (fun _ _ => ?_) ?_; refine .trans ?_ (returnGrant_keeps ..)
    exact .refl _; exact .refl _
theorem beginOp_keeps (s : State) (die : Nat) (o : DieOp) : Keeps s (beginOp s die o) := by
  unfold beginOp
  with_reducible
    dsimp only; refine .trans ?_ (modChan_keeps ..); refine .trans ?_ (modDie_keeps ..); split; refine .trans ?_ (jot_keeps ..)
    exact .refl _; exact .refl _
theorem queueProgram_keeps (s : State) (sb m d : Nat) (closing : Bool) : Keeps s (queueProgram s sb m d closing) := by
  unfold queueProgram
  with_reducible
    split; exact .refl _; dsimp only; refine .iteR ?_ ?_; refine .trans ?_ (queueOp_keeps ..); exact .refl _; exact .refl _
theorem queuePrograms_keeps (s : State) (sb d : Nat) (closing : Bool) : Keeps s (queuePrograms s sb d closing) := by
  unfold queuePrograms
  with_reducible (refine .foldl (fun _ _ => ?_) ?_; refine .trans ?_ (queueProgram_keeps ..); exact .refl _; exact .refl _)
theorem withStripe_keeps (s : State) (sb k : Nat) : Keeps s (withStripe s sb k) := by
  unfold withStripe
  with_reducible (split; exact .refl _; refine .onMedia ?_; exact .refl _)
theorem putElement_keeps (s : State) (sb k j : Nat) (e : Element) (closing : Bool) : Keeps s (putElement s sb k j e closing)
    := by
  unfold putElement
  with_reducible
    dsimp only; split; refine .iteL ?_ ?_; refine .trans ?_ (queuePrograms_keeps ..); exact .refl _
    refine .trans ?_ (modStripe_keeps ..); refine .trans ?_ (withStripe_keeps ..); exact .refl _
    refine .trans ?_ (modStripe_keeps ..); refine .trans ?_ (withStripe_keeps ..); exact .refl _
theorem closeFull_keeps (s : State) (sb : Nat) : Keeps s (closeFull s sb) := by
  unfold closeFull
  with_reducible
    split; exact .refl _; refine .iteL ?_ ?_; refine .trans ?_ (modSb_keeps ..); refine .trans ?_ (jot_keeps ..); exact .refl _
    exact .refl _
theorem packSlot_keeps {s : State} {sb : Nat} {cws : List (BitVec 128 × Blk)} {poison : Bool} {t : State} {r : Nat}
    (e : packSlot s sb cws poison = some (t, r)) : Keeps s t := by
  unfold packSlot at e
  split at e
  · cases e
  · split at e
    · cases e
    · dsimp only at e
      split at e
      · cases e
      · cases e
        with_reducible refine Keeps.trans ?_ (closeFull_keeps ..)
        with_reducible refine Keeps.foldl (fun _ _ => ?_) ?_
        · with_reducible refine Keeps.trans ?_ (putElement_keeps ..)
          with_reducible exact Keeps.refl _
        · with_reducible refine Keeps.trans ?_ (modSb_keeps ..)
          with_reducible exact Keeps.refl _
theorem noteFiller_keeps (s : State) (sb k j : Nat) : Keeps s (noteFiller s sb k j) := by
  unfold noteFiller
  with_reducible (refine .trans ?_ (modSb_keeps ..); exact .refl _)
theorem fillStripe_keeps (s : State) (sb k : Nat) : Keeps s (fillStripe s sb k) := by
  unfold fillStripe
  with_reducible
    refine .foldl (fun _ _ => ?_) ?_; split; refine .ite ?_ ?_; refine .trans ?_ (putElement_keeps ..)
    refine .trans ?_ (noteFiller_keeps ..); exact .refl _; exact .refl _; refine .trans ?_ (putElement_keeps ..)
    refine .trans ?_ (noteFiller_keeps ..); exact .refl _; exact .refl _
theorem endStripe_keeps (s : State) (sb k : Nat) : Keeps s (endStripe s sb k) := by
  unfold endStripe
  with_reducible
    refine .iteL ?_ ?_; refine .trans ?_ (fillStripe_keeps ..); refine .trans ?_ (modSb_keeps ..); exact .refl _; exact .refl _
theorem addFillers_keeps (s : State) (sb : Nat) (l : List Nat) : Keeps s (addFillers s sb l) := by
  induction l generalizing s with
  | nil => exact .refl s
  | cons x xs ih =>
    unfold addFillers
    split
    · exact ((modSb_keeps ..).trans (fillStripe_keeps ..)).trans (ih _)
    · exact (modSb_keeps ..).trans (ih _)
theorem closeStripes_keeps (s : State) (sb : Nat) (f : Nat → Bool) : Keeps s (closeStripes s sb f) := by
  unfold closeStripes
  with_reducible
    split; exact .refl _; dsimp only; split; refine .foldl (fun _ _ => ?_) ?_; refine .trans ?_ (endStripe_keeps ..)
    exact .refl _; exact .refl _; refine .trans ?_ (closeFull_keeps ..); refine .trans ?_ (addFillers_keeps ..)
    refine .foldl (fun _ _ => ?_) ?_; refine .trans ?_ (endStripe_keeps ..); exact .refl _; exact .refl _
theorem closeUpTo_keeps (s : State) (n : Nat) : Keeps s (closeUpTo s n) := by
  unfold closeUpTo
  with_reducible (refine .foldl (fun _ _ => ?_) ?_; refine .trans ?_ (closeStripes_keeps ..); exact .refl _; exact .refl _)
theorem fdpEvent_keeps (s : State) (code handle : Nat) : Keeps s (fdpEvent s code handle) := by
  unfold fdpEvent
  with_reducible (refine .iteL ?_ ?_; refine .onUpkeep (fun _ => Nat.le_refl _) ?_; exact .refl _; exact .refl _)
theorem closeSb_keeps (s : State) (sb : Nat) (qf : Option Nat) : Keeps s (closeSb s sb qf) := by
  unfold closeSb
  with_reducible
    split; exact .refl _; refine .ite ?_ ?_; exact .refl _; dsimp only; refine .trans ?_ (modSb_keeps ..)
    refine .trans ?_ (jot_keeps ..); refine .trans ?_ (closeStripes_keeps ..); refine .trans ?_ (modSb_keeps ..); exact .refl _
theorem closeUnit_keeps (s : State) (sb : Nat) (qf : Option Nat) : Keeps s (closeUnit s sb qf) := by
  unfold closeUnit
  with_reducible
    split; exact .refl _; dsimp only; refine .trans ?_ (closeSb_keeps ..); refine .iteL ?_ ?_
    refine .trans ?_ (fdpEvent_keeps ..); exact .refl _; exact .refl _
theorem refreshFlacons_keeps (s : State) (sb : Nat) : Keeps s (refreshFlacons s sb) := by
  unfold refreshFlacons
  with_reducible (dsimp only; refine .onPath ?_; exact .refl _)
theorem claimAgain_keeps (s : State) (b : SuperBlock) (n : Nat) : Keeps s (claimAgain s b n) := by
  unfold claimAgain
  with_reducible (refine .ite ?_ ?_; refine .trans ?_ (modSb_keeps ..); exact .refl _; refine .onPath ?_; exact .refl _)
theorem reallocated_keeps (s : State) (b : SuperBlock) : Keeps s (reallocated s b) := by
  unfold reallocated
  with_reducible (refine .iteL ?_ ?_; refine .trans ?_ (fdpEvent_keeps ..); exact .refl _; exact .refl _)
theorem repack_keeps (s : State) (i : Nat) : Keeps s (repack s i) := by
  unfold repack
  with_reducible
    split; exact .refl _; split; refine .trans ?_ (modFlacon_keeps ..); exact .refl _; dsimp only
    refine .trans ?_ (reallocated_keeps ..); refine .trans ?_ (claimAgain_keeps ..); refine .trans ?_ (modFlacon_keeps ..)
    exact .refl _
theorem unplaceCopy_keeps (s : State) (c : Copy) : Keeps s (unplaceCopy s c) := by
  unfold unplaceCopy
  with_reducible
    dsimp only; split; refine .trans ?_ (reallocated_keeps ..); refine .iteL ?_ ?_; refine .trans ?_ (claimAgain_keeps ..)
    exact .refl _; refine .onPath ?_; refine .trans ?_ (modSb_keeps ..); exact .refl _; refine .onPath ?_
    refine .trans ?_ (modSb_keeps ..); exact .refl _
theorem unplaceCopies_keeps (s : State) (l : List Copy) : Keeps s (unplaceCopies s l) := by
  unfold unplaceCopies
  with_reducible (refine .foldl (fun _ _ => ?_) ?_; refine .trans ?_ (unplaceCopy_keeps ..); exact .refl _; exact .refl _)
theorem closeAll_keeps (s : State) : Keeps s (closeAll s) := by
  unfold closeAll
  with_reducible
    dsimp only; refine .foldl (fun _ _ => ?_) ?_; refine .trans ?_ (closeSb_keeps ..); exact .refl _
    refine .foldl (fun _ _ => ?_) ?_; refine .trans ?_ (closeStripes_keeps ..); exact .refl _; exact .refl _
theorem drydownSeal_keeps (s : State) : Keeps s (drydownSeal s) := by
  unfold drydownSeal
  with_reducible (refine .iteL ?_ ?_; refine .trans ?_ (closeAll_keeps ..); exact .refl _; exact .refl _)
theorem drydownClose_keeps (s : State) : Keeps s (drydownClose s) := by
  unfold drydownClose
  with_reducible (refine .trans ?_ (drydownSeal_keeps ..); refine .onPath ?_; exact .refl _)
theorem enterDrydown_keeps (s : State) : Keeps s (enterDrydown s) := by
  unfold enterDrydown
  with_reducible
    dsimp only; refine .iteR ?_ ?_; refine .trans ?_ (drydownClose_keeps ..); exact .refl _
    refine .onUpkeep (fun _ => Nat.le_refl _) ?_; refine .trans ?_ (putAnchor_keeps ..); refine .raw ?_; exact .refl _
theorem refuseWaitingWrites_keeps (s : State) : Keeps s (refuseWaitingWrites s) := by
  unfold refuseWaitingWrites
  with_reducible
    refine .foldl (fun _ _ => ?_) ?_; refine .foldl (fun _ _ => ?_) ?_; split; refine .trans ?_ (ioDone_keeps ..); exact .refl _
    refine .trans ?_ (ioDone_keeps ..); exact .refl _; refine .trans ?_ (ioDone_keeps ..); exact .refl _; exact .refl _
    exact .refl _; exact .refl _
theorem checkPreserve_keeps (s : State) : Keeps s (checkPreserve s) := by
  unfold checkPreserve
  with_reducible
    refine .ite ?_ ?_; dsimp only; refine .iteL ?_ ?_; refine .trans ?_ (enterDrydown_keeps ..); exact .refl _
    refine .trans ?_ (refuseWaitingWrites_keeps ..); refine .trans ?_ (pmeOnChange_keeps ..)
    refine .trans ?_ (putAnchor_keeps ..); refine .raw ?_; exact .refl _; exact .refl _
theorem takeBlock_keeps1 (s : State) (die : Nat) (u : SbUse) : Keeps s (takeBlock s die u).1 := by
  unfold takeBlock
  with_reducible
    split; dsimp only; exact .refl _; dsimp only; refine .trans ?_ (queueOp_keeps ..); refine .trans ?_ (modBlock_keeps ..)
    refine .trans ?_ (jot_keeps ..); exact .refl _

theorem takeBlock_keeps {s : State} {die : Nat} {u : SbUse} {t : State} {r} (e : takeBlock s die u = (t, r)) : Keeps s t := by
  have k := takeBlock_keeps1 s die u
  rw [e] at k; exact k
theorem checkUrgent_keeps (s : State) : Keeps s (checkUrgent s) := by
  unfold checkUrgent
  with_reducible
    dsimp only
    refine .onUpkeep (by intro x; first | (split <;> exact Nat.le_refl _) | (split <;> (try split) <;> exact Nat.le_refl _)) ?_
    exact .refl _
theorem takeAll_keeps1 (s : State) (u : SbUse) (l : List Nat) : Keeps s (takeAll s u l).1 := by
  induction l generalizing s with
  | nil => exact .refl s
  | cons x xs ih =>
    unfold takeAll
    exact (takeBlock_keeps1 ..).trans (ih _)
theorem putRlt_keeps (s : State) (b : SuperBlock) (idx : Nat) (e : RltEntry) : Keeps s (putRlt s b idx e) := by
  unfold putRlt
  with_reducible (refine .onMedia ?_; exact .refl _)
theorem formSb_keeps (s : State) (u : SbUse) (handle : Nat) : Keeps s (formSb s u handle) := by
  unfold formSb
  with_reducible
    dsimp only; split; exact .refl _; refine .iteR ?_ ?_; refine .iteL ?_ ?_; refine .trans ?_ (deltaProgram_keeps ..)
    refine .trans ?_ (putAnchor_keeps ..); exact .refl _; refine .trans ?_ (checkUrgent_keeps ..)
    refine .onUpkeep (fun _ => Nat.le_refl _) ?_; refine .onMedia ?_; refine .trans ?_ (jot_keeps ..)
    refine .trans ?_ (takeAll_keeps1 ..); exact .refl _; exact .refl _
theorem releaseBlock_keeps (s : State) (b : SuperBlock) (idx : Nat) : Keeps s (releaseBlock s b idx) := by
  unfold releaseBlock
  with_reducible
    dsimp only; refine .iteR ?_ ?_; refine .trans ?_ (modBlock_keeps ..); refine .trans ?_ (jot_keeps ..); exact .refl _
    exact .refl _
theorem releaseSb_keeps (s : State) (num : Nat) : Keeps s (releaseSb s num) := by
  unfold releaseSb
  with_reducible
    split; exact .refl _; dsimp only; refine .onUpkeep (fun _ => Nat.le_refl _) ?_; refine .onPath ?_; refine .onMedia ?_
    refine .foldl (fun _ _ => ?_) ?_; refine .trans ?_ (releaseBlock_keeps ..); exact .refl _; exact .refl _
theorem poisonAll_keeps (s : State) (cause : Nat) (l : List (Nat × Option Nat)) : Keeps s (poisonAll s cause l) := by
  unfold poisonAll
  with_reducible
    refine .foldl (fun _ _ => ?_) ?_; split; refine .trans ?_ (poisonIu_keeps ..); exact .refl _; exact .refl _; exact .refl _
theorem noteExposed_keeps (s : State) : Keeps s (noteExposed s) := by
  unfold noteExposed
  with_reducible
    refine .ite ?_ ?_; dsimp only; refine .iteR ?_ ?_; refine .trans ?_ (notice_keeps ..)
    refine .onUpkeep (fun _ => Nat.le_refl _) ?_; exact .refl _; refine .onUpkeep (fun _ => Nat.le_refl _) ?_; exact .refl _
    exact .refl _
theorem memberLoss_keeps (s : State) : Keeps s (memberLoss s) := by
  unfold memberLoss
  with_reducible
    dsimp only; refine .trans ?_ (checkUrgent_keeps ..); refine .trans ?_ (checkPreserve_keeps ..); refine .iteL ?_ ?_
    refine .trans ?_ (notice_keeps ..); exact .refl _; refine .trans ?_ (noteExposed_keeps ..)
    refine .trans ?_ (notice_keeps ..); refine .trans ?_ (poisonAll_keeps ..); refine .onUpkeep (fun _ => Nat.le_refl _) ?_
    refine .foldl (fun _ _ => ?_) ?_; split; refine .foldl (fun _ _ => ?_) ?_; refine .trans ?_ (repack_keeps ..); exact .refl _
    refine .trans ?_ (unplaceCopies_keeps ..); refine .ite ?_ ?_; refine .trans ?_ (closeUnit_keeps ..); refine .ite ?_ ?_
    refine .trans ?_ (fdpEvent_keeps ..); exact .refl _; exact .refl _; exact .refl _; exact .refl _; refine .onMedia ?_
    exact .refl _
theorem beginEntry_keeps (s : State) (t : Nat) : Keeps s (beginEntry s t) := by
  unfold beginEntry
  with_reducible
    dsimp only; refine .iteL ?_ ?_; refine .trans ?_ (closeUpTo_keeps ..); exact .refl _; refine .onMisc ?_; exact .refl _
theorem takePs_keeps (s : State) : Keeps s (takePs s) := by
  unfold takePs
  with_reducible
    dsimp only; refine .iteR ?_ ?_; refine .ite ?_ ?_; refine .trans ?_ (beginEntry_keeps ..); exact .refl _; refine .iteR ?_ ?_
    refine .onMisc ?_; exact .refl _; exact .refl _; exact .refl _
theorem closeIfDue_keeps (s : State) : Keeps s (closeIfDue s) := by
  unfold closeIfDue
  with_reducible (refine .iteL ?_ ?_; refine .trans ?_ (closeUpTo_keeps ..); exact .refl _; exact .refl _)
theorem restage_keeps (s : State) (i : Nat) : Keeps s (restage s i) := by
  unfold restage
  with_reducible (refine .trans ?_ (modFlacon_keeps ..); exact .refl _)
theorem modSubs_keeps (s : State) (w : PortId × Nat × Nat) (f : FSub → FSub) : Keeps s (modSubs s w f) := by
  unfold modSubs
  with_reducible (refine .onPath ?_; exact .refl _)
theorem releasePlans_keeps (s : State) (c : OutCmd) : Keeps s (releasePlans s c) := by
  unfold releasePlans
  with_reducible
    split; exact .refl _; refine .foldl (fun _ _ => ?_) ?_; refine .ite ?_ ?_; refine .trans ?_ (ovlRelease_keeps ..)
    exact .refl _; exact .refl _; exact .refl _
theorem leaveCluster_keeps (s : State) (j : CwJob) : Keeps s (leaveCluster s j) := by
  unfold leaveCluster
  with_reducible (refine .trans ?_ (modCluster_keeps ..); exact .refl _)
theorem dropJobs_keeps (s : State) (p : PortId) (sq cid : Nat) : Keeps s (dropJobs s p sq cid) := by
  unfold dropJobs
  with_reducible
    dsimp only; refine .onMedia ?_; refine .onPath ?_; refine .foldl (fun _ _ => ?_) ?_
    refine .trans ?_ (leaveCluster_keeps ..); refine .trans ?_ (modSb_keeps ..); exact .refl _; exact .refl _
theorem unselect_keeps (s : State) (n : Nat) : Keeps s (unselect s n) := by
  unfold unselect
  with_reducible
    dsimp only; refine .onBoth ?_; refine .foldl (fun _ _ => ?_) ?_; refine .trans ?_ (modFlacon_keeps ..); exact .refl _
    exact .refl _
theorem unselectOf_keeps (s : State) (c : OutCmd) : Keeps s (unselectOf s c) := by
  unfold unselectOf
  with_reducible (split; refine .trans ?_ (unselect_keeps ..); exact .refl _; exact .refl _)
theorem discardWrite_keeps (s : State) (c : OutCmd) : Keeps s (discardWrite s c) := by
  unfold discardWrite
  with_reducible
    dsimp only; split; refine .trans ?_ (advanceHorizon_keeps ..); refine .trans ?_ (retireSeq_keeps ..)
    refine .trans ?_ (releasePlans_keeps ..); refine .trans ?_ (modCmd_keeps ..); refine .foldl (fun _ _ => ?_) ?_
    refine .trans ?_ (restage_keeps ..); exact .refl _; refine .onPath ?_; refine .trans ?_ (unselectOf_keeps ..)
    refine .trans ?_ (dropJobs_keeps ..); exact .refl _; refine .trans ?_ (releasePlans_keeps ..)
    refine .trans ?_ (modCmd_keeps ..); refine .foldl (fun _ _ => ?_) ?_; refine .trans ?_ (restage_keeps ..); exact .refl _
    refine .onPath ?_; refine .trans ?_ (unselectOf_keeps ..); refine .trans ?_ (dropJobs_keeps ..); exact .refl _
theorem failWrite_keeps (s : State) (c : OutCmd) (st : Status) : Keeps s (failWrite s c st) := by
  unfold failWrite
  with_reducible (refine .trans ?_ (ioDone_keeps ..); refine .trans ?_ (discardWrite_keeps ..); exact .refl _)
theorem protectWrite_keeps (s : State) (c : OutCmd) : Keeps s (protectWrite s c) := by
  unfold protectWrite
  with_reducible
    dsimp only; refine .ite ?_ ?_; refine .trans ?_ (advanceHorizon_keeps ..); refine .trans ?_ (closeIfDue_keeps ..)
    refine .trans ?_ (modCmd_keeps ..); refine .trans ?_ (protectSeq_keeps ..); refine .foldl (fun _ _ => ?_) ?_
    refine .trans ?_ (restage_keeps ..); exact .refl _; refine .trans ?_ (modSubs_keeps ..); exact .refl _
    refine .trans ?_ (advanceHorizon_keeps ..); refine .trans ?_ (ioDone_keeps ..); refine .trans ?_ (protectSeq_keeps ..)
    refine .foldl (fun _ _ => ?_) ?_; refine .trans ?_ (restage_keeps ..); exact .refl _; refine .trans ?_ (modSubs_keeps ..)
    exact .refl _
theorem protectIfDone_keeps (s : State) (p : PortId) (sq cid : Nat) : Keeps s (protectIfDone s p sq cid) := by
  unfold protectIfDone
  with_reducible
    split; exact .refl _; refine .iteL ?_ ?_; refine .trans ?_ (protectWrite_keeps ..); exact .refl _; exact .refl _
theorem trimNow_keeps (s : State) (t : TrimVer) : Keeps s (trimNow s t) := by
  unfold trimNow
  with_reducible
    dsimp only; split; refine .onPath ?_; exact .refl _; refine .trans ?_ (forgetApplied_keeps ..); refine .iteR ?_ ?_
    refine .ite ?_ ?_; refine .trans ?_ (applyWhole_keeps ..); exact .refl _; refine .foldl (fun _ _ => ?_) ?_
    refine .trans ?_ (applySub_keeps ..); exact .refl _; exact .refl _; refine .onPath ?_; exact .refl _
theorem commitParts_keeps (s : State) (i : Nat) : Keeps s (commitParts s i) := by
  unfold commitParts
  with_reducible (dsimp only; refine .trans ?_ (restage_keeps ..); refine .trans ?_ (modFlacon_keeps ..); exact .refl _)
theorem freeBlkOf_keeps1 (s : State) : Keeps s (freeBlkOf s).1 := by
  unfold freeBlkOf
  with_reducible (dsimp only; refine .draw ?_; exact .refl _)

theorem freeBlkOf_keeps {s : State} {t : State} {r} (e : freeBlkOf s = (t, r)) : Keeps s t := by
  have k := freeBlkOf_keeps1 s
  rw [e] at k; exact k
theorem mergeFailed_keeps (s : State) (n : Namespace) (c : OutCmd) (iu : Nat) : Keeps s (mergeFailed s n c iu) := by
  unfold mergeFailed
  with_reducible
    dsimp only; split; exact .refl _; refine .ite ?_ ?_; refine .trans ?_ (failWrite_keeps ..); exact .refl _
    refine .iteR ?_ ?_; refine .trans ?_ (protectIfDone_keeps ..); refine .onPath ?_; exact .refl _
    refine .trans ?_ (modCmd_keeps ..); refine .foldl (fun _ _ => ?_) ?_; refine .trans ?_ (restage_keeps ..); exact .refl _
    refine .onPath ?_; refine .foldl (fun _ _ => ?_) ?_; refine .trans ?_ (ovlReserve_keeps ..); exact .refl _; exact .refl _
theorem modJob_keeps (s : State) (id : Nat) (f : CwJob → CwJob) : Keeps s (modJob s id f) := by
  unfold modJob
  with_reducible (refine .onPath ?_; exact .refl _)
theorem dropJob_keeps (s : State) (id : Nat) : Keeps s (dropJob s id) := by
  unfold dropJob
  with_reducible (refine .onPath ?_; exact .refl _)
theorem queueSense_keeps (s : State) (die block pos soft : Nat) (retry : Option Nat) (cls : Nat) : Keeps s
    (queueSense s die block pos soft retry cls) := by
  unfold queueSense
  with_reducible
    dsimp only; refine .iteR ?_ ?_; refine .ite ?_ ?_; refine .trans ?_ (modDie_keeps ..); exact .refl _
    refine .trans ?_ (queueOp_keeps ..); exact .refl _; exact .refl _
theorem dropSenses_keeps (s : State) (j : CwJob) : Keeps s (dropSenses s j) := by
  unfold dropSenses
  with_reducible (refine .trans ?_ (dropOps_keeps ..); exact .refl _)
theorem pinSb_keeps (s : State) (sb : Nat) : Keeps s (pinSb s sb) := by
  unfold pinSb
  with_reducible (refine .trans ?_ (modSb_keeps ..); exact .refl _)
theorem unpinSb_keeps (s : State) (sb : Nat) : Keeps s (unpinSb s sb) := by
  unfold unpinSb
  with_reducible (refine .trans ?_ (modSb_keeps ..); exact .refl _)
theorem issueRead_keeps1 (s : State) (b : SuperBlock) (k j cw : Nat) (purpose : Purpose) (expect : Option Expect) (cls : Nat)
    : Keeps s (issueRead s b k j cw purpose expect cls).1 := by
  unfold issueRead
  with_reducible
    dsimp only; refine .iteR ?_ ?_; refine .trans ?_ (queueSense_keeps ..); exact .refl _; refine .trans ?_ (pinSb_keeps ..)
    refine .onPath ?_; exact .refl _

theorem issueRead_keeps {s : State} {b : SuperBlock} {k j cw : Nat} {purpose : Purpose} {expect : Option Expect} {cls : Nat}
    {t : State} {r} (e : issueRead s b k j cw purpose expect cls = (t, r)) : Keeps s t := by
  have k := issueRead_keeps1 s b k j cw purpose expect cls
  rw [e] at k; exact k
theorem readAt_keeps1 (s : State) (pa psub : Nat) (purpose : Purpose) (expect : Option Expect) (cls : Nat) : Keeps s
    (readAt s pa psub purpose expect cls).1 := by
  unfold readAt
  with_reducible (split; dsimp only; exact .refl _; dsimp only; refine .trans ?_ (issueRead_keeps1 ..); exact .refl _)

theorem readAt_keeps {s : State} {pa psub : Nat} {purpose : Purpose} {expect : Option Expect} {cls : Nat} {t : State} {r}
    (e : readAt s pa psub purpose expect cls = (t, r)) : Keeps s t := by
  have k := readAt_keeps1 s pa psub purpose expect cls
  rw [e] at k; exact k
theorem setSub_keeps (s : State) (p : PortId) (sq cid iu sub : Nat) (st : SubState) : Keeps s (setSub s p sq cid iu sub st) :=
    by
  unfold setSub
  with_reducible (refine .trans ?_ (modCmd_keeps ..); exact .refl _)
theorem unpinSubs_keeps (s : State) (c : OutCmd) : Keeps s (unpinSubs s c) := by
  unfold unpinSubs
  with_reducible
    refine .foldl (fun _ _ => ?_) ?_; split; refine .trans ?_ (modFlacon_keeps ..); exact .refl _; exact .refl _; exact .refl _
theorem finishRead_keeps (s : State) (p : PortId) (sq cid : Nat) : Keeps s (finishRead s p sq cid) := by
  unfold finishRead
  with_reducible
    split; exact .refl _; refine .ite ?_ ?_; exact .refl _; dsimp only; refine .trans ?_ (ioDone_keeps ..); split
    refine .onPort ?_; refine .trans ?_ (unpinSubs_keeps ..); exact .refl _; refine .trans ?_ (unpinSubs_keeps ..)
    exact .refl _
theorem giveOld_keeps (s : State) (nsid iu sub seq : Nat) (b : Blk) : Keeps s (giveOld s nsid iu sub seq b) := by
  unfold giveOld
  with_reducible (dsimp only; refine .onPath ?_; exact .refl _)
theorem giveCopy_keeps (s : State) (id sub : Nat) (entry : BitVec 128) (b : Blk) : Keeps s (giveCopy s id sub entry b) := by
  unfold giveCopy
  with_reducible (dsimp only; refine .onPath ?_; exact .refl _)
theorem endJob_keeps (s : State) (j : CwJob) : Keeps s (endJob s j) := by
  unfold endJob
  with_reducible
    refine .trans ?_ (leaveCluster_keeps ..); refine .trans ?_ (dropJob_keeps ..); refine .trans ?_ (unpinSb_keeps ..)
    exact .refl _
theorem noteOutcome_keeps (s : State) (page cw step iters : Nat) : Keeps s (noteOutcome s page cw step iters) := by
  unfold noteOutcome
  with_reducible (refine .onUpkeep (fun _ => Nat.le_refl _) ?_; exact .refl _)
theorem deliver_keeps (s : State) (j : CwJob) (entry : BitVec 128) (b : Blk) : Keeps s (deliver s j entry b) := by
  unfold deliver
  with_reducible
    dsimp only; split; split; refine .trans ?_ (endJob_keeps ..); exact .refl _; refine .trans ?_ (finishRead_keeps ..)
    refine .trans ?_ (setSub_keeps ..); refine .trans ?_ (endJob_keeps ..); exact .refl _; split
    refine .trans ?_ (endJob_keeps ..); exact .refl _; refine .trans ?_ (giveOld_keeps ..); refine .trans ?_ (endJob_keeps ..)
    exact .refl _; refine .trans ?_ (giveCopy_keeps ..); refine .trans ?_ (endJob_keeps ..); exact .refl _; refine .onPath ?_
    refine .trans ?_ (endJob_keeps ..); exact .refl _; refine .trans ?_ (modJob_keeps ..); refine .trans ?_ (endJob_keeps ..)
    exact .refl _; refine .trans ?_ (noteOutcome_keeps ..); refine .trans ?_ (endJob_keeps ..); exact .refl _
theorem issueMembers_keeps (s : State) (j : CwJob) (b : SuperBlock) (ms : List Nat) : Keeps s (issueMembers s j b ms) := by
  unfold issueMembers
  with_reducible
    refine .foldl (fun _ _ => ?_) ?_; split; exact .refl _; refine .ite ?_ ?_; exact .refl _; split
    refine .trans ?_ (modJob_keeps ..); exact .refl _; refine .trans ?_ (issueRead_keeps1 ..); exact .refl _; exact .refl _
theorem dropMembers_keeps (s : State) (id : Nat) : Keeps s (dropMembers s id) := by
  unfold dropMembers
  with_reducible (refine .foldl (fun _ _ => ?_) ?_; refine .trans ?_ (endJob_keeps ..); exact .refl _; exact .refl _)
theorem loseJob_keeps (s : State) (j : CwJob) : Keeps s (loseJob s j) := by
  unfold loseJob
  with_reducible
    dsimp only; split; split; refine .trans ?_ (finishRead_keeps ..); refine .trans ?_ (setSub_keeps ..)
    refine .trans ?_ (poisonIu_keeps ..); refine .trans ?_ (dropMembers_keeps ..); refine .onUpkeep (fun _ => Nat.le_refl _) ?_
    refine .onMedia ?_; refine .trans ?_ (endJob_keeps ..); exact .refl _; refine .trans ?_ (poisonIu_keeps ..)
    refine .trans ?_ (dropMembers_keeps ..); refine .onUpkeep (fun _ => Nat.le_refl _) ?_; refine .onMedia ?_
    refine .trans ?_ (endJob_keeps ..); exact .refl _; refine .trans ?_ (dropMembers_keeps ..)
    refine .onUpkeep (fun _ => Nat.le_refl _) ?_; refine .onMedia ?_; refine .trans ?_ (endJob_keeps ..); exact .refl _; split
    refine .trans ?_ (dropMembers_keeps ..); refine .onUpkeep (fun _ => Nat.le_refl _) ?_; refine .onMedia ?_
    refine .trans ?_ (endJob_keeps ..); exact .refl _; split; refine .trans ?_ (giveOld_keeps ..)
    refine .trans ?_ (freeBlkOf_keeps1 ..); refine .trans ?_ (mergeFailed_keeps ..); refine .trans ?_ (poisonIu_keeps ..)
    refine .trans ?_ (dropMembers_keeps ..); refine .onUpkeep (fun _ => Nat.le_refl _) ?_; refine .onMedia ?_
    refine .trans ?_ (endJob_keeps ..); exact .refl _; refine .trans ?_ (poisonIu_keeps ..)
    refine .trans ?_ (dropMembers_keeps ..); refine .onUpkeep (fun _ => Nat.le_refl _) ?_; refine .onMedia ?_
    refine .trans ?_ (endJob_keeps ..); exact .refl _; split; refine .onPath ?_; refine .trans ?_ (poisonIu_keeps ..)
    refine .trans ?_ (dropMembers_keeps ..); refine .onUpkeep (fun _ => Nat.le_refl _) ?_; refine .onMedia ?_
    refine .trans ?_ (endJob_keeps ..); exact .refl _; refine .trans ?_ (dropMembers_keeps ..)
    refine .onUpkeep (fun _ => Nat.le_refl _) ?_; refine .onMedia ?_; refine .trans ?_ (endJob_keeps ..); exact .refl _; split
    refine .trans ?_ (noteOutcome_keeps ..); refine .trans ?_ (poisonIu_keeps ..); refine .trans ?_ (dropMembers_keeps ..)
    refine .onUpkeep (fun _ => Nat.le_refl _) ?_; refine .onMedia ?_; refine .trans ?_ (endJob_keeps ..); exact .refl _
    refine .trans ?_ (noteOutcome_keeps ..); refine .trans ?_ (dropMembers_keeps ..)
    refine .onUpkeep (fun _ => Nat.le_refl _) ?_; refine .onMedia ?_; refine .trans ?_ (endJob_keeps ..); exact .refl _
    refine .onPath ?_; refine .trans ?_ (dropMembers_keeps ..); refine .onUpkeep (fun _ => Nat.le_refl _) ?_; refine .onMedia ?_
    refine .trans ?_ (endJob_keeps ..); exact .refl _; refine .trans ?_ (dropMembers_keeps ..)
    refine .onUpkeep (fun _ => Nat.le_refl _) ?_; refine .onMedia ?_; refine .trans ?_ (endJob_keeps ..); exact .refl _
theorem readAgain_keeps (s : State) (j : CwJob) : Keeps s (readAgain s j) := by
  unfold readAgain
  with_reducible
    dsimp only; refine .trans ?_ (queueSense_keeps ..); refine .trans ?_ (modJob_keeps ..); refine .onMedia ?_
    refine .trans ?_ (dropMembers_keeps ..); exact .refl _
theorem beginStep5_keeps (s : State) (id : Nat) : Keeps s (beginStep5 s id) := by
  unfold beginStep5
  with_reducible
    split; exact .refl _; split; exact .refl _; split; refine .trans ?_ (issueMembers_keeps ..); exact .refl _; dsimp only
    refine .ite ?_ ?_; refine .trans ?_ (readAgain_keeps ..); exact .refl _; refine .iteR ?_ ?_
    refine .trans ?_ (loseJob_keeps ..); exact .refl _; exact .refl _
theorem takeBuffer_keeps (s : State) (id : Nat) : Keeps s (takeBuffer s id) := by
  unfold takeBuffer
  with_reducible
    refine .iteL ?_ ?_; refine .trans ?_ (beginStep5_keeps ..); refine .trans ?_ (modJob_keeps ..); refine .onMedia ?_
    exact .refl _; exact .refl _
theorem feedColumns_keeps (n : Nat) (s : State) : Keeps s (feedColumns n s) := by
  induction n generalizing s with
  | zero => exact .refl s
  | succ n ih =>
    unfold feedColumns
    split
    · exact (takeBuffer_keeps ..).trans (ih _)
    · exact .refl s
theorem joinColumns_keeps (s : State) (j : CwJob) : Keeps s (joinColumns s j) := by
  unfold joinColumns
  with_reducible
    dsimp only; refine .trans ?_ (takeBuffer_keeps ..); refine .onPath ?_; refine .trans ?_ (modJob_keeps ..)
    refine .trans ?_ (modCluster_keeps ..); exact .refl _
theorem toStep5_keeps (s : State) (j : CwJob) (own : Bool) : Keeps s (toStep5 s j own) := by
  unfold toStep5
  with_reducible
    dsimp only; split; refine .trans ?_ (beginStep5_keeps ..); refine .iteL ?_ ?_; refine .trans ?_ (modJob_keeps ..)
    exact .refl _; refine .trans ?_ (endJob_keeps ..); refine .trans ?_ (leaveCluster_keeps ..); exact .refl _
    refine .onPath ?_; refine .trans ?_ (endJob_keeps ..); refine .trans ?_ (leaveCluster_keeps ..); exact .refl _
    refine .ite ?_ ?_; refine .trans ?_ (noteOutcome_keeps ..); refine .trans ?_ (endJob_keeps ..)
    refine .trans ?_ (leaveCluster_keeps ..); exact .refl _; refine .trans ?_ (joinColumns_keeps ..); refine .iteL ?_ ?_
    refine .trans ?_ (modJob_keeps ..); exact .refl _; refine .trans ?_ (leaveCluster_keeps ..); exact .refl _
    refine .trans ?_ (joinColumns_keeps ..); refine .iteL ?_ ?_; refine .trans ?_ (modJob_keeps ..); exact .refl _
    refine .trans ?_ (leaveCluster_keeps ..); exact .refl _
theorem takeCodeword_keeps (g : Nat) (soft : Bool) (s : State) : Keeps s (takeCodeword g soft s) := by
  unfold takeCodeword
  with_reducible (dsimp only; split; exact .refl _; refine .trans ?_ (modCluster_keeps ..); exact .refl _)
theorem feedDecoders_keeps (s : State) (g : Nat) : Keeps s (feedDecoders s g) := by
  unfold feedDecoders
  with_reducible
    refine .foldl (fun _ _ => ?_) ?_; refine .trans ?_ (takeCodeword_keeps ..); refine .trans ?_ (takeCodeword_keeps ..)
    exact .refl _; exact .refl _
theorem queueDecode_keeps (s : State) (j : CwJob) (soft : Bool) : Keeps s (queueDecode s j soft) := by
  unfold queueDecode
  with_reducible
    dsimp only; refine .iteR ?_ ?_; refine .ite ?_ ?_; refine .iteL ?_ ?_; refine .trans ?_ (feedDecoders_keeps ..)
    refine .trans ?_ (modJob_keeps ..); refine .trans ?_ (modCluster_keeps ..); exact .refl _; exact .refl _; refine .iteL ?_ ?_
    refine .trans ?_ (feedDecoders_keeps ..); refine .trans ?_ (modJob_keeps ..); refine .trans ?_ (modCluster_keeps ..)
    exact .refl _; exact .refl _; exact .refl _
theorem queueIfReady_keeps (s : State) (j : CwJob) : Keeps s (queueIfReady s j) := by
  unfold queueIfReady
  with_reducible
    refine .iteR ?_ ?_; refine .ite ?_ ?_; refine .trans ?_ (queueDecode_keeps ..); exact .refl _; refine .iteL ?_ ?_
    refine .trans ?_ (queueDecode_keeps ..); exact .refl _; exact .refl _; exact .refl _
theorem refillQueues_keeps (s : State) (g : Nat) : Keeps s (refillQueues s g) := by
  unfold refillQueues
  with_reducible (refine .foldl (fun _ _ => ?_) ?_; refine .trans ?_ (queueIfReady_keeps ..); exact .refl _; exact .refl _)
theorem markFailed_keeps (s : State) (j : CwJob) : Keeps s (markFailed s j) := by
  unfold markFailed
  with_reducible (dsimp only; refine .trans ?_ (modJob_keeps ..); exact .refl _)
theorem senseSoft_keeps (s : State) (j : CwJob) (level : Nat) : Keeps s (senseSoft s j level) := by
  unfold senseSoft
  with_reducible (refine .foldl (fun _ _ => ?_) ?_; refine .trans ?_ (queueSense_keeps ..); exact .refl _; exact .refl _)
theorem escalate_keeps (s : State) (j : CwJob) : Keeps s (escalate s j) := by
  unfold escalate
  with_reducible
    dsimp only; split; refine .elimL (fun _ => ?_) ?_; refine .trans ?_ (queueIfReady_keeps ..); exact .refl _
    refine .trans ?_ (senseSoft_keeps ..); refine .trans ?_ (modJob_keeps ..); exact .refl _
    refine .trans ?_ (senseSoft_keeps ..); refine .trans ?_ (modJob_keeps ..); exact .refl _; refine .ite ?_ ?_
    refine .trans ?_ (toStep5_keeps ..); exact .refl _; refine .trans ?_ (queueSense_keeps ..)
    refine .trans ?_ (modJob_keeps ..); exact .refl _; refine .ite ?_ ?_; refine .trans ?_ (queueSense_keeps ..)
    refine .trans ?_ (modJob_keeps ..); exact .refl _; refine .trans ?_ (toStep5_keeps ..); exact .refl _
theorem escalateReady_keeps (s : State) : Keeps s (escalateReady s) := by
  unfold escalateReady
  with_reducible
    refine .foldl (fun _ _ => ?_) ?_; refine .elimL (fun _ => ?_) ?_; refine .trans ?_ (escalate_keeps ..); exact .refl _
    exact .refl _; exact .refl _
theorem formBefore_keeps (s : State) (u : SbUse) : Keeps s (formBefore s u) := by
  unfold formBefore
  with_reducible
    refine .foldl (fun _ _ => ?_) ?_; refine .ite ?_ ?_; refine .trans ?_ (formSb_keeps ..); exact .refl _; exact .refl _
    exact .refl _
theorem formSuccessor_keeps (s : State) (sb : Nat) : Keeps s (formSuccessor s sb) := by
  unfold formSuccessor
  with_reducible
    split; exact .refl _; dsimp only; refine .iteL ?_ ?_; refine .trans ?_ (formSb_keeps ..)
    refine .trans ?_ (formBefore_keeps ..); exact .refl _; exact .refl _
theorem numberCopy_keeps (s : State) (c : Copy) : Keeps s (numberCopy s c) := by
  unfold numberCopy
  with_reducible (dsimp only; refine .onPath ?_; refine .iteL ?_ ?_; refine .draw ?_; exact .refl _; exact .refl _)
theorem numberCopies_keeps (s : State) : Keeps s (numberCopies s) := by
  unfold numberCopies
  with_reducible (refine .foldl (fun _ _ => ?_) ?_; refine .trans ?_ (numberCopy_keeps ..); exact .refl _; exact .refl _)
theorem placeCopy_keeps (s : State) (id : Nat) (pl : Place) (psub : Nat) : Keeps s (placeCopy s id pl psub) := by
  unfold placeCopy
  with_reducible (split; exact .refl _; dsimp only; refine .onPath ?_; refine .trans ?_ (modSb_keeps ..); exact .refl _)
theorem packWhole_keeps (s : State) (c : Copy) : Keeps s (packWhole s c) := by
  unfold packWhole
  with_reducible
    split; exact .refl _; split; exact .refl _; refine .trans ?_ (formSuccessor_keeps ..); refine .trans ?_ (placeCopy_keeps ..)
    refine .trans ?_ (packSlot_keeps (by assumption)); exact .refl _
theorem packWholeCopies_keeps (s : State) : Keeps s (packWholeCopies s) := by
  unfold packWholeCopies
  with_reducible (refine .foldl (fun _ _ => ?_) ?_; refine .trans ?_ (packWhole_keeps ..); exact .refl _; exact .refl _)
theorem gatherSlot_keeps {s : State} {g : SbUse × Nat} {t : State} (e : gatherSlot s g = some t) : Keeps s t := by
  unfold gatherSlot at e
  dsimp only at e
  split at e
  · cases e
  · split at e
    · cases e
    · split at e
      · cases e
      · cases e
        with_reducible refine Keeps.trans ?_ (formSuccessor_keeps ..)
        with_reducible refine Keeps.foldl (fun _ _ => placeCopy_keeps ..) ?_
        exact packSlot_keeps (by assumption)
theorem packGathered_keeps (g : SbUse × Nat) (n : Nat) (s : State) : Keeps s (packGathered g n s) := by
  induction n generalizing s with
  | zero => exact .refl s
  | succ n ih =>
    unfold packGathered
    split
    · exact .refl s
    · exact (gatherSlot_keeps (by assumption)).trans (ih _)
theorem dropDead_keeps (s : State) : Keeps s (dropDead s) := by
  unfold dropDead
  with_reducible (refine .onPath ?_; exact .refl _)
theorem packCopies_keeps (s : State) : Keeps s (packCopies s) := by
  unfold packCopies
  with_reducible
    dsimp only; refine .iteR ?_ ?_; refine .foldl (fun _ _ => ?_) ?_; refine .trans ?_ (packGathered_keeps ..); exact .refl _
    refine .trans ?_ (packWholeCopies_keeps ..); refine .trans ?_ (numberCopies_keeps ..); exact .refl _
    refine .trans ?_ (dropDead_keeps ..); exact .refl _
theorem applyCopy_keeps (s : State) (c : Copy) (pl : Place) : Keeps s (applyCopy s c pl) := by
  unfold applyCopy
  with_reducible
    dsimp only; split; exact .refl _; refine .ite ?_ ?_; refine .foldl (fun _ _ => ?_) ?_; refine .trans ?_ (ovlRemove_keeps ..)
    exact .refl _; refine .trans ?_ (setBase_keeps ..); exact .refl _; refine .ite ?_ ?_; exact .refl _; refine .iteL ?_ ?_
    refine .onUpkeep (fun _ => Nat.le_refl _) ?_; exact .refl _; split; refine .trans ?_ (ovlPlace_keeps ..); exact .refl _
    refine .trans ?_ (setBase_keeps ..); exact .refl _
theorem applyCopies_keeps (s : State) : Keeps s (applyCopies s) := by
  unfold applyCopies
  with_reducible
    refine .foldl (fun _ _ => ?_) ?_; split; refine .ite ?_ ?_; dsimp only; refine .onPath ?_; refine .ite ?_ ?_; exact .refl _
    refine .trans ?_ (applyCopy_keeps ..); exact .refl _; exact .refl _; exact .refl _; exact .refl _
theorem endRebuild_keeps (s : State) : Keeps s (endRebuild s) := by
  unfold endRebuild
  with_reducible
    refine .iteL ?_ ?_; refine .trans ?_ (notice_keeps ..); refine .onUpkeep (fun _ => Nat.le_refl _) ?_; exact .refl _
    exact .refl _
theorem judgeExposure_keeps (s : State) : Keeps s (judgeExposure s) := by
  unfold judgeExposure
  with_reducible
    refine .iteL ?_ ?_; refine .trans ?_ (endRebuild_keeps ..); refine .trans ?_ (noteExposed_keeps ..); exact .refl _
    exact .refl _
theorem queueRelocation_keeps (s : State) (sb k m : Nat) : Keeps s (queueRelocation s sb k m) := by
  unfold queueRelocation
  with_reducible (refine .iteR ?_ ?_; refine .onUpkeep (fun _ => Nat.le_refl _) ?_; exact .refl _; exact .refl _)
theorem rewriteSystem_keeps (s : State) (x : Bool × Nat) : Keeps s (rewriteSystem s x) := by
  unfold rewriteSystem
  with_reducible
    refine .ite ?_ ?_; refine .onUpkeep (fun _ => Nat.le_refl _) ?_; exact .refl _; refine .trans ?_ (deltaProgram_keeps ..)
    refine .onUpkeep (fun _ => Nat.le_refl _) ?_; exact .refl _
theorem scrubPage_keeps (s : State) (r : ScrubRead) : Keeps s (scrubPage s r) := by
  unfold scrubPage
  with_reducible
    split; refine .iteL ?_ ?_; refine .trans ?_ (rewriteSystem_keeps ..); exact .refl _; exact .refl _; refine .ite ?_ ?_
    refine .trans ?_ (queueRelocation_keeps ..); exact .refl _; refine .iteL ?_ ?_; refine .trans ?_ (queueRelocation_keeps ..)
    exact .refl _; exact .refl _
theorem finishScrubs_keeps (s : State) : Keeps s (finishScrubs s) := by
  unfold finishScrubs
  with_reducible
    dsimp only; refine .foldl (fun _ _ => ?_) ?_; refine .trans ?_ (scrubPage_keeps ..); exact .refl _
    refine .onUpkeep (fun _ => Nat.le_refl _) ?_; exact .refl _
theorem markFirstPass_keeps (s : State) (die : Nat) (k : OpKind) : Keeps s (markFirstPass s die k) := by
  unfold markFirstPass
  with_reducible
    split; dsimp only; split; refine .trans ?_ (modSb_keeps ..); exact .refl _; refine .iteL ?_ ?_
    refine .trans ?_ (putRlt_keeps ..); exact .refl _; refine .trans ?_ (modSb_keeps ..); exact .refl _; dsimp only; split
    refine .trans ?_ (modSb_keeps ..); exact .refl _; refine .iteL ?_ ?_; refine .trans ?_ (putRlt_keeps ..); exact .refl _
    refine .trans ?_ (modSb_keeps ..); exact .refl _; exact .refl _
theorem markSense_keeps (s : State) (die : Nat) (k : OpKind) : Keeps s (markSense s die k) := by
  unfold markSense
  with_reducible (split; dsimp only; refine .onPath ?_; exact .refl _; exact .refl _)
theorem markRunAhead_keeps (s : State) (die : Nat) (k : OpKind) : Keeps s (markRunAhead s die k) := by
  unfold markRunAhead
  with_reducible
    split; split; exact .refl _; split; exact .refl _; refine .ite ?_ ?_; dsimp only; refine .trans ?_ (modCluster_keeps ..)
    refine .onPath ?_; exact .refl _; exact .refl _; exact .refl _
theorem startOp_keeps (s : State) (die : Nat) : Keeps s (startOp s die) := by
  unfold startOp
  with_reducible
    split; exact .refl _; refine .iteR ?_ ?_; refine .ite ?_ ?_; refine .trans ?_ (markRunAhead_keeps ..)
    refine .trans ?_ (markSense_keeps ..); refine .trans ?_ (markFirstPass_keeps ..); refine .trans ?_ (beginOp_keeps ..)
    exact .refl _; refine .iteR ?_ ?_; refine .onHk (fun _ => Nat.le_refl _) ?_; exact .refl _; exact .refl _; exact .refl _
theorem grantOne_keeps (s : State) : Keeps s (grantOne s) := by
  unfold grantOne
  with_reducible
    split; refine .onHk (fun _ => Nat.le_refl _) ?_; exact .refl _; refine .ite ?_ ?_; dsimp only
    refine .trans ?_ (startOp_keeps ..); refine .trans ?_ (modDie_keeps ..); refine .onHk (fun _ => Nat.le_refl _) ?_
    exact .refl _; refine .onHk (fun _ => Nat.le_refl _) ?_; exact .refl _
theorem finishOp_keeps (s : State) (die : Nat) (o : DieOp) : Keeps s (finishOp s die o) := by
  unfold finishOp
  with_reducible (refine .trans ?_ (returnGrant_keeps ..); refine .trans ?_ (modDie_keeps ..); exact .refl _)
theorem programPages_keeps (s : State) (b : SuperBlock) (idx wl : Nat) (last : Bool) : Keeps s (programPages s b idx wl last)
    := by
  unfold programPages
  with_reducible
    dsimp only; refine .foldl (fun _ _ => ?_) ?_; split; exact .refl _; refine .onMedia ?_; exact .refl _; exact .refl _
theorem unclaim_keeps (s : State) (b : SuperBlock) (idx wl n : Nat) : Keeps s (unclaim s b idx wl n) := by
  unfold unclaim
  with_reducible (dsimp only; refine .onPath ?_; exact .refl _)
theorem settleStripes_keeps (s : State) : Keeps s (settleStripes s) := by
  unfold settleStripes
  with_reducible
    dsimp only; refine .foldl (fun _ _ => ?_) ?_; refine .ite ?_ ?_; exact .refl _; refine .trans ?_ (modSb_keeps ..)
    refine .trans ?_ (addFillers_keeps ..); exact .refl _; refine .onMedia ?_; exact .refl _
theorem passDone_keeps (s : State) (sb idx : Nat) (coarse last : Bool) : Keeps s (passDone s sb idx coarse last) := by
  unfold passDone
  with_reducible
    split; exact .refl _; dsimp only; refine .trans ?_ (judgeExposure_keeps ..); refine .trans ?_ (packCopies_keeps ..)
    refine .trans ?_ (advanceHorizon_keeps ..); refine .trans ?_ (applyCopies_keeps ..)
    refine .trans ?_ (settleStripes_keeps ..); refine .trans ?_ (refreshFlacons_keeps ..)
    refine .trans ?_ (queueProgram_keeps ..); refine .iteL ?_ ?_; refine .onUpkeep (fun _ => Nat.le_refl _) ?_; exact .refl _
    refine .iteL ?_ ?_; refine .trans ?_ (modSb_keeps ..); exact .refl _; refine .trans ?_ (unclaim_keeps ..)
    refine .trans ?_ (modSb_keeps ..); refine .trans ?_ (programPages_keeps ..); exact .refl _
theorem failBlock_keeps (s : State) (sb idx : Nat) (marked : Bool) : Keeps s (failBlock s sb idx marked) := by
  unfold failBlock
  with_reducible
    split; exact .refl _; dsimp only; refine .trans ?_ (packCopies_keeps ..); refine .trans ?_ (closeUnit_keeps ..)
    refine .iteL ?_ ?_; refine .trans ?_ (fdpEvent_keeps ..); exact .refl _; refine .foldl (fun _ _ => ?_) ?_
    refine .trans ?_ (repack_keeps ..); exact .refl _; refine .trans ?_ (unplaceCopies_keeps ..)
    refine .trans ?_ (modSb_keeps ..); refine .iteL ?_ ?_; refine .onUpkeep (fun _ => Nat.le_refl _) ?_
    refine .trans ?_ (modBlock_keeps ..); exact .refl _; exact .refl _
theorem readyMember_keeps (s : State) (sb i : Nat) : Keeps s (readyMember s sb i) := by
  unfold readyMember
  with_reducible
    split; exact .refl _; refine .ite ?_ ?_; refine .trans ?_ (deltaProgram_keeps ..); exact .refl _
    refine .trans ?_ (queueProgram_keeps ..); exact .refl _
theorem blockReady_keeps (s : State) (die block : Nat) (u : SbUse) : Keeps s (blockReady s die block u) := by
  unfold blockReady
  with_reducible
    refine .ite ?_ ?_; refine .onJournal (fun _ => Nat.le_refl _) ?_; exact .refl _; refine .foldl (fun _ _ => ?_) ?_
    refine .foldl (fun _ _ => ?_) ?_; refine .trans ?_ (readyMember_keeps ..); refine .trans ?_ (modSb_keeps ..); exact .refl _
    exact .refl _; exact .refl _
theorem replaceBlock_keeps (s : State) (die block : Nat) (u : SbUse) : Keeps s (replaceBlock s die block u) := by
  unfold replaceBlock
  with_reducible
    split; dsimp only; split; refine .trans ?_ (checkUrgent_keeps ..); refine .trans ?_ (takeBlock_keeps (by assumption))
    exact .refl _; refine .ite ?_ ?_; refine .onJournal (fun _ => Nat.le_refl _) ?_; refine .trans ?_ (checkUrgent_keeps ..)
    refine .trans ?_ (takeBlock_keeps (by assumption)); exact .refl _; refine .onMedia ?_
    refine .trans ?_ (checkUrgent_keeps ..); refine .trans ?_ (takeBlock_keeps (by assumption)); exact .refl _
theorem retireBlock_keeps (s : State) (die block : Nat) : Keeps s (retireBlock s die block) := by
  unfold retireBlock
  with_reducible
    refine .trans ?_ (checkPreserve_keeps ..); refine .trans ?_ (modBlock_keeps ..); refine .trans ?_ (jot_keeps ..)
    exact .refl _
theorem refreshRefuge_keeps (s : State) : Keeps s (refreshRefuge s) := by
  unfold refreshRefuge
  with_reducible
    dsimp only; refine .onJournal (fun _ => Nat.le_refl _) ?_; refine .onJournal (fun _ => Nat.le_refl _) ?_; exact .refl _
theorem marginResult_keeps (s : State) (die block : Nat) (u : SbUse) (again fails : Bool) : Keeps s
    (marginResult s die block u again fails) := by
  unfold marginResult
  with_reducible
    refine .ite ?_ ?_; refine .trans ?_ (refreshRefuge_keeps ..); refine .trans ?_ (blockReady_keeps ..); exact .refl _
    refine .ite ?_ ?_; refine .trans ?_ (retireBlock_keeps ..); refine .trans ?_ (replaceBlock_keeps ..); exact .refl _
    refine .trans ?_ (queueOp_keeps ..); exact .refl _
theorem programPass_keeps (s : State) (die : Nat) : Keeps s (programPass s die) := by
  unfold programPass
  with_reducible
    split; exact .refl _; split; refine .trans ?_ (passDone_keeps ..); refine .trans ?_ (finishOp_keeps ..); exact .refl _
    refine .trans ?_ (passDone_keeps ..); refine .trans ?_ (finishOp_keeps ..); exact .refl _
    refine .trans ?_ (passDone_keeps ..); refine .trans ?_ (finishOp_keeps ..); exact .refl _; exact .refl _
theorem programFails_keeps (s : State) (die : Nat) : Keeps s (programFails s die) := by
  unfold programFails
  with_reducible
    split; exact .refl _; split; refine .trans ?_ (failBlock_keeps ..); refine .trans ?_ (finishOp_keeps ..); exact .refl _
    refine .trans ?_ (failBlock_keeps ..); refine .trans ?_ (finishOp_keeps ..); exact .refl _
    refine .trans ?_ (failBlock_keeps ..); refine .trans ?_ (finishOp_keeps ..); exact .refl _; exact .refl _
theorem erasePages_keeps (s : State) (die block : Nat) : Keeps s (erasePages s die block) := by
  unfold erasePages
  with_reducible (refine .onMedia ?_; exact .refl _)
theorem eraseDone_keeps (s : State) (die : Nat) (marginFails : Bool) : Keeps s (eraseDone s die marginFails) := by
  unfold eraseDone
  with_reducible
    split; exact .refl _; split; dsimp only; refine .trans ?_ (checkPreserve_keeps ..); refine .trans ?_ (queueOp_keeps ..)
    refine .trans ?_ (modBlock_keeps ..); refine .trans ?_ (erasePages_keeps ..); refine .trans ?_ (jot_keeps ..)
    refine .trans ?_ (finishOp_keeps ..); exact .refl _; refine .trans ?_ (checkPreserve_keeps ..)
    refine .trans ?_ (marginResult_keeps ..); refine .trans ?_ (finishOp_keeps ..); exact .refl _; exact .refl _
theorem eraseFails_keeps (s : State) (die : Nat) : Keeps s (eraseFails s die) := by
  unfold eraseFails
  with_reducible
    split; exact .refl _; split; refine .trans ?_ (retireBlock_keeps ..); refine .trans ?_ (replaceBlock_keeps ..)
    refine .trans ?_ (finishOp_keeps ..); exact .refl _; exact .refl _
theorem countWaits_keeps (s : State) (die : Nat) : Keeps s (countWaits s die) := by
  unfold countWaits
  with_reducible (dsimp only; refine .trans ?_ (modChan_keeps ..); refine .trans ?_ (modDie_keeps ..); exact .refl _)
theorem suspendErase_keeps (s : State) (die : Nat) : Keeps s (suspendErase s die) := by
  unfold suspendErase
  with_reducible
    dsimp only; refine .ite ?_ ?_; exact .refl _; split; exact .refl _; split; refine .ite ?_ ?_
    refine .trans ?_ (modChan_keeps ..); refine .trans ?_ (modDie_keeps ..); refine .trans ?_ (returnGrant_keeps ..)
    exact .refl _; refine .trans ?_ (countWaits_keeps ..); exact .refl _; exact .refl _
theorem resumeErase_keeps (s : State) (die : Nat) : Keeps s (resumeErase s die) := by
  unfold resumeErase
  with_reducible
    dsimp only; split; exact .refl _; refine .iteR ?_ ?_; refine .trans ?_ (modChan_keeps ..)
    refine .trans ?_ (modDie_keeps ..); refine .onHk (fun _ => Nat.le_refl _) ?_; exact .refl _; exact .refl _
theorem countTags_keeps (s : State) (n : Nat) : Keeps s (countTags s n) := by
  unfold countTags
  with_reducible (refine .onSec (fun _ => rfl) (fun _ => rfl) ?_; exact .refl _)
theorem hardSensed_keeps (s : State) (errs : List CwBits) (j : CwJob) : Keeps s (hardSensed s errs j) := by
  unfold hardSensed
  with_reducible
    dsimp only; refine .ite ?_ ?_; refine .trans ?_ (toStep5_keeps ..); exact .refl _; refine .elimL (fun _ => ?_) ?_
    refine .trans ?_ (queueIfReady_keeps ..); exact .refl _; refine .trans ?_ (modJob_keeps ..); exact .refl _
theorem softSensed_keeps (s : State) (us : Nat) (j : CwJob) : Keeps s (softSensed s us j) := by
  unfold softSensed
  with_reducible
    dsimp only; refine .elimL (fun _ => ?_) ?_; refine .trans ?_ (queueIfReady_keeps ..); exact .refl _
    refine .trans ?_ (modJob_keeps ..); exact .refl _
theorem queueRunAhead_keeps (s : State) (die block pos : Nat) (o : DieOp) : Keeps s (queueRunAhead s die block pos o) := by
  unfold queueRunAhead
  with_reducible (dsimp only; refine .trans ?_ (modDie_keeps ..); exact .refl _)
theorem dropSoft_keeps (s : State) (g n us : Nat) : Keeps s (dropSoft s g n us) := by
  unfold dropSoft
  with_reducible (refine .trans ?_ (modCluster_keeps ..); exact .refl _)
theorem releaseDecoded_keeps (s : State) : Keeps s (releaseDecoded s) := by
  unfold releaseDecoded
  with_reducible
    refine .foldl (fun _ _ => ?_) ?_; split; exact .refl _; split; exact .refl _; dsimp only; refine .ite ?_ ?_
    refine .trans ?_ (deliver_keeps ..); exact .refl _; refine .ite ?_ ?_; exact .refl _; refine .foldl (fun _ _ => ?_) ?_
    refine .ite ?_ ?_; refine .trans ?_ (deliver_keeps ..); exact .refl _; refine .trans ?_ (toStep5_keeps ..)
    refine .trans ?_ (modJob_keeps ..); exact .refl _; refine .ite ?_ ?_; refine .trans ?_ (countTags_keeps ..); exact .refl _
    exact .refl _; exact .refl _
theorem settleReads_keeps (s : State) : Keeps s (settleReads s) := by
  unfold settleReads
  with_reducible
    refine .trans ?_ (packCopies_keeps ..); refine .trans ?_ (finishScrubs_keeps ..); refine .trans ?_ (feedColumns_keeps ..)
    refine .trans ?_ (escalateReady_keeps ..); refine .trans ?_ (releaseDecoded_keeps ..); exact .refl _
theorem senseEnd_keeps (s : State) (die : Nat) (errs : List CwBits) : Keeps s (senseEnd s die errs) := by
  unfold senseEnd
  with_reducible
    split; exact .refl _; split; dsimp only; refine .trans ?_ (settleReads_keeps ..); refine .ite ?_ ?_
    refine .foldl (fun _ _ => ?_) ?_; refine .trans ?_ (hardSensed_keeps ..); exact .refl _; refine .iteL ?_ ?_
    refine .trans ?_ (queueRunAhead_keeps ..); exact .refl _; refine .foldl (fun _ _ => ?_) ?_
    refine .trans ?_ (toStep5_keeps ..); refine .trans ?_ (dropSenses_keeps ..); exact .refl _
    refine .trans ?_ (finishOp_keeps ..); exact .refl _; refine .ite ?_ ?_; refine .trans ?_ (dropSoft_keeps ..)
    refine .foldl (fun _ _ => ?_) ?_; refine .trans ?_ (toStep5_keeps ..); refine .trans ?_ (dropSenses_keeps ..); exact .refl _
    refine .trans ?_ (finishOp_keeps ..); exact .refl _; refine .foldl (fun _ _ => ?_) ?_
    refine .trans ?_ (softSensed_keeps ..); exact .refl _; refine .foldl (fun _ _ => ?_) ?_; refine .trans ?_ (toStep5_keeps ..)
    refine .trans ?_ (dropSenses_keeps ..); exact .refl _; refine .trans ?_ (finishOp_keeps ..); exact .refl _; exact .refl _
theorem rltSuccess_keeps (s : State) (j : CwJob) (est : CwBits) (iters : Nat) : Keeps s (rltSuccess s j est iters) := by
  unfold rltSuccess
  with_reducible (split; exact .refl _; dsimp only; refine .trans ?_ (putRlt_keeps ..); exact .refl _)
theorem hardFailed_keeps (s : State) (j : CwJob) : Keeps s (hardFailed s j) := by
  unfold hardFailed
  with_reducible
    dsimp only; split; refine .trans ?_ (modCluster_keeps ..); exact .refl _; refine .trans ?_ (putRlt_keeps ..)
    refine .trans ?_ (modCluster_keeps ..); exact .refl _
theorem endRunAhead_keeps (s : State) (j : CwJob) : Keeps s (endRunAhead s j) := by
  unfold endRunAhead
  with_reducible
    refine .ite ?_ ?_; exact .refl _; refine .ite ?_ ?_; exact .refl _; dsimp only; refine .iteR ?_ ?_
    refine .trans ?_ (dropSoft_keeps ..); exact .refl _; refine .trans ?_ (dropOps_keeps ..); exact .refl _
theorem leaveDecoder_keeps (s : State) (j : CwJob) : Keeps s (leaveDecoder s j) := by
  unfold leaveDecoder
  with_reducible
    refine .trans ?_ (feedDecoders_keeps ..); refine .trans ?_ (modJob_keeps ..); refine .trans ?_ (leaveCluster_keeps ..)
    exact .refl _
theorem decodeOk_keeps (s : State) (j : CwJob) (r : DecodeResult) : Keeps s (decodeOk s j r) := by
  unfold decodeOk
  with_reducible
    dsimp only; refine .trans ?_ (endRunAhead_keeps ..); refine .trans ?_ (modJob_keeps ..)
    refine .trans ?_ (modCluster_keeps ..); refine .trans ?_ (rltSuccess_keeps ..); exact .refl _
theorem decodeFail_keeps (s : State) (j : CwJob) (checks : Bool) : Keeps s (decodeFail s j checks) := by
  unfold decodeFail
  with_reducible
    dsimp only; refine .ite ?_ ?_; refine .trans ?_ (toStep5_keeps ..); refine .iteR ?_ ?_
    refine .trans ?_ (hardFailed_keeps ..); exact .refl _; exact .refl _; refine .trans ?_ (markFailed_keeps ..)
    refine .iteR ?_ ?_; refine .trans ?_ (hardFailed_keeps ..); exact .refl _; exact .refl _
theorem decodeEnd_keeps (s : State) (id : Nat) (r : DecodeResult) : Keeps s (decodeEnd s id r) := by
  unfold decodeEnd
  with_reducible
    split; exact .refl _; refine .ite ?_ ?_; exact .refl _; dsimp only; refine .trans ?_ (refillQueues_keeps ..)
    refine .trans ?_ (settleReads_keeps ..); refine .ite ?_ ?_; refine .trans ?_ (decodeOk_keeps ..)
    refine .trans ?_ (leaveDecoder_keeps ..); exact .refl _; refine .trans ?_ (decodeFail_keeps ..)
    refine .trans ?_ (leaveDecoder_keeps ..); exact .refl _
theorem budgetEnd_keeps (s : State) (id : Nat) : Keeps s (budgetEnd s id) := by
  unfold budgetEnd
  with_reducible
    split; exact .refl _; dsimp only; refine .iteR ?_ ?_; refine .trans ?_ (settleReads_keeps ..)
    refine .foldl (fun _ _ => ?_) ?_; refine .trans ?_ (toStep5_keeps ..); exact .refl _; refine .trans ?_ (dropSenses_keeps ..)
    exact .refl _; exact .refl _
theorem finishColumn_keeps (s : State) (j : CwJob) (ms : List Nat) : Keeps s (finishColumn s j ms) := by
  unfold finishColumn
  with_reducible
    split; dsimp only; refine .ite ?_ ?_; refine .onMedia ?_; refine .trans ?_ (deliver_keeps ..)
    refine .onUpkeep (fun _ => Nat.le_refl _) ?_; exact .refl _; refine .trans ?_ (loseJob_keeps ..); exact .refl _
    refine .trans ?_ (loseJob_keeps ..); exact .refl _
theorem reconstructJob_keeps (s : State) (id : Nat) : Keeps s (reconstructJob s id) := by
  unfold reconstructJob
  with_reducible
    split; exact .refl _; refine .ite ?_ ?_; exact .refl _; refine .ite ?_ ?_; refine .trans ?_ (takeBuffer_keeps ..)
    exact .refl _; split; refine .trans ?_ (beginStep5_keeps ..); exact .refl _; refine .ite ?_ ?_
    refine .trans ?_ (finishColumn_keeps ..); exact .refl _; refine .trans ?_ (beginStep5_keeps ..); exact .refl _
theorem makeRoom_keeps (s : State) (p : PortId) (n : Nat) : Keeps s (makeRoom s p n) := by
  induction n generalizing s with
  | zero => exact .refl s
  | succ n ih =>
    unfold makeRoom
    split
    · exact .refl s
    · split
      · exact .refl s
      · exact (Keeps.onPath (.refl s)).trans (ih _)
theorem prefetchIu_keeps (s : State) (p : PortId) (stream : Nat) (used : Nat) (n : Namespace) (iu : Nat) : Keeps s
    (prefetchIu s p stream used n iu) := by
  unfold prefetchIu
  with_reducible
    dsimp only; refine .iteR ?_ ?_; refine .foldl (fun _ _ => ?_) ?_; split; refine .trans ?_ (readAt_keeps1 ..); exact .refl _
    refine .onPath ?_; exact .refl _; refine .onPath ?_; exact .refl _; refine .trans ?_ (makeRoom_keeps ..); exact .refl _
theorem prefetchNext_keeps (s : State) (p : PortId) (stream : Nat) : Keeps s (prefetchNext s p stream) := by
  unfold prefetchNext
  with_reducible
    split; exact .refl _; split; exact .refl _; dsimp only; refine .iteR ?_ ?_; refine .iteR ?_ ?_
    refine .trans ?_ (prefetchIu_keeps ..); exact .refl _; refine .onPort ?_; exact .refl _; exact .refl _
theorem wakePs_keeps (s : State) (p : PortId) : Keeps s (wakePs s p) := by
  unfold wakePs
  with_reducible (refine .iteL ?_ ?_; refine .trans ?_ (takePs_keeps ..); refine .onPort ?_; exact .refl _; exact .refl _)
theorem linkErrors_keeps (s : State) (p : PortId) : Keeps s (linkErrors s p) := by
  unfold linkErrors
  with_reducible (dsimp only; refine .onPort ?_; refine .draw ?_; exact .refl _)
theorem fetchOne_keeps (s : State) (p : PortId) : Keeps s (fetchOne s p) := by
  unfold fetchOne
  with_reducible
    refine .ite ?_ ?_; exact .refl _; split; exact .refl _; split; exact .refl _; dsimp only; refine .ite ?_ ?_
    refine .trans ?_ (ioEnd_keeps ..); refine .trans ?_ (wakePs_keeps ..); refine .onMisc ?_
    refine .onUpkeep (fun _ => Nat.le_refl _) ?_; refine .trans ?_ (linkErrors_keeps ..); refine .onPort ?_; exact .refl _
    split; refine .trans ?_ (ioEnd_keeps ..); refine .trans ?_ (wakePs_keeps ..); refine .onMisc ?_
    refine .onUpkeep (fun _ => Nat.le_refl _) ?_; refine .trans ?_ (linkErrors_keeps ..); refine .onPort ?_; exact .refl _
    refine .trans ?_ (ioDone_keeps ..); refine .trans ?_ (wakePs_keeps ..); refine .onMisc ?_
    refine .onUpkeep (fun _ => Nat.le_refl _) ?_; refine .trans ?_ (linkErrors_keeps ..); refine .onPort ?_; exact .refl _
    refine .trans ?_ (ioDone_keeps ..); refine .trans ?_ (wakePs_keeps ..); refine .onMisc ?_
    refine .onUpkeep (fun _ => Nat.le_refl _) ?_; refine .trans ?_ (linkErrors_keeps ..); refine .onPort ?_; exact .refl _
    refine .trans ?_ (wakePs_keeps ..); refine .onMisc ?_; refine .onUpkeep (fun _ => Nat.le_refl _) ?_
    refine .trans ?_ (linkErrors_keeps ..); refine .onPort ?_; exact .refl _
theorem decideIu_keeps {s : State} {n : Namespace} {data : Bool} {x : Nat × List (Nat × Nat)} {t : State} {r : IuPlan}
    (e : decideIu s n data x = some (t, r)) : Keeps s t := by
  unfold decideIu at e
  dsimp only at e
  split at e
  · cases e; exact .refl s
  · split at e
    · cases e
      exact Keeps.foldl (fun _ _ => ovlReserve_keeps ..) (.refl s)
    · split at e
      · cases e
      · cases e; exact .refl s
theorem decideAll_keeps {n : Namespace} {data : Bool} {l : List (Nat × List (Nat × Nat))} {s t : State} {r : List IuPlan}
    (e : decideAll n data s l = some (t, r)) : Keeps s t := by
  induction l generalizing s t r with
  | nil => cases e; exact .refl s
  | cons x xs ih =>
    unfold decideAll at e
    split at e
    · cases e
    · split at e
      · cases e
      · cases e
        exact (decideIu_keeps (by assumption)).trans (ih (by assumption))
theorem allotOverlay_keeps (s : State) (h : Nat) (x : FSub) : Keeps s (allotOverlay s h x) := by
  unfold allotOverlay
  with_reducible (dsimp only; refine .trans ?_ (restage_keeps ..); refine .trans ?_ (modFlacon_keeps ..); exact .refl _)
theorem allotWhole_keeps (h p n : Nat) (s : State) (l : List (List FSub)) : Keeps s (allotWhole h p n s l) := by
  induction n generalizing s l with
  | zero => exact .refl s
  | succ n ih =>
    unfold allotWhole
    split
    · exact .refl s
    · exact (modFlacon_keeps ..).trans (ih _ _)
theorem admitWrite_keeps (s : State) (c : OutCmd) : Keeps s (admitWrite s c) := by
  unfold admitWrite
  with_reducible
    dsimp only; split; refine .trans ?_ (ioDone_keeps ..); refine .trans ?_ (checkUrgent_keeps ..); exact .refl _; split
    refine .trans ?_ (ioDone_keeps ..); refine .trans ?_ (checkUrgent_keeps ..); exact .refl _
    refine .trans ?_ (ioDone_keeps ..); refine .trans ?_ (checkUrgent_keeps ..); exact .refl _; refine .ite ?_ ?_
    refine .trans ?_ (modCmd_keeps ..); refine .trans ?_ (checkUrgent_keeps ..); exact .refl _
    refine .trans ?_ (modCmd_keeps ..); refine .foldl (fun _ _ => ?_) ?_; refine .trans ?_ (allotOverlay_keeps ..)
    exact .refl _; refine .trans ?_ (allotWhole_keeps ..); refine .onPath ?_; refine .onUpkeep (fun _ => Nat.le_refl _) ?_
    refine .iteL ?_ ?_; refine .trans ?_ (putAnchor_keeps ..); exact .refl _; refine .trans ?_ (decideAll_keeps (by assumption))
    refine .trans ?_ (checkUrgent_keeps ..); exact .refl _
theorem admitNext_keeps (s : State) (p : PortId) : Keeps s (admitNext s p) := by
  unfold admitNext
  with_reducible
    split; exact .refl _; refine .iteL ?_ ?_; refine .trans ?_ (admitWrite_keeps ..); exact .refl _; exact .refl _
theorem startWrite_keeps (s : State) (c : OutCmd) (fua : Bool) : Keeps s (startWrite s c fua) := by
  unfold startWrite
  with_reducible
    dsimp only; refine .ite ?_ ?_; exact .refl _; refine .ite ?_ ?_; refine .trans ?_ (modCmd_keeps ..); exact .refl _
    refine .ite ?_ ?_; refine .trans ?_ (ioDone_keeps ..); exact .refl _; split; refine .trans ?_ (ioDone_keeps ..)
    exact .refl _; split; refine .trans ?_ (fdpEvent_keeps ..); refine .trans ?_ (ioDone_keeps ..); exact .refl _; split
    refine .ite ?_ ?_; refine .trans ?_ (ioDone_keeps ..); refine .trans ?_ (modCmd_keeps ..); exact .refl _
    refine .trans ?_ (modCmd_keeps ..); refine .trans ?_ (modCmd_keeps ..); exact .refl _; refine .trans ?_ (modCmd_keeps ..)
    refine .trans ?_ (modCmd_keeps ..); exact .refl _
theorem runWrite_keeps (s : State) (p : PortId) (sq cid : Nat) : Keeps s (runWrite s p sq cid) := by
  unfold runWrite
  with_reducible (split; exact .refl _; split; refine .trans ?_ (startWrite_keeps ..); exact .refl _; exact .refl _)
theorem admitIfFree_keeps (s : State) (p : PortId) (sq cid : Nat) : Keeps s (admitIfFree s p sq cid) := by
  unfold admitIfFree
  with_reducible
    split; exact .refl _; refine .iteL ?_ ?_; refine .trans ?_ (admitWrite_keeps ..); exact .refl _; exact .refl _
theorem runWriteZeroes_keeps (s : State) (p : PortId) (sq cid : Nat) : Keeps s (runWriteZeroes s p sq cid) := by
  unfold runWriteZeroes
  with_reducible
    split; exact .refl _; split; refine .trans ?_ (admitIfFree_keeps ..); refine .trans ?_ (startWrite_keeps ..); exact .refl _
    exact .refl _
theorem runDeallocate_keeps (s : State) (p : PortId) (sq cid : Nat) : Keeps s (runDeallocate s p sq cid) := by
  unfold runDeallocate
  with_reducible
    split; exact .refl _; split; refine .trans ?_ (admitIfFree_keeps ..); refine .trans ?_ (startWrite_keeps ..); exact .refl _
    exact .refl _
theorem fetchOld_keeps (s : State) (c : OutCmd) (n : Namespace) (seq : Nat) (x : FSub) : Keeps s (fetchOld s c n seq x) := by
  unfold fetchOld
  with_reducible
    dsimp only; split; refine .trans ?_ (giveOld_keeps ..); exact .refl _; split; refine .trans ?_ (giveOld_keeps ..)
    exact .refl _; refine .trans ?_ (giveOld_keeps ..); exact .refl _; refine .trans ?_ (modSubs_keeps ..); exact .refl _
    refine .trans ?_ (readAt_keeps1 ..); exact .refl _; refine .trans ?_ (giveOld_keeps ..)
    refine .trans ?_ (freeBlkOf_keeps1 ..); refine .trans ?_ (mergeFailed_keeps ..); exact .refl _
theorem fetchOlds_keeps (s : State) (c : OutCmd) (n : Namespace) (seq : Nat) : Keeps s (fetchOlds s c n seq) := by
  unfold fetchOlds
  with_reducible
    dsimp only; refine .foldl (fun _ _ => ?_) ?_; refine .trans ?_ (fetchOld_keeps ..); exact .refl _
    refine .trans ?_ (modSubs_keeps ..); exact .refl _
theorem stageTrims_keeps (s : State) (c : OutCmd) (n : Namespace) (seq : Nat) : Keeps s (stageTrims s c n seq) := by
  unfold stageTrims
  with_reducible
    dsimp only; refine .foldl (fun _ _ => ?_) ?_; split; refine .onPath ?_; exact .refl _; refine .iteR ?_ ?_; refine .onPath ?_
    exact .refl _; exact .refl _; exact .refl _; exact .refl _
theorem acceptWrite_keeps (s : State) (c : OutCmd) : Keeps s (acceptWrite s c) := by
  unfold acceptWrite
  with_reducible
    split; refine .trans ?_ (failWrite_keeps ..); exact .refl _; split; dsimp only; refine .trans ?_ (protectIfDone_keeps ..)
    refine .trans ?_ (fetchOlds_keeps ..); refine .iteR ?_ ?_; refine .trans ?_ (stageTrims_keeps ..); exact .refl _
    refine .foldl (fun _ _ => ?_) ?_; refine .trans ?_ (bumpVer_keeps ..); exact .refl _; refine .trans ?_ (modSubs_keeps ..)
    refine .trans ?_ (modCmd_keeps ..); refine .trans ?_ (assignSeq_keeps (by assumption)); exact .refl _
theorem dropBufs_keeps (s : State) (n : Namespace) (subs : List (Nat × Nat)) (usable : List RaBuf) : Keeps s
    (dropBufs s n subs usable) := by
  unfold dropBufs
  with_reducible (refine .onPath ?_; exact .refl _)
theorem takeBuffers_keeps (s : State) (c : OutCmd) : Keeps s (takeBuffers s c) := by
  unfold takeBuffers
  with_reducible
    split; dsimp only; refine .trans ?_ (modCmd_keeps ..); refine .trans ?_ (dropBufs_keeps ..); exact .refl _; exact .refl _
theorem acceptRead_keeps (s : State) (c : OutCmd) : Keeps s (acceptRead s c) := by
  unfold acceptRead
  with_reducible (refine .trans ?_ (modCmd_keeps ..); refine .trans ?_ (takeBuffers_keeps ..); exact .refl _)
theorem acceptOne_keeps (s : State) : Keeps s (acceptOne s) := by
  unfold acceptOne
  with_reducible
    dsimp only; split; refine .ite ?_ ?_; refine .trans ?_ (acceptWrite_keeps ..); exact .refl _
    refine .trans ?_ (acceptRead_keeps ..); exact .refl _; split; refine .ite ?_ ?_; refine .trans ?_ (acceptWrite_keeps ..)
    exact .refl _; refine .trans ?_ (acceptRead_keeps ..); exact .refl _; exact .refl _
theorem selectForRead_keeps1 (s : State) (c : OutCmd) (n : Namespace) (snapshot : Nat) (x : Nat × Nat) : Keeps s
    (selectForRead s c n snapshot x).1 := by
  unfold selectForRead
  with_reducible
    split; dsimp only; exact .refl _; dsimp only; refine .trans ?_ (modFlacon_keeps ..); exact .refl _; dsimp only
    exact .refl _; dsimp only; exact .refl _; split; dsimp only; refine .trans ?_ (readAt_keeps (by assumption)); exact .refl _
    dsimp only; refine .trans ?_ (readAt_keeps (by assumption)); exact .refl _

theorem selectForRead_keeps {s : State} {c : OutCmd} {n : Namespace} {snapshot : Nat} {x : Nat × Nat} {t : State} {r}
    (e : selectForRead s c n snapshot x = (t, r)) : Keeps s t := by
  have k := selectForRead_keeps1 s c n snapshot x
  rw [e] at k; exact k
theorem selectSubs_keeps1 (c : OutCmd) (n : Namespace) (k : Nat) (s : State) (l : List (Nat × Nat)) : Keeps s
    (selectSubs c n k s l).1 := by
  induction l generalizing s with
  | nil => exact .refl s
  | cons x xs ih =>
    unfold selectSubs
    exact (selectForRead_keeps1 ..).trans (ih _)
theorem selectSubs_keeps {c : OutCmd} {n : Namespace} {k : Nat} {s : State} {l : List (Nat × Nat)} {t : State} {r}
    (e : selectSubs c n k s l = (t, r)) : Keeps s t := by
  have k := selectSubs_keeps1 c n k s l
  rw [e] at k; exact k
theorem trackStream_keeps (s : State) (p : PortId) (nsid slba nlb : Nat) : Keeps s (trackStream s p nsid slba nlb) := by
  unfold trackStream
  with_reducible
    dsimp only; refine .ite ?_ ?_; refine .onPath ?_; refine .onPort ?_; exact .refl _; refine .ite ?_ ?_; refine .onPort ?_
    exact .refl _; split; refine .onPath ?_; refine .onPort ?_; exact .refl _; exact .refl _
theorem startRead_keeps (s : State) (c : OutCmd) : Keeps s (startRead s c) := by
  unfold startRead
  with_reducible
    dsimp only; split; refine .trans ?_ (ioDone_keeps ..); exact .refl _; refine .trans ?_ (finishRead_keeps ..)
    refine .trans ?_ (modCmd_keeps ..); refine .trans ?_ (selectSubs_keeps1 ..); exact .refl _
theorem runRead_keeps (s : State) (p : PortId) (sq cid : Nat) : Keeps s (runRead s p sq cid) := by
  unfold runRead
  with_reducible
    split; exact .refl _; split; refine .iteL ?_ ?_; refine .trans ?_ (startRead_keeps ..)
    refine .trans ?_ (trackStream_keeps ..); exact .refl _; exact .refl _; exact .refl _
theorem runVerify_keeps (s : State) (p : PortId) (sq cid : Nat) : Keeps s (runVerify s p sq cid) := by
  unfold runVerify
  with_reducible
    split; exact .refl _; split; refine .iteL ?_ ?_; refine .trans ?_ (startRead_keeps ..); exact .refl _; exact .refl _
    exact .refl _
theorem reselectRead_keeps (s : State) (c : OutCmd) (n : Namespace) : Keeps s (reselectRead s c n) := by
  unfold reselectRead
  with_reducible
    refine .foldl (fun _ _ => ?_) ?_; split; split; refine .trans ?_ (setSub_keeps ..)
    refine .trans ?_ (selectForRead_keeps (by assumption)); exact .refl _; exact .refl _; exact .refl _
theorem endWait_keeps (s : State) (p : PortId) (sq cid : Nat) : Keeps s (endWait s p sq cid) := by
  unfold endWait
  with_reducible
    split; exact .refl _; split; exact .refl _; refine .ite ?_ ?_; dsimp only; refine .foldl (fun _ _ => ?_) ?_
    refine .trans ?_ (fetchOld_keeps ..); exact .refl _; refine .trans ?_ (modSubs_keeps ..); exact .refl _; refine .iteL ?_ ?_
    refine .trans ?_ (finishRead_keeps ..); refine .trans ?_ (reselectRead_keeps ..); exact .refl _; exact .refl _
theorem runFlush_keeps (s : State) (p : PortId) (sq cid : Nat) : Keeps s (runFlush s p sq cid) := by
  unfold runFlush
  with_reducible
    split; exact .refl _; split; refine .ite ?_ ?_; dsimp only; refine .trans ?_ (horizonDone_keeps ..)
    refine .trans ?_ (advanceHorizon_keeps ..); refine .trans ?_ (closeIfDue_keeps ..); refine .trans ?_ (modCmd_keeps ..)
    exact .refl _; exact .refl _; exact .refl _
theorem sealDone_keeps (s : State) (p : PortId) (sq cid : Nat) (t : Token) : Keeps s (sealDone s p sq cid t) := by
  unfold sealDone
  with_reducible (refine .trans ?_ (ioDone_keeps ..); refine .onPort ?_; exact .refl _)
theorem runSeal_keeps (s : State) (p : PortId) (sq cid : Nat) : Keeps s (runSeal s p sq cid) := by
  unfold runSeal
  with_reducible
    split; exact .refl _; split; refine .ite ?_ ?_; exact .refl _; dsimp only; split; refine .trans ?_ (ioDone_keeps ..)
    refine .onPort ?_; exact .refl _; refine .trans ?_ (ioDone_keeps ..); refine .onPort ?_; exact .refl _; refine .ite ?_ ?_
    refine .trans ?_ (sealDone_keeps ..); exact .refl _; refine .iteL ?_ ?_; refine .trans ?_ (closeUpTo_keeps ..)
    exact .refl _; refine .trans ?_ (sealDone_keeps ..); exact .refl _; exact .refl _
theorem padDelay_keeps (s : State) : Keeps s (padDelay s) := by
  unfold padDelay
  with_reducible
    split; split; refine .iteL ?_ ?_; refine .trans ?_ (closeUpTo_keeps ..); exact .refl _; exact .refl _; exact .refl _
    exact .refl _
theorem placeData_keeps (s : State) (p : PortId) (sq cid i : Nat) (data : List Blk) (sram : Bool) : Keeps s
    (placeData s p sq cid i data sram) := by
  unfold placeData
  with_reducible
    split; exact .refl _; refine .ite ?_ ?_; exact .refl _; refine .ite ?_ ?_; refine .trans ?_ (failWrite_keeps ..)
    exact .refl _; dsimp only; refine .trans ?_ (modCmd_keeps ..); refine .trans ?_ (restage_keeps ..)
    refine .trans ?_ (modFlacon_keeps ..); exact .refl _
theorem commitFlacon_keeps (s : State) (i : Nat) : Keeps s (commitFlacon s i) := by
  unfold commitFlacon
  with_reducible
    dsimp only; refine .foldl (fun _ _ => ?_) ?_; refine .trans ?_ (protectIfDone_keeps ..); exact .refl _
    refine .trans ?_ (commitParts_keeps ..); exact .refl _
theorem closeShort_keeps (s : State) (h n : Nat) : Keeps s (closeShort s h n) := by
  unfold closeShort
  with_reducible
    dsimp only; refine .foldl (fun _ _ => ?_) ?_; refine .trans ?_ (closeSb_keeps ..); exact .refl _; exact .refl _
theorem withUnit_keeps (s : State) (h : Nat) : Keeps s (withUnit s h) := by
  unfold withUnit
  with_reducible
    refine .iteR ?_ ?_; refine .trans ?_ (formSb_keeps ..); refine .trans ?_ (formBefore_keeps ..); exact .refl _; exact .refl _
theorem withSlc_keeps (s : State) (h n : Nat) : Keeps s (withSlc s h n) := by
  unfold withSlc
  with_reducible
    refine .iteL ?_ ?_; refine .trans ?_ (formSb_keeps ..); refine .trans ?_ (formBefore_keeps ..); exact .refl _; exact .refl _
theorem makePlace_keeps (s : State) (h n : Nat) : Keeps s (makePlace s h n) := by
  unfold makePlace
  with_reducible
    refine .trans ?_ (withSlc_keeps ..); refine .trans ?_ (withUnit_keeps ..); refine .trans ?_ (closeShort_keeps ..)
    exact .refl _
theorem notePlace_keeps (s : State) (b : SuperBlock) (h : Nat) : Keeps s (notePlace s b h) := by
  unfold notePlace
  with_reducible (refine .iteL ?_ ?_; refine .trans ?_ (fdpEvent_keeps ..); exact .refl _; exact .refl _)
theorem packFlaconSlots_keeps {sb : Nat} {f : Flacon} {n k : Nat} {s : State} {l : List Nat} {t : State} {r : List Nat}
    (e : packFlaconSlots sb f n k s l = some (t, r)) : Keeps s t := by
  induction k generalizing s l t r with
  | zero => cases e; exact .refl s
  | succ k ih =>
    unfold packFlaconSlots at e
    split at e
    · cases e
    · exact (packSlot_keeps (by assumption)).trans (ih e)
theorem packFlacon_keeps (s : State) (i : Nat) : Keeps s (packFlacon s i) := by
  unfold packFlacon
  with_reducible
    dsimp only; refine .ite ?_ ?_; exact .refl _; split; refine .trans ?_ (makePlace_keeps ..); exact .refl _; split
    refine .trans ?_ (makePlace_keeps ..); exact .refl _; refine .trans ?_ (drydownSeal_keeps ..)
    refine .trans ?_ (formSuccessor_keeps ..); refine .trans ?_ (closeIfDue_keeps ..); refine .trans ?_ (modFlacon_keeps ..)
    refine .trans ?_ (packFlaconSlots_keeps (by assumption)); refine .trans ?_ (notePlace_keeps ..)
    refine .trans ?_ (makePlace_keeps ..); exact .refl _
theorem applyAt_keeps (s : State) (f : Flacon) (pl : Place) (i : Nat) : Keeps s (applyAt s f pl i) := by
  unfold applyAt
  with_reducible
    split; exact .refl _; refine .ite ?_ ?_; exact .refl _; split; exact .refl _; dsimp only; refine .ite ?_ ?_
    refine .trans ?_ (applySub_keeps ..); exact .refl _; refine .iteL ?_ ?_; refine .trans ?_ (applyWhole_keeps ..)
    exact .refl _; exact .refl _
theorem applyFlacon_keeps (s : State) (i : Nat) : Keeps s (applyFlacon s i) := by
  unfold applyFlacon
  with_reducible
    dsimp only; split; exact .refl _; refine .iteR ?_ ?_; refine .trans ?_ (advanceHorizon_keeps ..)
    refine .trans ?_ (modFlacon_keeps ..); refine .foldl (fun _ _ => ?_) ?_; refine .trans ?_ (applyAt_keeps ..); exact .refl _
    exact .refl _; exact .refl _
theorem applyTrim_keeps (s : State) (id : Nat) : Keeps s (applyTrim s id) := by
  unfold applyTrim
  with_reducible
    split; exact .refl _; dsimp only; refine .ite ?_ ?_; exact .refl _; refine .trans ?_ (advanceHorizon_keeps ..); split
    refine .trans ?_ (protectIfDone_keeps ..); refine .trans ?_ (trimNow_keeps ..); exact .refl _
    refine .trans ?_ (trimNow_keeps ..); exact .refl _
theorem applyVersion_keeps (s : State) (trim : Bool) (id : Nat) : Keeps s (applyVersion s trim id) := by
  unfold applyVersion
  with_reducible
    refine .ite ?_ ?_; refine .trans ?_ (applyTrim_keeps ..); exact .refl _; refine .trans ?_ (applyFlacon_keeps ..)
    exact .refl _
theorem releaseFlacon_keeps (s : State) (i : Nat) : Keeps s (releaseFlacon s i) := by
  unfold releaseFlacon
  with_reducible
    dsimp only; refine .iteR ?_ ?_; refine .foldl (fun _ _ => ?_) ?_; split; refine .trans ?_ (forgetApplied_keeps ..)
    exact .refl _; exact .refl _; refine .trans ?_ (modFlacon_keeps ..); exact .refl _; exact .refl _
theorem holdData_keeps (s : State) (c : OutCmd) : Keeps s (holdData s c) := by
  unfold holdData
  with_reducible
    dsimp only; split; refine .trans ?_ (protectSeq_keeps ..); refine .foldl (fun _ _ => ?_) ?_
    refine .trans ?_ (trimNow_keeps ..); exact .refl _; refine .foldl (fun _ _ => ?_) ?_; refine .trans ?_ (restage_keeps ..)
    exact .refl _; refine .trans ?_ (modSubs_keeps ..); exact .refl _; refine .foldl (fun _ _ => ?_) ?_
    refine .trans ?_ (trimNow_keeps ..); exact .refl _; refine .foldl (fun _ _ => ?_) ?_; refine .trans ?_ (restage_keeps ..)
    exact .refl _; refine .trans ?_ (modSubs_keeps ..); exact .refl _
theorem carryWrite_keeps (s : State) (c : OutCmd) : Keeps s (carryWrite s c) := by
  unfold carryWrite
  with_reducible
    refine .trans ?_ (advanceHorizon_keeps ..); refine .trans ?_ (dropCmd_keeps ..); refine .trans ?_ (holdData_keeps ..)
    exact .refl _
theorem abandonRead_keeps (s : State) (c : OutCmd) : Keeps s (abandonRead s c) := by
  unfold abandonRead
  with_reducible (refine .trans ?_ (unpinSubs_keeps ..); refine .trans ?_ (dropJobs_keeps ..); exact .refl _)
theorem endSilently_keeps (s : State) (c : OutCmd) : Keeps s (endSilently s c) := by
  unfold endSilently
  with_reducible
    refine .ite ?_ ?_; refine .trans ?_ (dropCmd_keeps ..); refine .trans ?_ (abandonRead_keeps ..); exact .refl _
    refine .ite ?_ ?_; refine .trans ?_ (carryWrite_keeps ..); exact .refl _; refine .trans ?_ (dropCmd_keeps ..)
    refine .trans ?_ (discardWrite_keeps ..); exact .refl _
theorem forgetOwed_keeps (s : State) (p : PortId) : Keeps s (forgetOwed s p) := by
  unfold forgetOwed
  with_reducible (dsimp only; refine .raw ?_; refine .onOwn (fun _ => rfl) ?_; refine .onPort ?_; exact .refl _)
theorem endAll_keeps (s : State) (ps : List PortId) : Keeps s (endAll s ps) := by
  unfold endAll
  with_reducible
    dsimp only; refine .foldl (fun _ _ => ?_) ?_; refine .trans ?_ (forgetOwed_keeps ..); exact .refl _
    refine .foldl (fun _ _ => ?_) ?_; refine .trans ?_ (endSilently_keeps ..); exact .refl _; refine .foldl (fun _ _ => ?_) ?_
    refine .onPort ?_; exact .refl _; exact .refl _
theorem endOutstanding_keeps (s : State) (p : PortId) : Keeps s (endOutstanding s p) := by
  unfold endOutstanding
  with_reducible (refine .trans ?_ (endAll_keeps ..); exact .refl _)
theorem endUnlock_keeps (s : State) : Keeps s (endUnlock s) := by
  unfold endUnlock
  with_reducible
    dsimp only; refine .onFh (fun _ => Nat.le_refl _) ?_; refine .onSecNone (fun _ => rfl) (fun _ => rfl) ?_; exact .refl _
theorem endUnlockOf_keeps (s : State) (p : PortId) : Keeps s (endUnlockOf s p) := by
  unfold endUnlockOf
  with_reducible
    split; refine .iteL ?_ ?_; refine .trans ?_ (endUnlock_keeps ..); exact .refl _; exact .refl _; exact .refl _
theorem resetSharedRegs_keeps (s : State) : Keeps s (resetSharedRegs s) := by
  unfold resetSharedRegs
  with_reducible
    dsimp only; refine .onFh (fun _ => Nat.le_refl _) ?_; refine .onHk (fun _ => Nat.le_refl _) ?_; refine .raw ?_
    refine .onMedia ?_; exact .refl _
theorem closeC3Windows_keeps (s : State) : Keeps s (closeC3Windows s) := by
  unfold closeC3Windows
  with_reducible (refine .onFh (fun _ => Nat.le_refl _) ?_; exact .refl _)
theorem dropBuffer_keeps (s : State) : Keeps s (dropBuffer s) := by
  unfold dropBuffer
  with_reducible (refine .iteR ?_ ?_; refine .raw ?_; exact .refl _; exact .refl _)
theorem resetPortNow_keeps (s : State) (p : PortId) : Keeps s (resetPortNow s p) := by
  unfold resetPortNow
  with_reducible
    dsimp only; refine .trans ?_ (takePs_keeps ..); refine .trans ?_ (closeC3Windows_keeps ..); refine .iteL ?_ ?_
    refine .trans ?_ (dropBuffer_keeps ..); exact .refl _; refine .iteL ?_ ?_; refine .trans ?_ (resetSharedRegs_keeps ..)
    exact .refl _; refine .onPort ?_; refine .trans ?_ (endUnlockOf_keeps ..); refine .trans ?_ (endOutstanding_keeps ..)
    exact .refl _
theorem controllerReset_keeps (s : State) (p : PortId) : Keeps s (controllerReset s p) := by
  unfold controllerReset
  with_reducible
    refine .ite ?_ ?_; refine .onPort ?_; exact .refl _; refine .trans ?_ (resetPortNow_keeps ..); exact .refl _
theorem parityPages_keeps (s : State) (sb idx : Nat) : Keeps s (parityPages s sb idx) := by
  unfold parityPages
  with_reducible
    split; exact .refl _; dsimp only; refine .foldl (fun _ _ => ?_) ?_; split; refine .iteR ?_ ?_; refine .onMedia ?_
    exact .refl _; exact .refl _; exact .refl _; exact .refl _
theorem cutParity_keeps (s : State) : Keeps s (cutParity s) := by
  unfold cutParity
  with_reducible
    refine .foldl (fun _ _ => ?_) ?_; split; split; refine .trans ?_ (parityPages_keeps ..); exact .refl _
    refine .trans ?_ (parityPages_keeps ..); exact .refl _; exact .refl _; exact .refl _; exact .refl _
theorem resetDies_keeps (s : State) : Keeps s (resetDies s) := by
  unfold resetDies
  with_reducible
    dsimp only; refine .onHk (fun _ => Nat.le_refl _) ?_; refine .onMedia ?_; refine .trans ?_ (cutParity_keeps ..)
    exact .refl _
theorem stopPorts_keeps (s : State) : Keeps s (stopPorts s) := by
  unfold stopPorts
  with_reducible (refine .onBoth ?_; refine .trans ?_ (endAll_keeps ..); exact .refl _)
theorem liftThrottle_keeps (s : State) : Keeps s (liftThrottle s) := by
  unfold liftThrottle
  with_reducible (dsimp only; refine .onHk (fun _ => Nat.le_refl _) ?_; refine .raw ?_; refine .onMedia ?_; exact .refl _)
theorem beginFlush_keeps (s : State) (cause : Nat) : Keeps s (beginFlush s cause) := by
  unfold beginFlush
  with_reducible
    dsimp only; refine .onJournal (fun _ => Nat.le_refl _) ?_; refine .onMedia ?_; refine .onPath ?_
    refine .trans ?_ (liftThrottle_keeps ..); refine .trans ?_ (resetDies_keeps ..); refine .trans ?_ (stopPorts_keeps ..)
    exact .refl _
theorem noFlush_keeps (s : State) : Keeps s (noFlush s) := by
  unfold noFlush
  with_reducible
    refine .onJournal (fun _ => Nat.le_refl _) ?_; refine .trans ?_ (liftThrottle_keeps ..)
    refine .trans ?_ (resetDies_keeps ..); refine .trans ?_ (stopPorts_keeps ..); exact .refl _
theorem selfRefreshAll_keeps (s : State) : Keeps s (selfRefreshAll s) := by
  unfold selfRefreshAll
  with_reducible (refine .raw ?_; exact .refl _)
theorem refugeProgram_keeps (die block wl : Nat) (es : List Element) (s : State) : Keeps s (refugeProgram die block wl es s)
    := by
  unfold refugeProgram
  with_reducible
    dsimp only; refine .trans ?_ (modChan_keeps ..); refine .foldl (fun _ _ => ?_) ?_; refine .onMedia ?_; exact .refl _
    exact .refl _
theorem programFlush_keeps (s : State) (f : Flush) (r : RefugeSet) : Keeps s (programFlush s f r) := by
  unfold programFlush
  with_reducible
    dsimp only; refine .foldl (fun _ _ => ?_) ?_; split; refine .trans ?_ (refugeProgram_keeps ..); exact .refl _; exact .refl _
    exact .refl _
theorem putSet_serial (n : Nat) (r : RefugeSet) (j : Journal) : j.nextSerial ≤ (putSet n r j).nextSerial := by
  unfold putSet
  split <;> exact Nat.le_refl _
theorem placeFlush_keeps (s : State) (f : Flush) : Keeps s (placeFlush s f) := by
  unfold placeFlush
  with_reducible
    dsimp only; refine .ite ?_ ?_; refine .onJournal (fun _ => Nat.le_refl _) ?_; refine .trans ?_ (programFlush_keeps ..)
    exact .refl _; refine .iteL ?_ ?_; refine .onJournal (fun _ => Nat.le_refl _) ?_; refine .trans ?_ (programFlush_keeps ..)
    exact .refl _; exact .refl _
theorem endFlush_keeps (s : State) : Keeps s (endFlush s) := by
  unfold endFlush
  with_reducible
    dsimp only; refine .trans ?_ (selfRefreshAll_keeps ..); refine .onJournal (fun _ => Nat.le_refl _) ?_
    refine .trans ?_ (refreshRefuge_keeps ..); refine .trans ?_ (putAnchor_keeps ..); refine .trans ?_ (placeFlush_keeps ..)
    exact .refl _

end Sys2Proof.Machine
end

