-- ==== Sys2Proof/Laws/KeepsUnits.lean ====
section
/-! SUPPORT. `Keeps` for the operations of the movers, the hub, DRAM, upkeep, start-up and the first admin commands. -/
namespace Sys2Proof.Machine

theorem modMover_keeps (s : State) (n : Nat) (f : Mover → Mover) : Keeps s (modMover s n f) := by
  unfold modMover
  with_reducible (refine .raw ?_; exact .refl _)
theorem modMoverBlock_keeps (s : State) (b : Nat) (f : MoverBlock → MoverBlock) : Keeps s (modMoverBlock s b f) := by
  unfold modMoverBlock
  with_reducible (refine .raw ?_; exact .refl _)
theorem modDc_keeps (s : State) (n : Nat) (f : Dc → Dc) : Keeps s (modDc s n f) := by
  unfold modDc
  with_reducible (refine .raw ?_; exact .refl _)
theorem putDramByte_keeps (s : State) (addr : Nat) (v : Byte) (poison : Bool) : Keeps s (putDramByte s addr v poison) := by
  unfold putDramByte
  with_reducible (split; refine .trans ?_ (modDc_keeps ..); exact .refl _)
theorem putSpaceByte_keeps (s : State) (sp off : Nat) (v : Byte) (poison : Bool) : Keeps s (putSpaceByte s sp off v poison) :=
    by
  unfold putSpaceByte
  with_reducible
    split; refine .trans ?_ (putDramByte_keeps ..); exact .refl _; refine .onMisc ?_; exact .refl _; refine .onMisc ?_
    exact .refl _; refine .onMisc ?_; exact .refl _; exact .refl _
theorem putSpace_keeps (sp : Nat) (poison : Bool) (s : State) (o : Nat) (l : List Byte) : Keeps s (putSpace sp poison s o l)
    := by
  induction l generalizing s o with
  | nil => exact .refl s
  | cons x xs ih =>
    unfold putSpace
    exact (putSpaceByte_keeps ..).trans (ih _ _)
theorem drawFree_keeps1 (s : State) : Keeps s (drawFree s).1 := by
  unfold drawFree
  with_reducible (dsimp only; refine .draw ?_; exact .refl _)

theorem drawFree_keeps {s : State} {t : State} {r} (e : drawFree s = (t, r)) : Keeps s t := by
  have k := drawFree_keeps1 s
  rw [e] at k; exact k
theorem tryPace_keeps (s : State) (n : Nat) : Keeps s (tryPace s n) := by
  unfold tryPace
  with_reducible
    dsimp only; split; refine .iteL ?_ ?_; refine .trans ?_ (modMover_keeps ..); exact .refl _; exact .refl _; exact .refl _
theorem addCredits_keeps (s : State) (n : Nat) : Keeps s (addCredits s n) := by
  unfold addCredits
  with_reducible
    refine .foldl (fun _ _ => ?_) ?_; refine .ite ?_ ?_; refine .trans ?_ (tryPace_keeps ..)
    refine .trans ?_ (modMover_keeps ..); exact .refl _; exact .refl _; exact .refl _
theorem burstBytes_keeps1 (s : State) (d : Desc) (moved n : Nat) : Keeps s (burstBytes s d moved n).1 := by
  unfold burstBytes
  with_reducible
    split; dsimp only; exact .refl _; split; dsimp only; refine .trans ?_ (drawFree_keeps (by assumption)); exact .refl _

theorem burstBytes_keeps {s : State} {d : Desc} {moved n : Nat} {t : State} {r} (e : burstBytes s d moved n = (t, r)) : Keeps
    s t := by
  have k := burstBytes_keeps1 s d moved n
  rw [e] at k; exact k
theorem poisonBurst_keeps (s : State) (addr : Nat) : Keeps s (poisonBurst s addr) := by
  unfold poisonBurst
  with_reducible (split; refine .trans ?_ (modDc_keeps ..); exact .refl _)
theorem putBurst_keeps (s : State) (sp off : Nat) (bs : List Byte) (poison : Bool) : Keeps s (putBurst s sp off bs poison) := by
  unfold putBurst
  with_reducible
    dsimp only; refine .foldl (fun _ _ => ?_) ?_; refine .ite ?_ ?_; refine .trans ?_ (poisonBurst_keeps ..); exact .refl _
    exact .refl _; refine .trans ?_ (putSpace_keeps ..); exact .refl _
theorem moveBurst_keeps (s : State) (n : Nat) (poisoned : Bool) : Keeps s (moveBurst s n poisoned) := by
  unfold moveBurst
  with_reducible
    dsimp only; split; exact .refl _; refine .trans ?_ (modMover_keeps ..); refine .trans ?_ (putBurst_keeps ..)
    refine .trans ?_ (burstBytes_keeps1 ..); exact .refl _
theorem disableMover_keeps (s : State) (n : Nat) : Keeps s (disableMover s n) := by
  unfold disableMover
  with_reducible
    dsimp only; refine .trans ?_ (modMover_keeps ..); split; refine .trans ?_ (putSpace_keeps ..)
    refine .trans ?_ (drawFree_keeps1 ..); exact .refl _; refine .trans ?_ (drawFree_keeps1 ..); exact .refl _
theorem enableMover_keeps (s : State) (n : Nat) : Keeps s (enableMover s n) := by
  unfold enableMover
  with_reducible (refine .trans ?_ (modMover_keeps ..); exact .refl _)
theorem giveChain_keeps (s : State) (n head : Nat) : Keeps s (giveChain s n head) := by
  unfold giveChain
  with_reducible (refine .iteL ?_ ?_; refine .trans ?_ (modMover_keeps ..); exact .refl _; exact .refl _)
theorem setFaultBit_keeps (s : State) (n : Nat) : Keeps s (setFaultBit s n) := by
  unfold setFaultBit
  with_reducible
    refine .ite ?_ ?_; refine .trans ?_ (modChan_keeps ..); exact .refl _; refine .ite ?_ ?_; refine .trans ?_ (modDc_keeps ..)
    exact .refl _; refine .ite ?_ ?_; refine .trans ?_ (modMoverBlock_keeps ..); exact .refl _; refine .ite ?_ ?_
    refine .trans ?_ (modCluster_keeps ..); exact .refl _; refine .iteL ?_ ?_; refine .onHk (fun _ => Nat.le_refl _) ?_
    exact .refl _; exact .refl _
theorem openWindow_keeps (s : State) (primary : Nat) (r : Reaction) : Keeps s (openWindow s primary r) := by
  unfold openWindow
  with_reducible (refine .onFh (fun _ => Nat.le_refl _) ?_; exact .refl _)
theorem addHistory_keeps (s : State) (source cls flags primary count detail : Nat) : Keeps s
    (addHistory s source cls flags primary count detail) := by
  unfold addHistory
  with_reducible (refine .onFh (fun _ => Nat.le_succ _) ?_; exact .refl _)
theorem recordFiring_keeps (s : State) (source cls flags primary detail : Nat) (limited : Bool) : Keeps s
    (recordFiring s source cls flags primary detail limited) := by
  unfold recordFiring
  with_reducible
    dsimp only; refine .ite ?_ ?_; refine .trans ?_ (addHistory_keeps ..); exact .refl _
    refine .onFh (fun _ => Nat.le_refl _) ?_; exact .refl _
theorem degradeReads_keeps (s : State) (ch : Nat) : Keeps s (degradeReads s ch) := by
  unfold degradeReads
  with_reducible
    dsimp only; refine .trans ?_ (feedColumns_keeps ..); refine .foldl (fun _ _ => ?_) ?_; split
    refine .trans ?_ (toStep5_keeps ..); exact .refl _; exact .refl _; refine .foldl (fun _ _ => ?_) ?_
    refine .trans ?_ (dropOps_keeps ..); exact .refl _; exact .refl _
theorem cutOp_keeps (s : State) (die : Nat) : Keeps s (cutOp s die) := by
  unfold cutOp
  with_reducible
    dsimp only; split; split; split; refine .trans ?_ (modChan_keeps ..); refine .trans ?_ (modDie_keeps ..); split
    refine .trans ?_ (returnGrant_keeps ..); exact .refl _; exact .refl _; refine .trans ?_ (modDie_keeps ..); split
    refine .trans ?_ (returnGrant_keeps ..); exact .refl _; exact .refl _; refine .trans ?_ (modDie_keeps ..); split
    refine .trans ?_ (returnGrant_keeps ..); exact .refl _; exact .refl _; split; refine .trans ?_ (modChan_keeps ..); split
    split; refine .trans ?_ (modChan_keeps ..); refine .trans ?_ (modDie_keeps ..); split
    refine .trans ?_ (returnGrant_keeps ..); exact .refl _; exact .refl _; refine .trans ?_ (modDie_keeps ..); split
    refine .trans ?_ (returnGrant_keeps ..); exact .refl _; exact .refl _; refine .trans ?_ (modDie_keeps ..); split
    refine .trans ?_ (returnGrant_keeps ..); exact .refl _; exact .refl _; refine .trans ?_ (modChan_keeps ..); split; split
    refine .trans ?_ (modChan_keeps ..); refine .trans ?_ (modDie_keeps ..); split; refine .trans ?_ (returnGrant_keeps ..)
    exact .refl _; exact .refl _; refine .trans ?_ (modDie_keeps ..); split; refine .trans ?_ (returnGrant_keeps ..)
    exact .refl _; exact .refl _; refine .trans ?_ (modDie_keeps ..); split; refine .trans ?_ (returnGrant_keeps ..)
    exact .refl _; exact .refl _; refine .trans ?_ (failBlock_keeps ..); split; split; refine .trans ?_ (modChan_keeps ..)
    refine .trans ?_ (modDie_keeps ..); split; refine .trans ?_ (returnGrant_keeps ..); exact .refl _; exact .refl _
    refine .trans ?_ (modDie_keeps ..); split; refine .trans ?_ (returnGrant_keeps ..); exact .refl _; exact .refl _
    refine .trans ?_ (modDie_keeps ..); split; refine .trans ?_ (returnGrant_keeps ..); exact .refl _; exact .refl _
    refine .trans ?_ (failBlock_keeps ..); split; split; refine .trans ?_ (modChan_keeps ..); refine .trans ?_ (modDie_keeps ..)
    split; refine .trans ?_ (returnGrant_keeps ..); exact .refl _; exact .refl _; refine .trans ?_ (modDie_keeps ..); split
    refine .trans ?_ (returnGrant_keeps ..); exact .refl _; exact .refl _; refine .trans ?_ (modDie_keeps ..); split
    refine .trans ?_ (returnGrant_keeps ..); exact .refl _; exact .refl _; refine .trans ?_ (failBlock_keeps ..); split; split
    refine .trans ?_ (modChan_keeps ..); refine .trans ?_ (modDie_keeps ..); split; refine .trans ?_ (returnGrant_keeps ..)
    exact .refl _; exact .refl _; refine .trans ?_ (modDie_keeps ..); split; refine .trans ?_ (returnGrant_keeps ..)
    exact .refl _; exact .refl _; refine .trans ?_ (modDie_keeps ..); split; refine .trans ?_ (returnGrant_keeps ..)
    exact .refl _; exact .refl _; split; split; refine .trans ?_ (modChan_keeps ..); refine .trans ?_ (modDie_keeps ..); split
    refine .trans ?_ (returnGrant_keeps ..); exact .refl _; exact .refl _; refine .trans ?_ (modDie_keeps ..); split
    refine .trans ?_ (returnGrant_keeps ..); exact .refl _; exact .refl _; refine .trans ?_ (modDie_keeps ..); split
    refine .trans ?_ (returnGrant_keeps ..); exact .refl _; exact .refl _
theorem resetChannel_keeps (s : State) (note : State → State) (ch : Nat) (hnote : ∀ s, Keeps s (note s)) : Keeps s
    (resetChannel s note ch) := by
  unfold resetChannel
  with_reducible
    refine .ite ?_ ?_; refine .onJournal (fun _ => Nat.le_refl _) ?_; exact .refl _; refine .ite ?_ ?_; exact .refl _
    dsimp only; refine .trans ?_ (degradeReads_keeps ..); refine .trans ?_ (enableMover_keeps ..)
    refine .trans ?_ (disableMover_keeps ..); refine .foldl (fun _ _ => ?_) ?_; refine .trans ?_ (cutOp_keeps ..); exact .refl _
    refine .trans ?_ (modChan_keeps ..); refine .trans ?_ (hnote _); exact .refl _
theorem startCsReset_keeps (s : State) (primary ch : Nat) : Keeps s (startCsReset s primary ch) := by
  unfold startCsReset
  with_reducible
    refine .trans ?_ (resetChannel_keeps _ _ _ (fun _ => ?_)); exact .refl _; refine .trans ?_ (openWindow_keeps ..)
    exact .refl _
theorem failChannel_keeps (s : State) (ch : Nat) : Keeps s (failChannel s ch) := by
  unfold failChannel
  with_reducible
    dsimp only; refine .trans ?_ (refreshRefuge_keeps ..); refine .trans ?_ (packCopies_keeps ..)
    refine .trans ?_ (memberLoss_keeps ..); refine .trans ?_ (degradeReads_keeps ..); refine .foldl (fun _ _ => ?_) ?_
    refine .trans ?_ (modDie_keeps ..); refine .elimL (fun _ => ?_) ?_; refine .trans ?_ (returnGrant_keeps ..); exact .refl _
    exact .refl _; refine .foldl (fun _ _ => ?_) ?_; refine .trans ?_ (dropOps_keeps ..); exact .refl _
    refine .trans ?_ (modChan_keeps ..); exact .refl _
theorem senseAgain_keeps (s : State) (j : CwJob) : Keeps s (senseAgain s j) := by
  unfold senseAgain
  with_reducible
    dsimp only; split; refine .trans ?_ (queueSense_keeps ..); refine .trans ?_ (modJob_keeps ..); exact .refl _
    refine .trans ?_ (queueSense_keeps ..); refine .trans ?_ (queueSense_keeps ..); refine .trans ?_ (queueSense_keeps ..)
    refine .trans ?_ (modJob_keeps ..); exact .refl _; refine .trans ?_ (queueSense_keeps ..)
    refine .trans ?_ (queueSense_keeps ..); refine .trans ?_ (queueSense_keeps ..); refine .trans ?_ (queueSense_keeps ..)
    refine .trans ?_ (queueSense_keeps ..); refine .trans ?_ (modJob_keeps ..); exact .refl _
    refine .trans ?_ (queueSense_keeps ..); refine .trans ?_ (modJob_keeps ..); exact .refl _
theorem resetCluster_keeps (s : State) (primary g : Nat) : Keeps s (resetCluster s primary g) := by
  unfold resetCluster
  with_reducible
    dsimp only; refine .iteL ?_ ?_; refine .foldl (fun _ _ => ?_) ?_; split; refine .trans ?_ (senseAgain_keeps ..)
    exact .refl _; exact .refl _; refine .trans ?_ (modCluster_keeps ..); exact .refl _; refine .trans ?_ (modCluster_keeps ..)
    exact .refl _
theorem startLcReset_keeps (s : State) (primary g : Nat) : Keeps s (startLcReset s primary g) := by
  unfold startLcReset
  with_reducible
    dsimp only; refine .trans ?_ (resetCluster_keeps ..); refine .trans ?_ (modCluster_keeps ..)
    refine .trans ?_ (openWindow_keeps ..); exact .refl _
theorem restartMover_keeps (s : State) (primary n : Nat) : Keeps s (restartMover s primary n) := by
  unfold restartMover
  with_reducible
    dsimp only; refine .iteL ?_ ?_; refine .trans ?_ (giveChain_keeps ..); exact .refl _
    refine .trans ?_ (enableMover_keeps ..); refine .trans ?_ (disableMover_keeps ..); refine .trans ?_ (modMover_keeps ..)
    refine .trans ?_ (openWindow_keeps ..); exact .refl _
theorem reactC2_keeps (s : State) (n : Nat) : Keeps s (reactC2 s n) := by
  unfold reactC2
  with_reducible
    split; refine .trans ?_ (startCsReset_keeps ..); exact .refl _; refine .ite ?_ ?_; refine .trans ?_ (restartMover_keeps ..)
    exact .refl _; refine .iteL ?_ ?_; refine .trans ?_ (startLcReset_keeps ..); exact .refl _; exact .refl _
theorem resetUnit_keeps (s : State) (n : Nat) : Keeps s (resetUnit s n) := by
  unfold resetUnit
  split
  · exact resetChannel_keeps _ _ _ fun s => .refl s
  · split
    · exact modDc_keeps ..
    · split
      · exact disableMover_keeps ..
      · split
        · exact resetCluster_keeps ..
        · exact .refl s
theorem reactC3_keeps (s : State) (n : Nat) : Keeps s (reactC3 s n) := by
  unfold reactC3
  with_reducible
    dsimp only; refine .trans ?_ (resetUnit_keeps ..); refine .onFh (fun _ => Nat.le_refl _) ?_
    refine .foldl (fun _ _ => ?_) ?_; refine .trans ?_ (endUnlockOf_keeps ..); refine .onPort ?_; exact .refl _
    refine .trans ?_ (endAll_keeps ..); refine .trans ?_ (openWindow_keeps ..); exact .refl _
theorem enterSafe_keeps (s : State) (c : Capture) : Keeps s (enterSafe s c) := by
  unfold enterSafe
  with_reducible refine Keeps.ite ?_ ?_
  with_reducible exact Keeps.refl _
  dsimp only
  with_reducible refine Keeps.iteR ?_ ?_
  with_reducible refine Keeps.ite ?_ ?_
  with_reducible refine Keeps.raw ?_
  with_reducible refine Keeps.trans ?_ (beginFlush_keeps ..)
  with_reducible exact Keeps.refl _
  with_reducible refine Keeps.raw ?_
  with_reducible refine Keeps.onJournal (fun _ => Nat.le_refl _) ?_
  with_reducible refine Keeps.trans ?_ (resetDies_keeps ..)
  with_reducible exact Keeps.refl _
  with_reducible refine Keeps.onBoot ?_
  with_reducible refine Keeps.raw ?_
  refine Keeps.onOwnNone rfl ?_
  with_reducible refine Keeps.trans ?_ (endUnlock_keeps ..)
  with_reducible refine Keeps.trans ?_ (pmeOnChange_keeps ..)
  with_reducible refine Keeps.onBoth ?_
  with_reducible refine Keeps.trans ?_ (stopPorts_keeps ..)
  with_reducible refine Keeps.onFh (fun _ => Nat.le_refl _) ?_
  with_reducible refine Keeps.trans ?_ (openWindow_keeps ..)
  with_reducible exact Keeps.refl _
theorem sourceResponse_keeps (s : State) (n : Nat) : Keeps s (sourceResponse s n) := by
  unfold sourceResponse
  with_reducible (refine .iteL ?_ ?_; refine .onMedia ?_; exact .refl _; exact .refl _)
theorem fireSecondary_keeps (s : State) (f : Firing) (w : Window) : Keeps s (fireSecondary s f w) := by
  unfold fireSecondary
  dsimp only
  with_reducible refine Keeps.trans ?_ (recordFiring_keeps ..)
  split
  with_reducible refine Keeps.iteL ?_ ?_
  with_reducible refine Keeps.trans ?_ (modChan_keeps ..)
  with_reducible exact Keeps.refl _
  with_reducible refine Keeps.ite ?_ ?_
  with_reducible refine Keeps.elimL (fun _ => ?_) ?_
  with_reducible refine Keeps.trans ?_ (resetChannel_keeps _ _ _ (fun _ => ?_))
  with_reducible exact Keeps.refl _
  exact Keeps.refl _
  with_reducible refine Keeps.onFh (fun _ => Nat.le_refl _) ?_
  with_reducible exact Keeps.refl _
  with_reducible refine Keeps.onFh (fun _ => Nat.le_refl _) ?_
  with_reducible exact Keeps.refl _
  with_reducible refine Keeps.ite ?_ ?_
  with_reducible refine Keeps.elimL (fun _ => ?_) ?_
  with_reducible refine Keeps.trans ?_ (resetChannel_keeps _ _ _ (fun _ => ?_))
  with_reducible exact Keeps.refl _
  exact Keeps.refl _
  with_reducible refine Keeps.onFh (fun _ => Nat.le_refl _) ?_
  with_reducible exact Keeps.refl _
  with_reducible refine Keeps.onFh (fun _ => Nat.le_refl _) ?_
  with_reducible exact Keeps.refl _
theorem fireSuppressed_keeps (s : State) (f : Firing) : Keeps s (fireSuppressed s f) := by
  unfold fireSuppressed
  with_reducible
    dsimp only; refine .trans ?_ (recordFiring_keeps ..); refine .onFh (fun _ => Nat.le_refl _) ?_; exact .refl _
theorem firePrimary_keeps (s : State) (f : Firing) (first : Bool) : Keeps s (firePrimary s f first) := by
  unfold firePrimary
  with_reducible
    dsimp only; split; refine .trans ?_ (reactC2_keeps ..); refine .iteL ?_ ?_; refine .trans ?_ (notice_keeps ..)
    exact .refl _; refine .trans ?_ (sourceResponse_keeps ..); refine .trans ?_ (recordFiring_keeps ..)
    refine .onFh (fun _ => Nat.le_refl _) ?_; exact .refl _; refine .trans ?_ (reactC3_keeps ..); refine .iteL ?_ ?_
    refine .trans ?_ (notice_keeps ..); exact .refl _; refine .trans ?_ (sourceResponse_keeps ..)
    refine .trans ?_ (recordFiring_keeps ..); refine .onFh (fun _ => Nat.le_refl _) ?_; exact .refl _
    refine .trans ?_ (enterSafe_keeps ..); refine .iteL ?_ ?_; refine .trans ?_ (notice_keeps ..); exact .refl _
    refine .trans ?_ (sourceResponse_keeps ..); refine .trans ?_ (recordFiring_keeps ..)
    refine .onFh (fun _ => Nat.le_refl _) ?_; exact .refl _; refine .iteL ?_ ?_; refine .trans ?_ (notice_keeps ..)
    exact .refl _; refine .trans ?_ (sourceResponse_keeps ..); refine .trans ?_ (recordFiring_keeps ..)
    refine .onFh (fun _ => Nat.le_refl _) ?_; exact .refl _
theorem fireEach_keeps (s : State) (first : Bool) (l : List Firing) : Keeps s (fireEach s first l) := by
  induction l generalizing s first with
  | nil => exact .refl s
  | cons x xs ih =>
    unfold fireEach
    dsimp only
    split
    · exact ((setFaultBit_keeps ..).trans (fireSuppressed_keeps ..)).trans (ih _ _)
    · split
      · split
        · exact ((setFaultBit_keeps ..).trans (firePrimary_keeps ..)).trans (ih _ _)
        · exact ((setFaultBit_keeps ..).trans (fireSecondary_keeps ..)).trans (ih _ _)
      · exact ((setFaultBit_keeps ..).trans (firePrimary_keeps ..)).trans (ih _ _)
theorem fireAll_keeps (s : State) (l : List Firing) : Keeps s (fireAll s l) := by
  unfold fireAll
  with_reducible
    refine .ite ?_ ?_; exact .refl _; dsimp only; refine .trans ?_ (fireEach_keeps ..); refine .onFh (fun _ => Nat.le_refl _) ?_
    exact .refl _
theorem fire_keeps (s : State) (n : Nat) (detail : Nat) : Keeps s (fire s n detail) := by
  unfold fire
  with_reducible (refine .trans ?_ (fireAll_keeps ..); exact .refl _)
theorem mramCe_keeps (s : State) (word : Nat) : Keeps s (mramCe s word) := by
  unfold mramCe
  with_reducible
    dsimp only; refine .iteR ?_ ?_; refine .ite ?_ ?_; refine .onMisc ?_; exact .refl _; refine .iteR ?_ ?_; refine .ite ?_ ?_
    refine .onMisc ?_; exact .refl _; refine .trans ?_ (fire_keeps ..); exact .refl _; exact .refl _; refine .onMisc ?_
    exact .refl _
theorem mramUe_keeps (s : State) (word : Nat) : Keeps s (mramUe s word) := by
  unfold mramUe
  with_reducible
    dsimp only; refine .iteR ?_ ?_; refine .ite ?_ ?_; refine .onMisc ?_; exact .refl _; refine .iteR ?_ ?_; refine .ite ?_ ?_
    refine .onMisc ?_; exact .refl _; refine .trans ?_ (fire_keeps ..); exact .refl _; exact .refl _; refine .onMisc ?_
    exact .refl _
theorem sramCe_keeps (s : State) (word : Nat) : Keeps s (sramCe s word) := by
  unfold sramCe
  with_reducible (refine .onMisc ?_; exact .refl _)
theorem bufWordLost_keeps (s : State) (w : BufWord) : Keeps s (bufWordLost s w) := by
  unfold bufWordLost
  with_reducible
    split; split; refine .iteL ?_ ?_; refine .trans ?_ (failWrite_keeps ..); exact .refl _; exact .refl _; exact .refl _; split
    split; refine .trans ?_ (ioDone_keeps ..); refine .trans ?_ (abandonRead_keeps ..); exact .refl _; exact .refl _
    exact .refl _; refine .onPath ?_; exact .refl _; dsimp only; refine .trans ?_ (queueRelocation_keeps ..)
    refine .trans ?_ (modStripe_keeps ..); exact .refl _; split; exact .refl _; refine .iteR ?_ ?_; refine .ite ?_ ?_
    refine .trans ?_ (loseJob_keeps ..); exact .refl _; refine .trans ?_ (beginStep5_keeps ..)
    refine .trans ?_ (modJob_keeps ..); exact .refl _; exact .refl _
theorem memoryNote_keeps (s : State) (f : Firing) : Keeps s (memoryNote s f) := by
  unfold memoryNote
  with_reducible
    refine .ite ?_ ?_; refine .trans ?_ (mramCe_keeps ..); exact .refl _; refine .ite ?_ ?_; refine .trans ?_ (mramUe_keeps ..)
    exact .refl _; refine .ite ?_ ?_; refine .trans ?_ (sramCe_keeps ..); exact .refl _; refine .ite ?_ ?_; dsimp only; split
    refine .iteL ?_ ?_; refine .trans ?_ (bufWordLost_keeps ..); exact .refl _; refine .onMisc ?_; exact .refl _
    refine .onMisc ?_; exact .refl _; refine .ite ?_ ?_; split; refine .trans ?_ (bufWordLost_keeps ..); exact .refl _
    exact .refl _; exact .refl _
theorem moverFails_keeps (s : State) (f : Firing) : Keeps s (moverFails s f) := by
  unfold moverFails
  with_reducible
    dsimp only; refine .iteL ?_ ?_; refine .trans ?_ (modMover_keeps ..); refine .trans ?_ (drawFree_keeps1 ..); exact .refl _
    exact .refl _
theorem sourcesFire_keeps (s : State) (fs : List Firing) : Keeps s (sourcesFire s fs) := by
  unfold sourcesFire
  with_reducible
    dsimp only; refine .foldl (fun _ _ => ?_) ?_; refine .trans ?_ (memoryNote_keeps ..); exact .refl _
    refine .trans ?_ (fireAll_keeps ..); refine .foldl (fun _ _ => ?_) ?_; refine .trans ?_ (moverFails_keeps ..); exact .refl _
    refine .iteL ?_ ?_; refine .onFh (fun _ => Nat.le_refl _) ?_; exact .refl _; exact .refl _
theorem busyTimedOut_keeps (s : State) (die : Nat) : Keeps s (busyTimedOut s die) := by
  unfold busyTimedOut
  with_reducible (dsimp only; refine .iteL ?_ ?_; refine .trans ?_ (fire_keeps ..); exact .refl _; exact .refl _)
theorem decTimedOut_keeps (s : State) (g : Nat) : Keeps s (decTimedOut s g) := by
  unfold decTimedOut
  with_reducible (refine .iteL ?_ ?_; refine .trans ?_ (fire_keeps ..); exact .refl _; exact .refl _)
theorem completionTimedOut_keeps (s : State) (p : PortId) (sq cid : Nat) : Keeps s (completionTimedOut s p sq cid) := by
  unfold completionTimedOut
  with_reducible
    split; exact .refl _; refine .ite ?_ ?_; exact .refl _; dsimp only; refine .trans ?_ (fire_keeps ..); refine .ite ?_ ?_
    refine .trans ?_ (failWrite_keeps ..); exact .refl _; refine .trans ?_ (ioDone_keeps ..)
    refine .trans ?_ (abandonRead_keeps ..); exact .refl _
theorem hubFault_keeps (s : State) (c : SelfCause) : Keeps s (hubFault s c) := by
  unfold hubFault
  with_reducible
    refine .ite ?_ ?_; exact .refl _; dsimp only; refine .trans ?_ (enterSafe_keeps ..); refine .iteR ?_ ?_
    refine .trans ?_ (recordFiring_keeps ..); exact .refl _; refine .onFh (fun _ => Nat.le_refl _) ?_; exact .refl _
theorem returnCut_keeps (s : State) (l : List (Nat × Nat × SbUse × Bool)) : Keeps s (returnCut s l) := by
  unfold returnCut
  with_reducible
    refine .foldl (fun _ _ => ?_) ?_; split; dsimp only; refine .trans ?_ (modBlock_keeps ..); refine .trans ?_ (jot_keeps ..)
    refine .ite ?_ ?_; exact .refl _; refine .trans ?_ (replaceBlock_keeps ..); exact .refl _; exact .refl _
theorem csResetEnd_keeps (s : State) (ch : Nat) (notReady untrained : List Nat) : Keeps s (csResetEnd s ch notReady untrained)
    := by
  unfold csResetEnd
  with_reducible
    dsimp only; split; exact .refl _; refine .iteR ?_ ?_; refine .ite ?_ ?_; refine .trans ?_ (returnCut_keeps ..)
    refine .trans ?_ (failChannel_keeps ..); refine .trans ?_ (modChan_keeps ..); refine .foldl (fun _ _ => ?_) ?_
    refine .trans ?_ (modDie_keeps ..); exact .refl _; exact .refl _; refine .iteR ?_ ?_
    refine .trans ?_ (refreshRefuge_keeps ..); refine .trans ?_ (packCopies_keeps ..); refine .trans ?_ (memberLoss_keeps ..)
    exact .refl _; refine .trans ?_ (returnCut_keeps ..); refine .trans ?_ (modChan_keeps ..); refine .foldl (fun _ _ => ?_) ?_
    refine .trans ?_ (modDie_keeps ..); exact .refl _; exact .refl _; exact .refl _
theorem csBoundOver_keeps (s : State) (ch : Nat) : Keeps s (csBoundOver s ch) := by
  unfold csBoundOver
  with_reducible
    dsimp only; split; exact .refl _; refine .iteL ?_ ?_; refine .trans ?_ (returnCut_keeps ..)
    refine .trans ?_ (failChannel_keeps ..); refine .trans ?_ (modChan_keeps ..); exact .refl _; exact .refl _
theorem lcResetEnd_keeps (s : State) (g : Nat) : Keeps s (lcResetEnd s g) := by
  unfold lcResetEnd
  with_reducible
    refine .ite ?_ ?_; dsimp only; refine .trans ?_ (feedDecoders_keeps ..); refine .trans ?_ (modCluster_keeps ..)
    exact .refl _; exact .refl _
theorem unitBack_keeps (s : State) (n : Nat) : Keeps s (unitBack s n) := by
  unfold unitBack
  with_reducible
    refine .iteR ?_ ?_; refine .ite ?_ ?_; refine .trans ?_ (modDc_keeps ..); exact .refl _; refine .ite ?_ ?_
    refine .iteL ?_ ?_; refine .trans ?_ (enableMover_keeps ..); exact .refl _; exact .refl _; refine .iteL ?_ ?_
    refine .trans ?_ (lcResetEnd_keeps ..); exact .refl _; exact .refl _; exact .refl _
theorem unitResetOver_keeps (s : State) : Keeps s (unitResetOver s) := by
  unfold unitResetOver
  with_reducible
    split; exact .refl _; dsimp only; refine .iteL ?_ ?_; refine .trans ?_ (resetPortNow_keeps ..); exact .refl _
    refine .iteL ?_ ?_; refine .trans ?_ (resetPortNow_keeps ..); exact .refl _; refine .foldl (fun _ _ => ?_) ?_
    refine .trans ?_ (unitBack_keeps ..); exact .refl _; refine .onFh (fun _ => Nat.le_refl _) ?_; exact .refl _
theorem closeWindows_keeps (s : State) (source : Nat) : Keeps s (closeWindows s source) := by
  unfold closeWindows
  with_reducible (refine .onFh (fun _ => Nat.le_refl _) ?_; exact .refl _)
theorem logCounted_keeps (s : State) (source : Nat) : Keeps s (logCounted s source) := by
  unfold logCounted
  with_reducible (dsimp only; refine .iteL ?_ ?_; refine .trans ?_ (addHistory_keeps ..); exact .refl _; exact .refl _)
theorem aliveToggle_keeps (s : State) (pin : Bool) : Keeps s (aliveToggle s pin) := by
  unfold aliveToggle
  with_reducible
    refine .ite ?_ ?_; refine .onFh (fun _ => Nat.le_refl _) ?_; exact .refl _; dsimp only; refine .iteL ?_ ?_
    refine .trans ?_ (fire_keeps ..); exact .refl _; refine .onFh (fun _ => Nat.le_refl _) ?_; exact .refl _
theorem touchWindow_keeps (s : State) (p : PortId) : Keeps s (touchWindow s p) := by
  unfold touchWindow
  with_reducible (refine .onPort ?_; exact .refl _)
theorem clearFirst_keeps (s : State) (p : PortId) : Keeps s (clearFirst s p) := by
  unfold clearFirst
  with_reducible
    dsimp only; refine .iteL ?_ ?_; refine .onFh (fun _ => Nat.le_refl _) ?_; exact .refl _
    refine .trans ?_ (touchWindow_keeps ..); exact .refl _
theorem writeInject_keeps (s : State) (p : PortId) (v : BitVec 32) : Keeps s (writeInject s p v) := by
  unfold writeInject
  with_reducible
    dsimp only; refine .iteR ?_ ?_; refine .onFh (fun _ => Nat.le_refl _) ?_; exact .refl _
    refine .trans ?_ (touchWindow_keeps ..); exact .refl _
theorem writeLegArm_keeps (s : State) (p : PortId) (v : BitVec 32) : Keeps s (writeLegArm s p v) := by
  unfold writeLegArm
  with_reducible
    dsimp only; refine .iteL ?_ ?_; refine .onFh (fun _ => Nat.le_refl _) ?_; exact .refl _
    refine .trans ?_ (touchWindow_keeps ..); exact .refl _
theorem legArmOver_keeps (s : State) : Keeps s (legArmOver s) := by
  unfold legArmOver
  with_reducible
    split; refine .iteL ?_ ?_; refine .onFh (fun _ => Nat.le_refl _) ?_; exact .refl _; exact .refl _; exact .refl _
theorem forceSources_keeps (s : State) (p : PortId) (k : Nat) (v : BitVec 32) : Keeps s (forceSources s p k v) := by
  unfold forceSources
  with_reducible
    dsimp only; refine .iteL ?_ ?_; refine .trans ?_ (fireAll_keeps ..); exact .refl _; refine .trans ?_ (touchWindow_keeps ..)
    exact .refl _
theorem haltMover_keeps (s : State) (n code : Nat) : Keeps s (haltMover s n code) := by
  unfold haltMover
  with_reducible (dsimp only; refine .trans ?_ (fire_keeps ..); refine .trans ?_ (modMover_keeps ..); exact .refl _)
theorem descriptorArrives_keeps (s : State) (n : Nat) (f : DescFetch) : Keeps s (descriptorArrives s n f) := by
  unfold descriptorArrives
  with_reducible
    refine .ite ?_ ?_; exact .refl _; split; refine .trans ?_ (haltMover_keeps ..); exact .refl _; dsimp only; refine .ite ?_ ?_
    refine .trans ?_ (haltMover_keeps ..); refine .trans ?_ (modMover_keeps ..); exact .refl _
    refine .trans ?_ (tryPace_keeps ..); refine .trans ?_ (modMover_keeps ..); exact .refl _
theorem peripheralAsserts_keeps (s : State) (ch : Nat) : Keeps s (peripheralAsserts s ch) := by
  unfold peripheralAsserts
  with_reducible
    dsimp only; split; refine .iteL ?_ ?_; refine .trans ?_ (modMover_keeps ..); exact .refl _; exact .refl _; exact .refl _
theorem grantBurst_keeps (s : State) (block : Nat) (ready : List MoverReady) : Keeps s (grantBurst s block ready) := by
  unfold grantBurst
  with_reducible
    dsimp only; split; exact .refl _; refine .trans ?_ (modMoverBlock_keeps ..); refine .trans ?_ (moveBurst_keeps ..)
    exact .refl _
theorem responseArrives_keeps (s : State) (n : Nat) : Keeps s (responseArrives s n) := by
  unfold responseArrives
  with_reducible (refine .iteR ?_ ?_; refine .trans ?_ (modMover_keeps ..); exact .refl _; exact .refl _)
theorem closeMoverWindow_keeps (s : State) (n : Nat) : Keeps s (closeMoverWindow s n) := by
  unfold closeMoverWindow
  with_reducible (refine .onFh (fun _ => Nat.le_refl _) ?_; exact .refl _)
theorem descriptorDone_keeps (s : State) (n : Nat) : Keeps s (descriptorDone s n) := by
  unfold descriptorDone
  with_reducible
    dsimp only; split; exact .refl _; refine .iteR ?_ ?_; refine .ite ?_ ?_; refine .trans ?_ (modMover_keeps ..)
    refine .iteL ?_ ?_; refine .trans ?_ (addCredits_keeps ..); exact .refl _; refine .trans ?_ (modMover_keeps ..)
    refine .trans ?_ (closeMoverWindow_keeps ..); exact .refl _; refine .ite ?_ ?_; refine .trans ?_ (haltMover_keeps ..)
    refine .iteL ?_ ?_; refine .trans ?_ (addCredits_keeps ..); exact .refl _; refine .trans ?_ (modMover_keeps ..)
    refine .trans ?_ (closeMoverWindow_keeps ..); exact .refl _; refine .trans ?_ (modMover_keeps ..); refine .iteL ?_ ?_
    refine .trans ?_ (addCredits_keeps ..); exact .refl _; refine .trans ?_ (modMover_keeps ..)
    refine .trans ?_ (closeMoverWindow_keeps ..); exact .refl _; exact .refl _
theorem moverTimedOut_keeps (s : State) (n : Nat) : Keeps s (moverTimedOut s n) := by
  unfold moverTimedOut
  with_reducible (dsimp only; refine .iteL ?_ ?_; refine .trans ?_ (haltMover_keeps ..); exact .refl _; exact .refl _)
theorem recordError_keeps (s : State) (ch burst : Nat) (unc : Bool) (symbols : Nat) : Keeps s
    (recordError s ch burst unc symbols) := by
  unfold recordError
  with_reducible (refine .trans ?_ (modDc_keeps ..); exact .refl _)
theorem remakeCopy_keeps (s : State) (i : Nat) : Keeps s (remakeCopy s i) := by
  unfold remakeCopy
  with_reducible (split; exact .refl _; refine .onPath ?_; exact .refl _)
theorem uncorrectableAt_keeps (s : State) (ch burst : Nat) : Keeps s (uncorrectableAt s ch burst) := by
  unfold uncorrectableAt
  with_reducible
    dsimp only; split; refine .trans ?_ (fire_keeps ..); exact .refl _; refine .trans ?_ (fire_keeps ..); exact .refl _
    refine .ite ?_ ?_; refine .trans ?_ (fire_keeps ..); exact .refl _; refine .trans ?_ (fire_keeps ..)
    refine .trans ?_ (modFlacon_keeps ..); exact .refl _; split; refine .onMedia ?_; refine .trans ?_ (fire_keeps ..)
    exact .refl _; refine .trans ?_ (remakeCopy_keeps ..); refine .trans ?_ (fire_keeps ..); exact .refl _
    refine .trans ?_ (fire_keeps ..); exact .refl _
theorem installRemap_keeps (s : State) (ch burst : Nat) : Keeps s (installRemap s ch burst) := by
  unfold installRemap
  with_reducible
    dsimp only; refine .iteR ?_ ?_; refine .ite ?_ ?_; refine .trans ?_ (modDc_keeps ..); exact .refl _
    refine .trans ?_ (fire_keeps ..); exact .refl _; exact .refl _
theorem noteSeen_keeps (s : State) (ch burst : Nat) (seen : EccSeen) : Keeps s (noteSeen s ch burst seen) := by
  unfold noteSeen
  with_reducible
    dsimp only; split; exact .refl _; refine .trans ?_ (recordError_keeps ..); refine .trans ?_ (modDc_keeps ..); exact .refl _
    refine .iteL ?_ ?_; refine .trans ?_ (installRemap_keeps ..); exact .refl _; refine .trans ?_ (uncorrectableAt_keeps ..)
    refine .trans ?_ (recordError_keeps ..); refine .trans ?_ (modDc_keeps ..); exact .refl _
theorem storeBurst_keeps (s : State) (ch burst : Nat) (data : BitVec 512) (poison : Bool) : Keeps s
    (storeBurst s ch burst data poison) := by
  unfold storeBurst
  with_reducible
    dsimp only; refine .iteL ?_ ?_; refine .onFh (fun _ => Nat.le_refl _) ?_; exact .refl _; refine .trans ?_ (modDc_keeps ..)
    exact .refl _
theorem dramWrite_keeps (s : State) (ch burst : Nat) (bs : List (Nat × BitVec 8)) (seen : EccSeen) : Keeps s
    (dramWrite s ch burst bs seen) := by
  unfold dramWrite
  with_reducible
    dsimp only; refine .ite ?_ ?_; refine .trans ?_ (storeBurst_keeps ..); refine .trans ?_ (modDc_keeps ..); exact .refl _
    refine .trans ?_ (storeBurst_keeps ..); refine .trans ?_ (noteSeen_keeps ..); exact .refl _
theorem dramRead_keeps (s : State) (ch burst : Nat) (seen : EccSeen) : Keeps s (dramRead s ch burst seen) := by
  unfold dramRead
  with_reducible (refine .trans ?_ (noteSeen_keeps ..); refine .trans ?_ (modDc_keeps ..); exact .refl _)
theorem activateRow_keeps (s : State) (ch burst : Nat) : Keeps s (activateRow s ch burst) := by
  unfold activateRow
  with_reducible (dsimp only; refine .trans ?_ (modDc_keeps ..); exact .refl _)
theorem issueRequest_keeps (s : State) (ch : Nat) (seen : EccSeen) (activates : Bool) : Keeps s
    (issueRequest s ch seen activates) := by
  unfold issueRequest
  with_reducible
    split; exact .refl _; dsimp only; split; refine .trans ?_ (dramRead_keeps ..); refine .iteL ?_ ?_
    refine .trans ?_ (activateRow_keeps ..); exact .refl _; refine .trans ?_ (modDc_keeps ..); exact .refl _
    refine .trans ?_ (dramWrite_keeps ..); refine .iteL ?_ ?_; refine .trans ?_ (activateRow_keeps ..); exact .refl _
    refine .trans ?_ (modDc_keeps ..); exact .refl _
theorem dramRequestNext_keeps (s : State) (ch : Nat) (arrivals : List DramReq) (seen : EccSeen) (activates : Bool) : Keeps s
    (dramRequestNext s ch arrivals seen activates) := by
  unfold dramRequestNext
  with_reducible
    dsimp only; refine .iteL ?_ ?_; refine .trans ?_ (issueRequest_keeps ..); exact .refl _; refine .trans ?_ (modDc_keeps ..)
    exact .refl _
theorem refreshDram_keeps (s : State) (ch : Nat) (hot : Bool) : Keeps s (refreshDram s ch hot) := by
  unfold refreshDram
  with_reducible (refine .iteL ?_ ?_; refine .trans ?_ (modDc_keeps ..); exact .refl _; exact .refl _)
theorem newRefreshWindow_keeps (s : State) (ch : Nat) : Keeps s (newRefreshWindow s ch) := by
  unfold newRefreshWindow
  with_reducible (refine .iteL ?_ ?_; refine .trans ?_ (modDc_keeps ..); exact .refl _; exact .refl _)
theorem patrolScrub_keeps (s : State) (ch : Nat) (seen : EccSeen) : Keeps s (patrolScrub s ch seen) := by
  unfold patrolScrub
  with_reducible
    refine .ite ?_ ?_; exact .refl _; dsimp only; refine .trans ?_ (modDc_keeps ..); split; refine .iteL ?_ ?_
    refine .trans ?_ (installRemap_keeps ..); exact .refl _; refine .trans ?_ (modDc_keeps ..)
    refine .trans ?_ (noteSeen_keeps ..); exact .refl _; refine .trans ?_ (modDc_keeps ..); refine .trans ?_ (noteSeen_keeps ..)
    exact .refl _
theorem ceRateFires_keeps (s : State) (ch : Nat) : Keeps s (ceRateFires s ch) := by
  unfold ceRateFires
  with_reducible
    refine .iteL ?_ ?_; refine .trans ?_ (fire_keeps ..); refine .trans ?_ (modDc_keeps ..); exact .refl _; exact .refl _
theorem alertAsserts_keeps (s : State) (ch : Nat) : Keeps s (alertAsserts s ch) := by
  unfold alertAsserts
  with_reducible
    dsimp only; refine .iteR ?_ ?_; refine .iteL ?_ ?_; refine .trans ?_ (fire_keeps ..); exact .refl _
    refine .trans ?_ (fire_keeps ..); refine .trans ?_ (modDc_keeps ..); exact .refl _; exact .refl _
theorem alertDeasserts_keeps (s : State) (ch : Nat) : Keeps s (alertDeasserts s ch) := by
  unfold alertDeasserts
  with_reducible (refine .trans ?_ (modDc_keeps ..); exact .refl _)
theorem changeFrequency_keeps (s : State) (failing : List Nat) : Keeps s (changeFrequency s failing) := by
  unfold changeFrequency
  with_reducible
    dsimp only; refine .iteR ?_ ?_; refine .trans ?_ (fireAll_keeps ..); refine .foldl (fun _ _ => ?_) ?_
    refine .trans ?_ (modDc_keeps ..); exact .refl _; exact .refl _; exact .refl _
theorem trainStep_keeps (s : State) (ch : Nat) (passes : Bool) : Keeps s (trainStep s ch passes) := by
  unfold trainStep
  with_reducible (refine .iteR ?_ ?_; refine .trans ?_ (fire_keeps ..); exact .refl _; exact .refl _)
theorem startCopy_keeps (s : State) (kind : CopyKind) (cls : Nat) (u : SrcUnit) : Keeps s (startCopy s kind cls u) := by
  unfold startCopy
  with_reducible
    split; exact .refl _; dsimp only; refine .iteR ?_ ?_; refine .foldl (fun _ _ => ?_) ?_; refine .trans ?_ (readAt_keeps1 ..)
    exact .refl _; refine .onPath ?_; exact .refl _; exact .refl _
theorem copyNextUnit_keeps (s : State) (sb : Nat) : Keeps s (copyNextUnit s sb) := by
  unfold copyNextUnit
  with_reducible
    split; exact .refl _; split; exact .refl _; dsimp only; split; exact .refl _; refine .iteL ?_ ?_
    refine .trans ?_ (modSb_keeps ..); exact .refl _; refine .trans ?_ (startCopy_keeps ..); exact .refl _
theorem closeFullJournal_keeps (s : State) : Keeps s (closeFullJournal s) := by
  unfold closeFullJournal
  with_reducible
    refine .foldl (fun _ _ => ?_) ?_; refine .ite ?_ ?_; refine .trans ?_ (modSb_keeps ..); refine .trans ?_ (jot_keeps ..)
    exact .refl _; exact .refl _; exact .refl _
theorem beforeForm_keeps (s : State) (use : SbUse) : Keeps s (beforeForm s use) := by
  unfold beforeForm
  with_reducible (refine .iteL ?_ ?_; refine .trans ?_ (closeFullJournal_keeps ..); exact .refl _; exact .refl _)
theorem formFor_keeps (s : State) (use : SbUse) (handle : Nat) : Keeps s (formFor s use handle) := by
  unfold formFor
  with_reducible
    dsimp only; refine .iteL ?_ ?_; refine .trans ?_ (formSb_keeps ..); refine .trans ?_ (formBefore_keeps ..); exact .refl _
    refine .trans ?_ (beforeForm_keeps ..); exact .refl _
theorem releaseIfDue_keeps (s : State) (sb : Nat) : Keeps s (releaseIfDue s sb) := by
  unfold releaseIfDue
  with_reducible
    split; exact .refl _; refine .ite ?_ ?_; exact .refl _; dsimp only; refine .trans ?_ (checkUrgent_keeps ..)
    refine .trans ?_ (checkPreserve_keeps ..); refine .iteL ?_ ?_; refine .trans ?_ (putAnchor_keeps ..)
    refine .onJournal (fun _ => Nat.le_refl _) ?_; exact .refl _; refine .trans ?_ (releaseSb_keeps ..); exact .refl _
theorem unitTooOld_keeps (s : State) (sb : Nat) : Keeps s (unitTooOld s sb) := by
  unfold unitTooOld
  with_reducible
    split; exact .refl _; dsimp only; refine .iteL ?_ ?_; refine .trans ?_ (fdpEvent_keeps ..)
    refine .trans ?_ (fdpEvent_keeps ..); refine .trans ?_ (closeUnit_keeps ..); exact .refl _; exact .refl _
theorem enterIdle_keeps (s : State) : Keeps s (enterIdle s) := by
  unfold enterIdle
  with_reducible (refine .iteL ?_ ?_; refine .onUpkeep (fun _ => Nat.le_refl _) ?_; exact .refl _; exact .refl _)
theorem startCollection_keeps (s : State) : Keeps s (startCollection s) := by
  unfold startCollection
  with_reducible
    dsimp only; refine .ite ?_ ?_; split; refine .trans ?_ (modSb_keeps ..); refine .trans ?_ (checkUrgent_keeps ..)
    exact .refl _; refine .trans ?_ (checkUrgent_keeps ..); exact .refl _; refine .trans ?_ (checkUrgent_keeps ..)
    exact .refl _
theorem startWearMove_keeps (s : State) : Keeps s (startWearMove s) := by
  unfold startWearMove
  with_reducible
    dsimp only; refine .ite ?_ ?_; split; refine .trans ?_ (modSb_keeps ..); refine .onUpkeep (fun _ => Nat.le_refl _) ?_
    refine .onUpkeep (fun _ => Nat.le_refl _) ?_; exact .refl _; refine .onUpkeep (fun _ => Nat.le_refl _) ?_; exact .refl _
    refine .onUpkeep (fun _ => Nat.le_refl _) ?_; exact .refl _
theorem startFold_keeps (s : State) (n : Namespace) (iu : Nat) : Keeps s (startFold s n iu) := by
  unfold startFold
  with_reducible
    dsimp only; refine .trans ?_ (packCopies_keeps ..); refine .foldl (fun _ _ => ?_) ?_; split
    refine .trans ?_ (readAt_keeps1 ..); exact .refl _; exact .refl _; refine .onPath ?_; exact .refl _
theorem foldIu_keeps (s : State) (nsid iu : Nat) : Keeps s (foldIu s nsid iu) := by
  unfold foldIu
  with_reducible
    split; exact .refl _; dsimp only; refine .iteR ?_ ?_; refine .trans ?_ (startFold_keeps ..); exact .refl _; exact .refl _
theorem foldSlc_keeps (s : State) (sb : Nat) : Keeps s (foldSlc s sb) := by
  unfold foldSlc
  with_reducible (split; exact .refl _; refine .iteL ?_ ?_; refine .trans ?_ (modSb_keeps ..); exact .refl _; exact .refl _)
theorem rebuildStripe_keeps (s : State) : Keeps s (rebuildStripe s) := by
  unfold rebuildStripe
  with_reducible
    dsimp only; refine .ite ?_ ?_; refine .trans ?_ (endRebuild_keeps ..); exact .refl _; split
    refine .onUpkeep (fun _ => Nat.le_refl _) ?_; exact .refl _; refine .foldl (fun _ _ => ?_) ?_
    refine .trans ?_ (startCopy_keeps ..); exact .refl _; refine .onUpkeep (fun _ => Nat.le_refl _) ?_; exact .refl _
theorem setScrubRate_keeps (s : State) : Keeps s (setScrubRate s) := by
  unfold setScrubRate
  with_reducible (dsimp only; refine .onUpkeep (fun _ => Nat.le_refl _) ?_; exact .refl _)
theorem noteScrub_keeps (s : State) (next : Nat) : Keeps s (noteScrub s next) := by
  unfold noteScrub
  with_reducible
    dsimp only; refine .trans ?_ (setScrubRate_keeps ..); refine .onUpkeep (fun _ => Nat.le_refl _) ?_
    refine .trans ?_ (jot_keeps ..); exact .refl _
theorem scrubIssue_keeps (s : State) (b : SuperBlock) (k j : Nat) (sys : Option (Bool × Nat)) : Keeps s
    (scrubIssue s b k j sys) := by
  unfold scrubIssue
  with_reducible
    dsimp only; refine .foldl (fun _ _ => ?_) ?_; refine .trans ?_ (issueRead_keeps1 ..); exact .refl _
    refine .onUpkeep (fun _ => Nat.le_refl _) ?_; exact .refl _
theorem scrubTake_keeps (s : State) (b : SuperBlock) (k j : Nat) (sys : Option (Bool × Nat)) : Keeps s (scrubTake s b k j sys)
    := by
  unfold scrubTake
  with_reducible
    dsimp only; refine .onUpkeep (fun _ => Nat.le_refl _) ?_; refine .iteR ?_ ?_; refine .trans ?_ (scrubIssue_keeps ..)
    exact .refl _; exact .refl _
theorem endScrubPass_keeps (s : State) : Keeps s (endScrubPass s) := by
  unfold endScrubPass
  with_reducible
    dsimp only; refine .trans ?_ (noteScrub_keeps ..); refine .onMedia ?_; refine .onUpkeep (fun _ => Nat.le_refl _) ?_
    exact .refl _
theorem scrubSb_keeps (s : State) (b : SuperBlock) : Keeps s (scrubSb s b) := by
  unfold scrubSb
  with_reducible
    dsimp only; refine .iteR ?_ ?_; refine .iteL ?_ ?_; refine .trans ?_ (noteScrub_keeps ..); exact .refl _
    refine .trans ?_ (scrubTake_keeps ..); exact .refl _; refine .iteL ?_ ?_; refine .trans ?_ (setScrubRate_keeps ..)
    refine .onUpkeep (fun _ => Nat.le_refl _) ?_; exact .refl _; exact .refl _
theorem nextSystem_keeps (s : State) : Keeps s (nextSystem s) := by
  unfold nextSystem
  with_reducible (refine .onUpkeep (fun _ => Nat.le_refl _) ?_; exact .refl _)
theorem scrubSys_keeps (s : State) (x : Bool × Nat) : Keeps s (scrubSys s x) := by
  unfold scrubSys
  with_reducible
    split; refine .trans ?_ (nextSystem_keeps ..); exact .refl _; dsimp only; refine .iteR ?_ ?_; refine .iteL ?_ ?_
    refine .trans ?_ (nextSystem_keeps ..); exact .refl _; refine .trans ?_ (scrubTake_keeps ..); exact .refl _; exact .refl _
theorem scrubNext_keeps (s : State) : Keeps s (scrubNext s) := by
  unfold scrubNext
  with_reducible
    refine .ite ?_ ?_; exact .refl _; split; refine .trans ?_ (scrubSb_keeps ..); exact .refl _; split
    refine .trans ?_ (endScrubPass_keeps ..); exact .refl _; refine .trans ?_ (scrubSys_keeps ..); exact .refl _
theorem scrubNamed_keeps (s : State) (page : Nat) : Keeps s (scrubNamed s page) := by
  unfold scrubNamed
  with_reducible (refine .iteL ?_ ?_; refine .trans ?_ (scrubNext_keeps ..); exact .refl _; exact .refl _)
theorem refreshBlock_keeps (s : State) (sb : Nat) : Keeps s (refreshBlock s sb) := by
  unfold refreshBlock
  with_reducible
    split; exact .refl _; refine .iteR ?_ ?_; refine .onUpkeep (fun _ => Nat.le_refl _) ?_; exact .refl _; exact .refl _
theorem scrubLate_keeps (s : State) : Keeps s (scrubLate s) := by
  unfold scrubLate
  with_reducible (refine .iteR ?_ ?_; refine .onUpkeep (fun _ => Nat.le_refl _) ?_; exact .refl _; exact .refl _)
theorem cursorIsReady_keeps (s : State) : Keeps s (cursorIsReady s) := by
  unfold cursorIsReady
  with_reducible
    dsimp only; refine .iteR ?_ ?_; refine .trans ?_ (notice_keeps ..); refine .onUpkeep (fun _ => Nat.le_refl _) ?_
    exact .refl _; refine .trans ?_ (advanceHorizon_keeps ..); refine .trans ?_ (drydownSeal_keeps ..); exact .refl _
theorem enterReset_keeps (s : State) (byReset : Bool) (t : Nat) : Keeps s (enterReset s byReset t) :=
  ⟨rfl, .refl _, id, fun _ => rfl, Nat.le_refl _, Nat.le_refl _, Nat.le_refl _, Nat.le_refl _, Nat.le_refl _⟩
theorem fatalBoot_keeps (s : State) (code hi lo : Nat) : Keeps s (fatalBoot s code hi lo) := by
  unfold fatalBoot
  with_reducible
    dsimp only; refine .raw ?_; refine .onBoot ?_; refine .onSec (fun _ => rfl) (fun _ => rfl) ?_
    refine .onJournal (fun _ => Nat.le_refl _) ?_; refine .onFh (fun _ => Nat.le_refl _) ?_; refine .onBoth ?_; exact .refl _
theorem unlessSafe_keeps (f : State → State) (s : State) (hf : ∀ s, Keeps s (f s)) : Keeps s (unlessSafe f s) := by
  unfold unlessSafe
  with_reducible (refine .ite ?_ ?_; exact .refl _; refine .trans ?_ (hf _); exact .refl _)
theorem deriveKeys_keeps (s : State) : Keeps s (deriveKeys s) := by
  unfold deriveKeys
  with_reducible
    refine .ite ?_ ?_; dsimp only; refine .onSec (fun _ => rfl) (fun _ => rfl) ?_; exact .refl _; exact .refl _
theorem otpStep_keeps (env : StartEnv) (s : State) : Keeps s (otpStep env s) := by
  unfold otpStep
  with_reducible
    split; dsimp only; refine .iteR ?_ ?_; refine .ite ?_ ?_; refine .trans ?_ (fatalBoot_keeps ..); exact .refl _
    refine .iteL ?_ ?_; refine .trans ?_ (fatalBoot_keeps ..); exact .refl _; exact .refl _; refine .iteL ?_ ?_
    refine .trans ?_ (fire_keeps ..); refine .onSec (fun _ => rfl) (fun _ => rfl) ?_; exact .refl _
    refine .trans ?_ (deriveKeys_keeps ..); refine .onBoot ?_; refine .onFh (fun _ => Nat.le_refl _) ?_
    refine .onHk (fun _ => Nat.le_refl _) ?_; refine .onSec (fun _ => rfl) (fun _ => rfl) ?_
    refine .trans ?_ (drawFree_keeps (by assumption)); exact .refl _
theorem selfTestFails_keeps (s : State) (checker : Nat) : Keeps s (selfTestFails s checker) := by
  unfold selfTestFails
  with_reducible
    dsimp only; refine .trans ?_ (fatalBoot_keeps ..); refine .onBoot ?_; refine .trans ?_ (fire_keeps ..); exact .refl _
theorem selfTestStep_keeps (env : StartEnv) (s : State) : Keeps s (selfTestStep env s) := by
  unfold selfTestStep
  with_reducible
    dsimp only; split; refine .trans ?_ (selfTestFails_keeps ..); refine .onBoot ?_; exact .refl _; refine .ite ?_ ?_
    refine .trans ?_ (selfTestFails_keeps ..); refine .onBoot ?_; exact .refl _; refine .iteL ?_ ?_
    refine .trans ?_ (fatalBoot_keeps ..); exact .refl _; refine .onMisc ?_; refine .onBoot ?_; exact .refl _
theorem thermometer_grows (m : List Host.Cell) (v base : Nat) : OtpGrows m (thermometer m v base) := by
  unfold thermometer
  exact OtpGrows.foldl fun n i => OtpGrows.program n _ _
theorem floorRow_grows (m : List Host.Cell) (v : Nat) : OtpGrows m (floorRow m v) :=
  OtpGrows.trans (thermometer_grows m v 168) (OtpGrows.trans (thermometer_grows _ v 200) (thermometer_grows _ v 232))
theorem floorRow_keeps (s : State) (v : Nat) : Keeps s (s.onSec fun x => { x with otp := floorRow x.otp v }) := by
  with_reducible refine Keeps.onSecOtp (fun x => ?_) (fun _ => rfl) (Keeps.refl s)
  with_reducible exact floorRow_grows _ v
theorem raiseFloor_keeps (s : State) (v : Nat) : Keeps s (raiseFloor s v) := by
  have k := floorRow_keeps s v
  unfold raiseFloor
  dsimp only
  generalize (s.onSec fun x => { x with otp := floorRow x.otp v }) = t at k
  with_reducible exact Keeps.onSec (fun _ => rfl) (fun _ => rfl) k
theorem floorRises_keeps (s : State) (ha hb : Option Nat) : Keeps s (floorRises s ha hb) := by
  unfold floorRises
  with_reducible (dsimp only; refine .iteL ?_ ?_; refine .trans ?_ (raiseFloor_keeps ..); exact .refl _; exact .refl _)
theorem enableUnits_keeps (s : State) : Keeps s (enableUnits s) := by
  unfold enableUnits
  with_reducible
    dsimp only; refine .foldl (fun _ _ => ?_) ?_; refine .trans ?_ (modDc_keeps ..); exact .refl _
    refine .foldl (fun _ _ => ?_) ?_; refine .trans ?_ (modCluster_keeps ..); exact .refl _; refine .foldl (fun _ _ => ?_) ?_
    refine .trans ?_ (enableMover_keeps ..); refine .trans ?_ (modChan_keeps ..); exact .refl _; exact .refl _
theorem useCopy_keeps (s : State) (c : Nat) : Keeps s (useCopy s c) := by
  unfold useCopy
  with_reducible
    dsimp only; refine .trans ?_ (enableUnits_keeps ..); refine .onSec (fun _ => rfl) (fun _ => rfl) ?_
    refine .onFh (fun _ => Nat.le_refl _) ?_; refine .onBoot ?_; refine .raw ?_; exact .refl _
theorem imageStep_keeps (env : StartEnv) (s : State) : Keeps s (imageStep env s) := by
  unfold imageStep
  with_reducible
    dsimp only; refine .ite ?_ ?_; refine .trans ?_ (useCopy_keeps ..); refine .trans ?_ (floorRises_keeps ..)
    refine .onBoot ?_; exact .refl _; refine .ite ?_ ?_; refine .trans ?_ (useCopy_keeps ..); refine .onBoot ?_
    refine .trans ?_ (floorRises_keeps ..); refine .onBoot ?_; exact .refl _; refine .trans ?_ (fatalBoot_keeps ..)
    refine .trans ?_ (floorRises_keeps ..); refine .onBoot ?_; exact .refl _
theorem dramStep_keeps (env : StartEnv) (s : State) : Keeps s (dramStep env s) := by
  unfold dramStep
  with_reducible
    dsimp only; refine .ite ?_ ?_; refine .trans ?_ (fatalBoot_keeps ..); refine .onBoot ?_; exact .refl _; refine .ite ?_ ?_
    refine .trans ?_ (fatalBoot_keeps ..); refine .onBoot ?_; exact .refl _; refine .iteL ?_ ?_
    refine .trans ?_ (fire_keeps ..); exact .refl _; refine .foldl (fun _ _ => ?_) ?_; refine .trans ?_ (modDc_keeps ..)
    exact .refl _; refine .onBoot ?_; exact .refl _
theorem discoverChan_keeps (env : StartEnv) (bad : List Nat) (s : State) (ch : Nat) : Keeps s (discoverChan env bad s ch) := by
  unfold discoverChan
  with_reducible (dsimp only; refine .trans ?_ (modChan_keeps ..); exact .refl _)
theorem noUnlock_keeps (s : State) : Keeps s (noUnlock s) := by
  unfold noUnlock
  with_reducible (refine .onSecNone (fun _ => rfl) (fun _ => rfl) ?_; exact .refl _)
theorem anchorStep_keeps (env : StartEnv) (s : State) : Keeps s (anchorStep env s) := by
  unfold anchorStep
  dsimp only
  with_reducible refine Keeps.iteR ?_ ?_
  with_reducible refine Keeps.ite ?_ ?_
  with_reducible refine Keeps.trans ?_ (fatalBoot_keeps ..)
  with_reducible exact Keeps.refl _
  with_reducible refine Keeps.iteR ?_ ?_
  with_reducible refine Keeps.trans ?_ (fire_keeps ..)
  with_reducible exact Keeps.refl _
  with_reducible refine Keeps.onPath ?_
  refine Keeps.onOwnNone rfl ?_
  with_reducible refine Keeps.trans ?_ (noUnlock_keeps ..)
  with_reducible refine Keeps.raw ?_
  with_reducible exact Keeps.refl _
  with_reducible exact Keeps.refl _
theorem keyStep_keeps (env : StartEnv) (s : State) : Keeps s (keyStep env s) := by
  unfold keyStep
  with_reducible (refine .iteL ?_ ?_; refine .trans ?_ (fire_keeps ..); exact .refl _; exact .refl _)
theorem discover_keeps (env : StartEnv) (s : State) : Keeps s (discover env s) := by
  unfold discover
  with_reducible
    dsimp only; refine .ite ?_ ?_; refine .trans ?_ (fatalBoot_keeps ..); refine .onBoot ?_; refine .foldl (fun _ _ => ?_) ?_
    refine .trans ?_ (discoverChan_keeps ..); exact .refl _; refine .foldl (fun _ _ => ?_) ?_
    refine .trans ?_ (modDie_keeps ..); exact .refl _; exact .refl _; refine .trans ?_ (unlessSafe_keeps _ _ (fun _ => ?_))
    split; refine .trans ?_ (unlessSafe_keeps _ _ (fun _ => ?_)); refine .trans ?_ (unlessSafe_keeps _ _ (fun _ => ?_))
    refine .trans ?_ (anchorStep_keeps ..); refine .onBoot ?_; refine .foldl (fun _ _ => ?_) ?_
    refine .trans ?_ (discoverChan_keeps ..); exact .refl _; refine .foldl (fun _ _ => ?_) ?_
    refine .trans ?_ (modDie_keeps ..); exact .refl _; exact .refl _; refine .trans ?_ (keyStep_keeps ..); exact .refl _
    refine .ite ?_ ?_; refine .trans ?_ (fire_keeps ..); exact .refl _; exact .refl _
    refine .trans ?_ (unlessSafe_keeps _ _ (fun _ => ?_)); refine .trans ?_ (anchorStep_keeps ..); refine .onBoot ?_
    refine .foldl (fun _ _ => ?_) ?_; refine .trans ?_ (discoverChan_keeps ..); exact .refl _; refine .foldl (fun _ _ => ?_) ?_
    refine .trans ?_ (modDie_keeps ..); exact .refl _; exact .refl _; refine .trans ?_ (keyStep_keeps ..); exact .refl _
    refine .onBoot ?_; exact .refl _
theorem nandStep_keeps (env : StartEnv) (s : State) : Keeps s (nandStep env s) := by
  unfold nandStep
  with_reducible
    refine .ite ?_ ?_; dsimp only; refine .raw ?_; refine .onBoot ?_; refine .onJournal (fun _ => Nat.le_refl _) ?_
    exact .refl _; refine .trans ?_ (discover_keeps ..); exact .refl _
theorem startUp_keeps (s : State) (env : StartEnv) (cause : Nat) : Keeps s (startUp s env cause) := by
  unfold startUp
  with_reducible
    dsimp only; refine .trans ?_ (unlessSafe_keeps _ _ (fun _ => ?_)); refine .trans ?_ (unlessSafe_keeps _ _ (fun _ => ?_))
    refine .trans ?_ (unlessSafe_keeps _ _ (fun _ => ?_)); refine .trans ?_ (unlessSafe_keeps _ _ (fun _ => ?_))
    refine .trans ?_ (otpStep_keeps ..); refine .onBoot ?_; refine .raw ?_; exact .refl _
    refine .trans ?_ (selfTestStep_keeps ..); exact .refl _; refine .trans ?_ (imageStep_keeps ..); exact .refl _
    refine .trans ?_ (dramStep_keeps ..); exact .refl _; refine .trans ?_ (nandStep_keeps ..); exact .refl _
theorem formSet_keeps (s : State) (set : Nat) : Keeps s (formSet s set) := by
  unfold formSet
  with_reducible
    dsimp only; refine .onJournal (fun _ => putSet_serial ..) ?_; refine .trans ?_ (checkUrgent_keeps ..)
    refine .foldl1 (fun _ _ => ?_) ?_; split; dsimp only; refine .trans ?_ (takeBlock_keeps (by assumption)); exact .refl _
    dsimp only; refine .trans ?_ (takeBlock_keeps (by assumption)); exact .refl _; dsimp only; exact .refl _
theorem firstStart_keeps (s : State) : Keeps s (firstStart s) := by
  unfold firstStart
  dsimp only
  with_reducible refine Keeps.trans ?_ (formSet_keeps ..)
  with_reducible refine Keeps.trans ?_ (formSet_keeps ..)
  with_reducible refine Keeps.onUpkeep (fun _ => Nat.le_refl _) ?_
  with_reducible refine Keeps.onUpkeep (fun _ => Nat.le_refl _) ?_
  with_reducible refine Keeps.trans ?_ (putAnchor_keeps ..)
  refine Keeps.onOwnNone rfl ?_
  with_reducible refine Keeps.trans ?_ (noUnlock_keeps ..)
  with_reducible exact Keeps.refl _
theorem holdAdmin_keeps (s : State) (p : PortId) (i : Instr) : Keeps s (holdAdmin s p i) := by
  unfold holdAdmin
  with_reducible (refine .onPort ?_; exact .refl _)
theorem driveCmd_keeps (s : State) (a : AdminId) (isSet : Bool) (i : Instr) (go : State → State) (hgo : ∀ s, Keeps s (go s)) :
    Keeps s (driveCmd s a isSet i go) := by
  unfold driveCmd
  with_reducible
    refine .ite ?_ ?_; refine .trans ?_ (holdAdmin_keeps ..); exact .refl _; refine .ite ?_ ?_
    refine .trans ?_ (adminDone_keeps ..); exact .refl _; refine .ite ?_ ?_; refine .trans ?_ (adminDone_keeps ..)
    exact .refl _; refine .trans ?_ (hgo _); exact .refl _
theorem prpOnly_keeps (s : State) (a : AdminId) (go : State → State) (hgo : ∀ s, Keeps s (go s)) : Keeps s (prpOnly s a go) :=
    by
  unfold prpOnly
  with_reducible
    refine .ite ?_ ?_; refine .trans ?_ (hgo _); exact .refl _; refine .trans ?_ (adminDone_keeps ..); exact .refl _
theorem adminCmd_keeps (s : State) (a : AdminId) (k : AdminClass) (i : Instr) (go : State → State) (hgo : ∀ s, Keeps s (go s))
    : Keeps s (adminCmd s a k i go) := by
  unfold adminCmd
  with_reducible
    refine .iteR ?_ ?_; refine .ite ?_ ?_; refine .ite ?_ ?_; refine .trans ?_ (prpOnly_keeps _ _ _ (fun _ => ?_))
    exact .refl _; refine .trans ?_ (hgo _); exact .refl _; refine .trans ?_ (refuseInSafe_keeps ..); exact .refl _
    refine .ite ?_ ?_; refine .trans ?_ (adminDone_keeps ..); exact .refl _
    refine .trans ?_ (prpOnly_keeps _ _ _ (fun _ => ?_)); exact .refl _; split
    refine .trans ?_ (driveCmd_keeps _ _ _ _ _ (fun _ => ?_)); exact .refl _; refine .trans ?_ (hgo _); exact .refl _
    refine .trans ?_ (driveCmd_keeps _ _ _ _ _ (fun _ => ?_)); exact .refl _; refine .trans ?_ (hgo _); exact .refl _
    refine .trans ?_ (hgo _); exact .refl _; exact .refl _
theorem answerData_keeps (s : State) (p : PortId) (bs : List Byte) : Keeps s (answerData s p bs) := by
  unfold answerData
  with_reducible (refine .onPort ?_; exact .refl _)
theorem badDoorbell_keeps (s : State) (p : PortId) : Keeps s (badDoorbell s p) := by
  unfold badDoorbell
  with_reducible (refine .trans ?_ (fire_keeps ..); exact .refl _)
theorem ringTail_keeps (s : State) (p : PortId) (qid tail : Nat) (entries : List IoEntry) : Keeps s
    (ringTail s p qid tail entries) := by
  unfold ringTail
  with_reducible
    refine .ite ?_ ?_; exact .refl _; split; refine .trans ?_ (badDoorbell_keeps ..); exact .refl _; dsimp only
    refine .ite ?_ ?_; refine .trans ?_ (badDoorbell_keeps ..); exact .refl _; refine .onPort ?_; exact .refl _
theorem ringHead_keeps (s : State) (p : PortId) (qid head : Nat) : Keeps s (ringHead s p qid head) := by
  unfold ringHead
  with_reducible
    refine .ite ?_ ?_; exact .refl _; split; refine .trans ?_ (badDoorbell_keeps ..); exact .refl _; dsimp only
    refine .ite ?_ ?_; refine .trans ?_ (badDoorbell_keeps ..); exact .refl _; refine .onPort ?_; exact .refl _
theorem makeCq_keeps (a : AdminId) (qid size vector : Nat) (s : State) : Keeps s (makeCq a qid size vector s) := by
  unfold makeCq
  with_reducible
    dsimp only; refine .ite ?_ ?_; refine .trans ?_ (adminDone_keeps ..); exact .refl _; refine .ite ?_ ?_
    refine .trans ?_ (adminDone_keeps ..); exact .refl _; refine .ite ?_ ?_; refine .trans ?_ (adminDone_keeps ..)
    exact .refl _; refine .trans ?_ (adminDone_keeps ..); refine .onPort ?_; exact .refl _
theorem makeSq_keeps (a : AdminId) (qid size cqid prio : Nat) (s : State) : Keeps s (makeSq a qid size cqid prio s) := by
  unfold makeSq
  with_reducible
    dsimp only; refine .ite ?_ ?_; refine .trans ?_ (adminDone_keeps ..); exact .refl _; refine .ite ?_ ?_
    refine .trans ?_ (adminDone_keeps ..); exact .refl _; refine .ite ?_ ?_; refine .trans ?_ (adminDone_keeps ..)
    exact .refl _; refine .trans ?_ (adminDone_keeps ..); refine .onPort ?_; exact .refl _
theorem endOfDeleted_keeps (s : State) (c : OutCmd) : Keeps s (endOfDeleted s c) := by
  unfold endOfDeleted
  with_reducible
    refine .ite ?_ ?_; refine .trans ?_ (ioEnd_keeps ..); refine .trans ?_ (abandonRead_keeps ..); exact .refl _
    refine .ite ?_ ?_; refine .trans ?_ (advanceHorizon_keeps ..); refine .trans ?_ (ioDone_keeps ..)
    refine .trans ?_ (holdData_keeps ..); exact .refl _; refine .trans ?_ (failWrite_keeps ..); exact .refl _
theorem dropSq_keeps (a : AdminId) (qid : Nat) (s : State) : Keeps s (dropSq a qid s) := by
  unfold dropSq
  with_reducible
    dsimp only; refine .ite ?_ ?_; refine .trans ?_ (adminDone_keeps ..); exact .refl _; refine .trans ?_ (adminDone_keeps ..)
    refine .onPort ?_; refine .foldl (fun _ _ => ?_) ?_; refine .trans ?_ (endOfDeleted_keeps ..); exact .refl _
    refine .onPort ?_; exact .refl _
theorem dropCq_keeps (a : AdminId) (qid : Nat) (s : State) : Keeps s (dropCq a qid s) := by
  unfold dropCq
  with_reducible
    dsimp only; refine .ite ?_ ?_; refine .trans ?_ (adminDone_keeps ..); exact .refl _; refine .ite ?_ ?_
    refine .trans ?_ (adminDone_keeps ..); exact .refl _; refine .trans ?_ (adminDone_keeps ..); refine .onPort ?_
    exact .refl _
theorem catchCmd_keeps (s : State) (c : OutCmd) : Keeps s (catchCmd s c) := by
  unfold catchCmd
  with_reducible
    refine .ite ?_ ?_; refine .trans ?_ (failWrite_keeps ..); exact .refl _; refine .trans ?_ (ioDone_keeps ..)
    refine .trans ?_ (abandonRead_keeps ..); exact .refl _
theorem abortCmd_keeps (a : AdminId) (sqid tcid : Nat) (s : State) : Keeps s (abortCmd a sqid tcid s) := by
  unfold abortCmd
  with_reducible
    split; refine .trans ?_ (adminDone_keeps ..); exact .refl _; dsimp only; refine .ite ?_ ?_
    refine .trans ?_ (adminDone_keeps ..); refine .trans ?_ (catchCmd_keeps ..); refine .draw ?_; exact .refl _
    refine .trans ?_ (adminDone_keeps ..); refine .draw ?_; exact .refl _
theorem awaitEvent_keeps (a : AdminId) (s : State) : Keeps s (awaitEvent a s) := by
  unfold awaitEvent
  with_reducible (refine .ite ?_ ?_; refine .trans ?_ (adminDone_keeps ..); exact .refl _; refine .onPort ?_; exact .refl _)
theorem keepAliveDone_keeps (a : AdminId) (s : State) : Keeps s (keepAliveDone a s) := by
  unfold keepAliveDone
  with_reducible (refine .trans ?_ (adminDone_keeps ..); exact .refl _)
theorem answerWith_keeps (s : State) (a : AdminId) (r : List Byte ⊕ Status) : Keeps s (answerWith s a r) := by
  unfold answerWith
  with_reducible
    split; refine .trans ?_ (adminDone_keeps ..); refine .trans ?_ (answerData_keeps ..); exact .refl _
    refine .trans ?_ (adminDone_keeps ..); exact .refl _
theorem runIdentify_keeps (a : AdminId) (cns nsid : Nat) (s : State) : Keeps s (runIdentify a cns nsid s) := by
  unfold runIdentify
  with_reducible (refine .trans ?_ (answerWith_keeps ..); exact .refl _)
theorem runGetFeatures_keeps (a : AdminId) (fid : Nat) (s : State) : Keeps s (runGetFeatures a fid s) := by
  unfold runGetFeatures
  with_reducible
    split; refine .trans ?_ (adminDone_keeps ..); exact .refl _; dsimp only; refine .trans ?_ (adminDone_keeps ..)
    refine .iteL ?_ ?_; refine .trans ?_ (answerData_keeps ..); exact .refl _; exact .refl _
theorem setPower_keeps (a : AdminId) (ps : Nat) (s : State) : Keeps s (setPower a ps s) := by
  unfold setPower
  with_reducible
    refine .ite ?_ ?_; refine .trans ?_ (adminDone_keeps ..); exact .refl _; refine .trans ?_ (adminDone_keeps ..)
    refine .trans ?_ (takePs_keeps ..); refine .onPort ?_; exact .refl _
theorem setCache_keeps (a : AdminId) (on : Bool) (s : State) : Keeps s (setCache a on s) := by
  unfold setCache
  with_reducible (refine .trans ?_ (adminDone_keeps ..); refine .onPath ?_; exact .refl _)
theorem setThermal_keeps (a : AdminId) (t1 t2 : Nat) (s : State) : Keeps s (setThermal a t1 t2 s) := by
  unfold setThermal
  with_reducible
    refine .ite ?_ ?_; refine .trans ?_ (adminDone_keeps ..); exact .refl _; refine .trans ?_ (adminDone_keeps ..)
    refine .onHk (fun _ => Nat.le_refl _) ?_; exact .refl _
theorem setAsync_keeps (a : AdminId) (v : BitVec 32) (s : State) : Keeps s (setAsync a v s) := by
  unfold setAsync
  with_reducible (refine .trans ?_ (adminDone_keeps ..); refine .onPort ?_; exact .refl _)
theorem setStamp_keeps (a : AdminId) (ms : Nat) (s : State) : Keeps s (setStamp a ms s) := by
  unfold setStamp
  with_reducible (refine .trans ?_ (adminDone_keeps ..); refine .onPath ?_; exact .refl _)
theorem setFdp_keeps (a : AdminId) (on : Bool) (s : State) : Keeps s (setFdp a on s) := by
  unfold setFdp
  with_reducible
    refine .ite ?_ ?_; refine .trans ?_ (adminDone_keeps ..); exact .refl _; refine .trans ?_ (adminDone_keeps ..)
    refine .trans ?_ (putAnchor_keeps ..); refine .onPath ?_; exact .refl _
theorem setQueues_keeps (a : AdminId) (v : Nat) (s : State) : Keeps s (setQueues a v s) := by
  unfold setQueues
  with_reducible
    dsimp only; refine .ite ?_ ?_; refine .trans ?_ (adminDone_keeps ..); exact .refl _; refine .ite ?_ ?_
    refine .trans ?_ (adminDone_keeps ..); exact .refl _; refine .trans ?_ (adminDone_keeps ..); refine .onPort ?_
    exact .refl _
theorem runSetFeatures_keeps (a : AdminId) (fid value : Nat) (s : State) : Keeps s (runSetFeatures a fid value s) := by
  unfold runSetFeatures
  with_reducible
    refine .ite ?_ ?_; refine .trans ?_ (setPower_keeps ..); exact .refl _; refine .ite ?_ ?_
    refine .trans ?_ (setCache_keeps ..); exact .refl _; refine .ite ?_ ?_; refine .trans ?_ (setQueues_keeps ..); exact .refl _
    refine .ite ?_ ?_; refine .trans ?_ (setAsync_keeps ..); exact .refl _; refine .ite ?_ ?_
    refine .trans ?_ (setStamp_keeps ..); exact .refl _; refine .ite ?_ ?_; refine .trans ?_ (setThermal_keeps ..)
    exact .refl _; refine .ite ?_ ?_; refine .trans ?_ (setFdp_keeps ..); exact .refl _; refine .ite ?_ ?_
    refine .trans ?_ (adminDone_keeps ..); refine .onPort ?_; exact .refl _; refine .ite ?_ ?_
    refine .trans ?_ (adminDone_keeps ..); refine .onMisc ?_; exact .refl _; refine .trans ?_ (adminDone_keeps ..)
    exact .refl _
theorem runSelfTest_keeps (a : AdminId) (stc : Nat) (s : State) : Keeps s (runSelfTest a stc s) := by
  unfold runSelfTest
  with_reducible
    refine .ite ?_ ?_; refine .trans ?_ (adminDone_keeps ..); refine .onMisc ?_; exact .refl _; refine .ite ?_ ?_
    refine .trans ?_ (adminDone_keeps ..); exact .refl _; refine .trans ?_ (adminDone_keeps ..); exact .refl _
theorem sendDirective_keeps (a : AdminId) (dtype : Nat) (s : State) : Keeps s (sendDirective a dtype s) := by
  unfold sendDirective
  with_reducible (refine .trans ?_ (adminDone_keeps ..); exact .refl _)
theorem receiveDirective_keeps (a : AdminId) (dtype : Nat) (s : State) : Keeps s (receiveDirective a dtype s) := by
  unfold receiveDirective
  with_reducible
    refine .ite ?_ ?_; dsimp only; refine .trans ?_ (adminDone_keeps ..); refine .trans ?_ (answerData_keeps ..); exact .refl _
    refine .trans ?_ (adminDone_keeps ..); exact .refl _
theorem drawKey_keeps1 (s : State) : Keeps s (drawKey s).1 := by
  unfold drawKey
  with_reducible (dsimp only; refine .draw ?_; exact .refl _)

theorem drawKey_keeps {s : State} {t : State} {r} (e : drawKey s = (t, r)) : Keeps s t := by
  have k := drawKey_keeps1 s
  rw [e] at k; exact k
theorem writeKeyStore_keeps (s : State) : Keeps s (writeKeyStore s) := by
  unfold writeKeyStore
  with_reducible (dsimp only; refine .onSec (fun _ => rfl) (fun _ => rfl) ?_; exact .refl _)
theorem modNs_keeps (s : State) (nsid : Nat) (f : Namespace → Namespace) : Keeps s (modNs s nsid f) := by
  unfold modNs
  with_reducible (refine .onPath ?_; exact .refl _)
theorem rekey_keeps (s : State) (nsid : Nat) : Keeps s (rekey s nsid) := by
  unfold rekey
  with_reducible (split; refine .trans ?_ (modNs_keeps ..); refine .trans ?_ (drawKey_keeps (by assumption)); exact .refl _)
theorem staleStaged_keeps (s : State) (n : Namespace) : Keeps s (staleStaged s n) := by
  unfold staleStaged
  with_reducible
    dsimp only; refine .foldl (fun _ _ => ?_) ?_; split; refine .trans ?_ (protectIfDone_keeps ..); exact .refl _; exact .refl _
    refine .onPath ?_; exact .refl _
theorem trimOverlay_keeps (n : Namespace) (s : State) (e : OvlEntry) : Keeps s (trimOverlay n s e) := by
  unfold trimOverlay
  with_reducible
    split; refine .ite ?_ ?_; refine .trans ?_ (ovlRelease_keeps ..); exact .refl _; refine .trans ?_ (ovlRemove_keeps ..)
    exact .refl _; exact .refl _
theorem clearNs_keeps (s : State) (n : Namespace) : Keeps s (clearNs s n) := by
  unfold clearNs
  with_reducible
    dsimp only; refine .trans ?_ (advanceHorizon_keeps ..); refine .foldl (fun _ _ => ?_) ?_
    refine .trans ?_ (trimOverlay_keeps ..); exact .refl _; refine .foldl (fun _ _ => ?_) ?_
    refine .trans ?_ (setBase_keeps ..); refine .trans ?_ (bumpVer_keeps ..); exact .refl _
    refine .trans ?_ (staleStaged_keeps ..); exact .refl _
theorem createNs_keeps (a : AdminId) (nsze flbas : Nat) (handles : List Nat) (s : State) : Keeps s
    (createNs a nsze flbas handles s) := by
  unfold createNs
  with_reducible
    dsimp only; refine .ite ?_ ?_; refine .trans ?_ (adminDone_keeps ..); exact .refl _; refine .ite ?_ ?_
    refine .trans ?_ (adminDone_keeps ..); exact .refl _; refine .ite ?_ ?_; refine .trans ?_ (adminDone_keeps ..)
    exact .refl _; split; refine .trans ?_ (adminDone_keeps ..); exact .refl _; refine .ite ?_ ?_
    refine .trans ?_ (adminDone_keeps ..); exact .refl _; refine .trans ?_ (adminDone_keeps ..)
    refine .trans ?_ (writeKeyStore_keeps ..); refine .trans ?_ (clearNs_keeps ..); refine .onPath ?_
    refine .trans ?_ (drawKey_keeps1 ..); exact .refl _
theorem removeNs_keeps (s : State) (n : Namespace) : Keeps s (removeNs s n) := by
  unfold removeNs
  with_reducible
    dsimp only; refine .trans ?_ (cleanLost_keeps ..); refine .onPath ?_; refine .trans ?_ (clearNs_keeps ..); exact .refl _
theorem deleteNs_keeps (a : AdminId) (nsid : Nat) (s : State) : Keeps s (deleteNs a nsid s) := by
  unfold deleteNs
  with_reducible
    split; refine .trans ?_ (adminDone_keeps ..); exact .refl _; refine .trans ?_ (adminDone_keeps ..)
    refine .trans ?_ (writeKeyStore_keeps ..); refine .foldl (fun _ _ => ?_) ?_; refine .trans ?_ (removeNs_keeps ..)
    exact .refl _; exact .refl _
theorem setAttached_keeps (a : AdminId) (nsid : Nat) (ctrls : List Nat) (on : Bool) (s : State) : Keeps s
    (setAttached a nsid ctrls on s) := by
  unfold setAttached
  with_reducible
    split; refine .trans ?_ (adminDone_keeps ..); exact .refl _; refine .ite ?_ ?_; refine .trans ?_ (adminDone_keeps ..)
    exact .refl _; refine .ite ?_ ?_; refine .trans ?_ (adminDone_keeps ..); exact .refl _
    refine .trans ?_ (adminDone_keeps ..); refine .trans ?_ (modNs_keeps ..); exact .refl _
theorem formatOne_keeps (ses lbaf : Nat) (s : State) (n : Namespace) : Keeps s (formatOne ses lbaf s n) := by
  unfold formatOne
  with_reducible
    dsimp only; refine .trans ?_ (cleanLost_keeps ..); refine .trans ?_ (modNs_keeps ..); refine .trans ?_ (clearNs_keeps ..)
    refine .iteR ?_ ?_; refine .trans ?_ (rekey_keeps ..); exact .refl _; exact .refl _
theorem formatNs_keeps (a : AdminId) (nsid ses lbaf : Nat) (s : State) : Keeps s (formatNs a nsid ses lbaf s) := by
  unfold formatNs
  with_reducible
    refine .ite ?_ ?_; refine .trans ?_ (adminDone_keeps ..); exact .refl _; refine .ite ?_ ?_
    refine .trans ?_ (adminDone_keeps ..); exact .refl _; split; refine .trans ?_ (adminDone_keeps ..); exact .refl _
    dsimp only; refine .trans ?_ (adminDone_keeps ..); refine .iteR ?_ ?_; refine .trans ?_ (writeKeyStore_keeps ..)
    exact .refl _; refine .foldl (fun _ _ => ?_) ?_; refine .trans ?_ (formatOne_keeps ..); exact .refl _; exact .refl _
theorem endDrydown_keeps (s : State) : Keeps s (endDrydown s) := by
  unfold endDrydown
  with_reducible
    dsimp only; refine .trans ?_ (pmeOnChange_keeps ..); refine .onUpkeep (fun _ => Nat.le_refl _) ?_
    refine .trans ?_ (putAnchor_keeps ..); refine .raw ?_; exact .refl _
theorem endForSanitize_keeps (s : State) (c : OutCmd) : Keeps s (endForSanitize s c) := by
  unfold endForSanitize
  with_reducible
    refine .iteL ?_ ?_; refine .trans ?_ (ioDone_keeps ..); refine .iteR ?_ ?_; refine .trans ?_ (discardWrite_keeps ..)
    exact .refl _; exact .refl _; exact .refl _
theorem discardStaging_keeps (s : State) : Keeps s (discardStaging s) := by
  unfold discardStaging
  with_reducible
    dsimp only; refine .trans ?_ (advanceHorizon_keeps ..); refine .onPath ?_; refine .foldl (fun _ _ => ?_) ?_
    refine .trans ?_ (endForSanitize_keeps ..); exact .refl _; exact .refl _
theorem trimAll_keeps (s : State) : Keeps s (trimAll s) := by
  unfold trimAll
  with_reducible
    dsimp only; refine .trans ?_ (cleanLost_keeps ..); refine .onPath ?_; refine .foldl (fun _ _ => ?_) ?_
    refine .trans ?_ (clearNs_keeps ..); exact .refl _; refine .trans ?_ (writeKeyStore_keeps ..)
    refine .foldl (fun _ _ => ?_) ?_; refine .trans ?_ (rekey_keeps ..); exact .refl _; exact .refl _
theorem startSanitize_keeps (a : AdminId) (kind : SanState) (s : State) : Keeps s (startSanitize a kind s) := by
  unfold startSanitize
  with_reducible
    refine .ite ?_ ?_; refine .trans ?_ (adminDone_keeps ..); exact .refl _; dsimp only; refine .trans ?_ (trimAll_keeps ..)
    refine .trans ?_ (writeKeyStore_keeps ..); refine .onSec (fun _ => rfl) (fun _ => rfl) ?_; refine .iteL ?_ ?_
    refine .trans ?_ (endDrydown_keeps ..); exact .refl _; refine .trans ?_ (discardStaging_keeps ..)
    refine .trans ?_ (adminDone_keeps ..); exact .refl _
theorem endSanitize_keeps (s : State) : Keeps s (endSanitize s) := by
  unfold endSanitize
  with_reducible (refine .trans ?_ (writeKeyStore_keeps ..); refine .onSec (fun _ => rfl) (fun _ => rfl) ?_; exact .refl _)
theorem trimEnds_keeps (s : State) : Keeps s (trimEnds s) := by
  unfold trimEnds
  with_reducible
    refine .iteR ?_ ?_; refine .ite ?_ ?_; refine .onSec (fun _ => rfl) (fun _ => rfl) ?_; refine .trans ?_ (resetDies_keeps ..)
    exact .refl _; refine .trans ?_ (endSanitize_keeps ..); exact .refl _; exact .refl _
theorem wipeBlock_keeps (die : Nat) (s : State) (block : Nat) : Keeps s (wipeBlock die s block) := by
  unfold wipeBlock
  with_reducible
    dsimp only; refine .onMedia ?_; refine .trans ?_ (modBlock_keeps ..); refine .trans ?_ (jot_keeps ..)
    refine .trans ?_ (jot_keeps ..); exact .refl _
theorem erasesEnd_keeps (s : State) : Keeps s (erasesEnd s) := by
  unfold erasesEnd
  with_reducible
    refine .ite ?_ ?_; exact .refl _; dsimp only; refine .trans ?_ (endSanitize_keeps ..)
    refine .trans ?_ (advanceHorizon_keeps ..); refine .trans ?_ (putAnchor_keeps ..)
    refine .onJournal (fun _ => Nat.le_refl _) ?_; refine .onUpkeep (fun _ => Nat.le_refl _) ?_; refine .onPath ?_
    refine .onMedia ?_; refine .foldl (fun _ _ => ?_) ?_; refine .foldl (fun _ _ => ?_) ?_
    refine .trans ?_ (wipeBlock_keeps ..); exact .refl _; exact .refl _; exact .refl _

end Sys2Proof.Machine
end

