-- ==== Sys2Proof/Laws/KeepsControl.lean ====
section
/-! SUPPORT. `Keeps` for the operations of registers, links, recovery, power, firmware, ownership and the sideband ports. -/
namespace Sys2Proof.Machine

theorem beginRound_keeps (s : State) : Keeps s (beginRound s) := by
  unfold beginRound
  with_reducible (refine .onHk (fun _ => Nat.le_refl _) ?_; exact .refl _)
theorem startRound_keeps (s : State) : Keeps s (startRound s) := by
  unfold startRound
  with_reducible
    split; exact .refl _; refine .iteR ?_ ?_; refine .ite ?_ ?_; refine .iteR ?_ ?_; refine .trans ?_ (fire_keeps ..)
    refine .onHk (fun _ => Nat.le_refl _) ?_; exact .refl _; exact .refl _; refine .trans ?_ (beginRound_keeps ..)
    exact .refl _; exact .refl _
theorem mapInputs_keeps (s : State) (f : Nat → TempIn → TempIn) : Keeps s (mapInputs s f) := by
  unfold mapInputs
  with_reducible (refine .onHk (fun _ => Nat.le_refl _) ?_; exact .refl _)
theorem trimRound_keeps (s : State) : Keeps s (trimRound s) := by
  unfold trimRound
  with_reducible
    dsimp only; refine .ite ?_ ?_; refine .iteL ?_ ?_; refine .trans ?_ (fire_keeps ..); exact .refl _; exact .refl _
    refine .iteR ?_ ?_; refine .iteL ?_ ?_; refine .trans ?_ (fire_keeps ..); exact .refl _
    refine .onHk (fun _ => Nat.le_refl _) ?_; refine .trans ?_ (drawFree_keeps1 ..); exact .refl _; exact .refl _
theorem readSupply_keeps (s : State) (k v : Nat) : Keeps s (readSupply s k v) := by
  unfold readSupply
  with_reducible
    dsimp only; refine .iteR ?_ ?_; refine .trans ?_ (fire_keeps ..); exact .refl _; refine .onHk (fun _ => Nat.le_refl _) ?_
    exact .refl _
theorem readHoldup_keeps (s : State) (v : Nat) : Keeps s (readHoldup s v) := by
  unfold readHoldup
  with_reducible (dsimp only; refine .onHk (fun _ => Nat.le_refl _) ?_; exact .refl _)
theorem addThermal_keeps (s : State) (input event : Nat) (reading : Int) : Keeps s (addThermal s input event reading) := by
  unfold addThermal
  with_reducible (refine .onHk (fun _ => Nat.le_succ _) ?_; exact .refl _)
theorem recordEvents_keeps (old s : State) : Keeps s (recordEvents old s) := by
  unfold recordEvents
  with_reducible
    dsimp only; refine .iteL ?_ ?_; refine .trans ?_ (notice_keeps ..); exact .refl _; refine .foldl (fun _ _ => ?_) ?_
    refine .trans ?_ (addThermal_keeps ..); exact .refl _; exact .refl _
theorem latchTmt_keeps (s : State) : Keeps s (latchTmt s) := by
  unfold latchTmt
  with_reducible (dsimp only; refine .onHk (fun _ => Nat.le_refl _) ?_; exact .refl _)
theorem stepLevel_keeps (s : State) : Keeps s (stepLevel s) := by
  unfold stepLevel
  with_reducible (dsimp only; refine .onHk (fun _ => Nat.le_refl _) ?_; exact .refl _)
theorem applyLevel_keeps (s : State) : Keeps s (applyLevel s) := by
  unfold applyLevel
  with_reducible
    refine .ite ?_ ?_; exact .refl _; dsimp only; refine .onHk (fun _ => Nat.le_refl _) ?_; refine .foldl (fun _ _ => ?_) ?_
    refine .trans ?_ (modDc_keeps ..); exact .refl _; refine .foldl (fun _ _ => ?_) ?_; refine .trans ?_ (modCluster_keeps ..)
    exact .refl _; refine .foldl (fun _ _ => ?_) ?_; refine .trans ?_ (modMoverBlock_keeps ..); exact .refl _
    refine .foldl (fun _ _ => ?_) ?_; refine .trans ?_ (modChan_keeps ..); exact .refl _; exact .refl _
theorem throttleStepNow_keeps (s : State) : Keeps s (throttleStepNow s) := by
  unfold throttleStepNow
  with_reducible
    refine .iteL ?_ ?_; refine .trans ?_ (applyLevel_keeps ..); refine .trans ?_ (stepLevel_keeps ..); exact .refl _
    exact .refl _
theorem beginHalt_keeps (s : State) : Keeps s (beginHalt s) := by
  unfold beginHalt
  with_reducible (refine .trans ?_ (pmeOnChange_keeps ..); refine .onHk (fun _ => Nat.le_refl _) ?_; exact .refl _)
theorem endHalt_keeps (s : State) : Keeps s (endHalt s) := by
  unfold endHalt
  with_reducible
    dsimp only; refine .iteL ?_ ?_; refine .trans ?_ (drydownClose_keeps ..); exact .refl _
    refine .trans ?_ (pmeOnChange_keeps ..); refine .trans ?_ (addThermal_keeps ..); refine .onHk (fun _ => Nat.le_refl _) ?_
    exact .refl _
theorem judgeWarn_keeps (s : State) : Keeps s (judgeWarn s) := by
  unfold judgeWarn
  with_reducible (refine .iteL ?_ ?_; refine .onHk (fun _ => Nat.le_refl _) ?_; exact .refl _; exact .refl _)
theorem judgeHalt_keeps (s : State) : Keeps s (judgeHalt s) := by
  unfold judgeHalt
  with_reducible
    dsimp only; refine .ite ?_ ?_; refine .iteL ?_ ?_; refine .trans ?_ (endHalt_keeps ..); exact .refl _; exact .refl _
    refine .iteL ?_ ?_; refine .trans ?_ (beginHalt_keeps ..); exact .refl _; exact .refl _
theorem haltEntryOver_keeps (s : State) : Keeps s (haltEntryOver s) := by
  unfold haltEntryOver
  with_reducible
    dsimp only; refine .iteL ?_ ?_; refine .trans ?_ (applyLevel_keeps ..); refine .onHk (fun _ => Nat.le_refl _) ?_
    exact .refl _; exact .refl _
theorem readRound_keeps (s : State) (d : RoundData) : Keeps s (readRound s d) := by
  unfold readRound
  with_reducible
    dsimp only; refine .trans ?_ (mapInputs_keeps ..); refine .trans ?_ (readHoldup_keeps ..)
    refine .trans ?_ (readSupply_keeps ..); refine .trans ?_ (readSupply_keeps ..); refine .trans ?_ (readSupply_keeps ..)
    refine .iteL ?_ ?_; refine .trans ?_ (fire_keeps ..); exact .refl _; refine .trans ?_ (trimRound_keeps ..)
    refine .foldl (fun _ _ => ?_) ?_; refine .trans ?_ (fire_keeps ..); exact .refl _; refine .trans ?_ (mapInputs_keeps ..)
    refine .trans ?_ (drawFree_keeps1 ..); exact .refl _
theorem closeRound_keeps (old s : State) : Keeps s (closeRound old s) := by
  unfold closeRound
  with_reducible (refine .onHk (fun _ => Nat.le_refl _) ?_; exact .refl _)
theorem endRound_keeps (s : State) (d : RoundData) : Keeps s (endRound s d) := by
  unfold endRound
  with_reducible
    refine .ite ?_ ?_; exact .refl _; dsimp only; refine .iteL ?_ ?_; refine .trans ?_ (beginRound_keeps ..); exact .refl _
    refine .trans ?_ (applyLevel_keeps ..); refine .trans ?_ (judgeWarn_keeps ..); refine .trans ?_ (judgeHalt_keeps ..)
    refine .trans ?_ (recordEvents_keeps ..); refine .trans ?_ (stepLevel_keeps ..); refine .trans ?_ (latchTmt_keeps ..)
    refine .trans ?_ (closeRound_keeps ..); refine .trans ?_ (readRound_keeps ..); exact .refl _
theorem holdOver_keeps (s : State) (i : Nat) : Keeps s (holdOver s i) := by
  unfold holdOver
  with_reducible
    split; exact .refl _; refine .iteL ?_ ?_; refine .onHk (fun _ => Nat.le_refl _) ?_; exact .refl _; exact .refl _
theorem writeHfe_keeps (s : State) (p : PortId) (o v : Nat) : Keeps s (writeHfe s p o v) := by
  unfold writeHfe
  with_reducible
    refine .ite ?_ ?_; refine .onPort ?_; exact .refl _; refine .iteL ?_ ?_; refine .onPort ?_; exact .refl _; exact .refl _
theorem writeOwn_keeps (s : State) (o v : Nat) : Keeps s (writeOwn s o v) := by
  unfold writeOwn
  with_reducible
    refine .ite ?_ ?_; refine .onOwn (fun _ => rfl) ?_; exact .refl _; refine .ite ?_ ?_; refine .onPort ?_; exact .refl _
    refine .iteL ?_ ?_; refine .onPort ?_; exact .refl _; exact .refl _
theorem writeFh_keeps (s : State) (o v : Nat) : Keeps s (writeFh s o v) := by
  unfold writeFh
  with_reducible
    dsimp only; refine .ite ?_ ?_; refine .onFh (fun _ => Nat.le_refl _) ?_; exact .refl _; refine .ite ?_ ?_
    refine .onFh (fun _ => Nat.le_refl _) ?_; exact .refl _; refine .iteL ?_ ?_; refine .onFh (fun _ => Nat.le_refl _) ?_
    exact .refl _; exact .refl _
theorem writeHk_keeps (s : State) (o v : Nat) : Keeps s (writeHk s o v) := by
  unfold writeHk
  with_reducible
    refine .ite ?_ ?_; refine .onHk (fun _ => Nat.le_refl _) ?_; exact .refl _; refine .ite ?_ ?_
    refine .onHk (fun _ => Nat.le_refl _) ?_; exact .refl _; refine .iteL ?_ ?_; refine .onHk (fun _ => Nat.le_refl _) ?_
    exact .refl _; exact .refl _
theorem writeMover_keeps (s : State) (o v : Nat) : Keeps s (writeMover s o v) := by
  unfold writeMover
  with_reducible
    dsimp only; refine .ite ?_ ?_; refine .trans ?_ (modMoverBlock_keeps ..); exact .refl _; refine .ite ?_ ?_
    refine .trans ?_ (modMoverBlock_keeps ..); exact .refl _; refine .iteL ?_ ?_; refine .trans ?_ (modMover_keeps ..)
    exact .refl _; exact .refl _
theorem writeDc_keeps (s : State) (n o v : Nat) : Keeps s (writeDc s n o v) := by
  unfold writeDc
  with_reducible
    refine .iteR ?_ ?_; refine .ite ?_ ?_; refine .trans ?_ (modDc_keeps ..); exact .refl _; refine .ite ?_ ?_
    refine .trans ?_ (modDc_keeps ..); exact .refl _; refine .ite ?_ ?_; refine .trans ?_ (modDc_keeps ..); exact .refl _
    refine .ite ?_ ?_; refine .trans ?_ (modDc_keeps ..); exact .refl _; refine .iteL ?_ ?_; refine .trans ?_ (modDc_keeps ..)
    exact .refl _; exact .refl _; exact .refl _
theorem writeCs_keeps (s : State) (n o v : Nat) : Keeps s (writeCs s n o v) := by
  unfold writeCs
  with_reducible
    refine .iteR ?_ ?_; refine .ite ?_ ?_; refine .trans ?_ (modChan_keeps ..); exact .refl _; refine .ite ?_ ?_
    refine .trans ?_ (modChan_keeps ..); exact .refl _; refine .iteL ?_ ?_; refine .trans ?_ (modChan_keeps ..); exact .refl _
    exact .refl _; exact .refl _
theorem writeLc_keeps (s : State) (g o v : Nat) : Keeps s (writeLc s g o v) := by
  unfold writeLc
  with_reducible
    refine .iteR ?_ ?_; refine .ite ?_ ?_; refine .trans ?_ (modCluster_keeps ..); exact .refl _; refine .ite ?_ ?_
    refine .trans ?_ (modCluster_keeps ..); exact .refl _; refine .ite ?_ ?_; refine .trans ?_ (modCluster_keeps ..)
    exact .refl _; refine .ite ?_ ?_; refine .trans ?_ (modCluster_keeps ..); exact .refl _; refine .iteL ?_ ?_
    refine .trans ?_ (modCluster_keeps ..); exact .refl _; exact .refl _; exact .refl _
theorem writeSec_keeps (s : State) (o v : Nat) : Keeps s (writeSec s o v) := by
  unfold writeSec
  with_reducible
    refine .ite ?_ ?_; refine .onSec (fun _ => rfl) (fun _ => rfl) ?_; exact .refl _; refine .iteL ?_ ?_
    refine .onSec (fun _ => rfl) (fun _ => rfl) ?_; exact .refl _; exact .refl _
theorem regWrite_keeps (s : State) (a : Nat) (w : BitVec 32) : Keeps s (regWrite s a w) := by
  unfold regWrite
  with_reducible
    dsimp only; refine .iteR ?_ ?_; refine .ite ?_ ?_; refine .trans ?_ (writeOwn_keeps ..); exact .refl _; refine .ite ?_ ?_
    refine .trans ?_ (writeHfe_keeps ..); exact .refl _; refine .ite ?_ ?_; refine .iteL ?_ ?_
    refine .trans ?_ (writeHfe_keeps ..); exact .refl _; exact .refl _; refine .iteR ?_ ?_; refine .ite ?_ ?_
    refine .trans ?_ (writeFh_keeps ..); exact .refl _; refine .ite ?_ ?_; refine .trans ?_ (writeHk_keeps ..); exact .refl _
    refine .ite ?_ ?_; refine .trans ?_ (writeMover_keeps ..); exact .refl _; refine .iteR ?_ ?_; refine .ite ?_ ?_
    refine .trans ?_ (writeDc_keeps ..); exact .refl _; refine .iteR ?_ ?_; refine .ite ?_ ?_
    refine .trans ?_ (writeCs_keeps ..); exact .refl _; refine .iteR ?_ ?_; refine .ite ?_ ?_
    refine .trans ?_ (writeLc_keeps ..); exact .refl _; refine .iteR ?_ ?_; refine .ite ?_ ?_; refine .iteL ?_ ?_
    refine .onHk (fun _ => Nat.le_refl _) ?_; exact .refl _; exact .refl _; refine .iteL ?_ ?_
    refine .trans ?_ (writeSec_keeps ..); exact .refl _; exact .refl _; exact .refl _; exact .refl _; exact .refl _
    exact .refl _; exact .refl _; exact .refl _
theorem regWrite64_keeps (s : State) (a : Nat) (lo : Option (BitVec 32)) (hi : BitVec 32) : Keeps s (regWrite64 s a lo hi) := by
  unfold regWrite64
  with_reducible
    refine .ite ?_ ?_; refine .iteL ?_ ?_; refine .onFh (fun _ => Nat.le_refl _) ?_; exact .refl _; exact .refl _
    refine .ite ?_ ?_; refine .onFh (fun _ => Nat.le_refl _) ?_; exact .refl _; refine .iteL ?_ ?_; refine .iteL ?_ ?_
    refine .trans ?_ (modDc_keeps ..); exact .refl _; exact .refl _; exact .refl _
theorem readWindow_keeps (s : State) (p : PortId) (addr width : Nat) : Keeps s (readWindow s p addr width) := by
  unfold readWindow
  with_reducible (refine .ite ?_ ?_; exact .refl _; dsimp only; refine .onPort ?_; exact .refl _)
theorem bufferLow_keeps (s : State) (p : PortId) (addr : Nat) (v : BitVec 32) : Keeps s (bufferLow s p addr v) := by
  unfold bufferLow
  with_reducible (refine .onPort ?_; exact .refl _)
theorem applyHigh_keeps (s : State) (p : PortId) (addr : Nat) (v : BitVec 32) : Keeps s (applyHigh s p addr v) := by
  unfold applyHigh
  with_reducible
    dsimp only; refine .trans ?_ (regWrite64_keeps ..); refine .trans ?_ (touchWindow_keeps ..); exact .refl _
theorem applyWord_keeps (s : State) (p : PortId) (addr : Nat) (v : BitVec 32) : Keeps s (applyWord s p addr v) := by
  unfold applyWord
  with_reducible
    refine .ite ?_ ?_; refine .trans ?_ (writeInject_keeps ..); exact .refl _; refine .ite ?_ ?_
    refine .trans ?_ (writeLegArm_keeps ..); exact .refl _; refine .ite ?_ ?_; refine .trans ?_ (forceSources_keeps ..)
    exact .refl _; refine .trans ?_ (regWrite_keeps ..); refine .trans ?_ (touchWindow_keeps ..); exact .refl _
theorem passWindow_keeps (s : State) (p : PortId) (addr : Nat) : Keeps s (passWindow s p addr) := by
  unfold passWindow
  with_reducible (refine .onPort ?_; exact .refl _)
theorem writeAny_keeps (s : State) (p : PortId) (addr width : Nat) (v : BitVec 32) : Keeps s (writeAny s p addr width v) := by
  unfold writeAny
  with_reducible
    refine .iteR ?_ ?_; refine .ite ?_ ?_; refine .trans ?_ (passWindow_keeps ..); exact .refl _; refine .ite ?_ ?_
    refine .trans ?_ (bufferLow_keeps ..); exact .refl _; refine .ite ?_ ?_; refine .trans ?_ (applyHigh_keeps ..)
    exact .refl _; refine .trans ?_ (applyWord_keeps ..); exact .refl _; exact .refl _
theorem writeLow_keeps (s : State) (p : PortId) (addr width : Nat) (v : BitVec 32) : Keeps s (writeLow s p addr width v) := by
  unfold writeLow
  with_reducible
    refine .ite ?_ ?_; refine .trans ?_ (bufferLow_keeps ..); exact .refl _; refine .trans ?_ (writeAny_keeps ..); exact .refl _
theorem writeHigh_keeps (s : State) (p : PortId) (addr width : Nat) (v : BitVec 32) : Keeps s (writeHigh s p addr width v) := by
  unfold writeHigh
  with_reducible
    refine .ite ?_ ?_; refine .trans ?_ (applyHigh_keeps ..); exact .refl _; refine .trans ?_ (writeAny_keeps ..); exact .refl _
theorem endPageWait_keeps (s : State) (p : PortId) (lid : Nat) (r : LogReq) : Keeps s (endPageWait s p lid r) := by
  unfold endPageWait
  with_reducible (refine .iteR ?_ ?_; refine .onPort ?_; exact .refl _; exact .refl _)
theorem readCursor_keeps (a : AdminId) (r : LogReq) (s : State) : Keeps s (readCursor a r s) := by
  unfold readCursor
  with_reducible
    dsimp only; refine .ite ?_ ?_; refine .trans ?_ (adminDone_keeps ..); exact .refl _; refine .trans ?_ (endPageWait_keeps ..)
    refine .onPort ?_; refine .trans ?_ (answerWith_keeps ..); exact .refl _
theorem readLog_keeps (a : AdminId) (lid : Nat) (r : LogReq) (s : State) : Keeps s (readLog a lid r s) := by
  unfold readLog
  with_reducible
    refine .ite ?_ ?_; refine .trans ?_ (adminDone_keeps ..); exact .refl _; refine .ite ?_ ?_
    refine .trans ?_ (adminDone_keeps ..); exact .refl _; refine .ite ?_ ?_; refine .trans ?_ (readCursor_keeps ..)
    exact .refl _; split; refine .trans ?_ (endPageWait_keeps ..); refine .trans ?_ (answerWith_keeps ..); exact .refl _
    dsimp only; refine .trans ?_ (endPageWait_keeps ..); refine .trans ?_ (answerWith_keeps ..); exact .refl _
    refine .trans ?_ (adminDone_keeps ..); exact .refl _
theorem reserveSeqs_keeps (s : State) : Keeps s (reserveSeqs s) := by
  unfold reserveSeqs
  with_reducible
    refine .ite ?_ ?_; exact .refl _; dsimp only; refine .onPath ?_; refine .trans ?_ (jot_keeps ..); exact .refl _
theorem expireChunk_keeps (s : State) : Keeps s (expireChunk s) := by
  unfold expireChunk
  with_reducible
    split; exact .refl _; split; exact .refl _; refine .iteL ?_ ?_; refine .trans ?_ (closeChunk_keeps ..); exact .refl _
    exact .refl _
theorem countSegment_keeps (s : State) (g : Segment) : Keeps s (countSegment s g) := by
  unfold countSegment
  with_reducible
    dsimp only; refine .onUpkeep (fun _ => Nat.le_refl _) ?_; refine .onJournal (fun _ => Nat.le_refl _) ?_; exact .refl _
theorem startSegment_keeps (s : State) : Keeps s (startSegment s) := by
  unfold startSegment
  with_reducible
    split; exact .refl _; refine .ite ?_ ?_; exact .refl _; dsimp only; refine .trans ?_ (jot_keeps ..)
    refine .trans ?_ (countSegment_keeps ..); refine .trans ?_ (modSb_keeps ..); refine .trans ?_ (programSystem_keeps ..)
    exact .refl _
theorem holdInReset_keeps (s : State) : Keeps s (holdInReset s) := by
  unfold holdInReset
  with_reducible (dsimp only; refine .raw ?_; refine .onBoot ?_; refine .trans ?_ (enterReset_keeps ..); exact .refl _)
theorem flushEnds_keeps (s : State) : Keeps s (flushEnds s) := by
  unfold flushEnds
  with_reducible
    refine .ite ?_ ?_; exact .refl _; dsimp only; refine .ite ?_ ?_; refine .trans ?_ (holdInReset_keeps ..); refine .iteL ?_ ?_
    refine .onBoot ?_; exact .refl _; refine .trans ?_ (endFlush_keeps ..); exact .refl _; refine .iteR ?_ ?_; refine .raw ?_
    exact .refl _; refine .iteL ?_ ?_; refine .onBoot ?_; exact .refl _; refine .trans ?_ (endFlush_keeps ..); exact .refl _
theorem releaseSet_keeps (s : State) (set : Nat) : Keeps s (releaseSet s set) := by
  unfold releaseSet
  with_reducible
    dsimp only; split; exact .refl _; refine .iteR ?_ ?_; refine .trans ?_ (refreshRefuge_keeps ..)
    refine .trans ?_ (putAnchor_keeps ..); refine .foldl (fun _ _ => ?_) ?_; refine .trans ?_ (queueOp_keeps ..); exact .refl _
    refine .onJournal (fun _ => putSet_serial ..) ?_; exact .refl _; exact .refl _
theorem ownerDown_keeps (s : State) (p : PortId) : Keeps s (ownerDown s p) := by
  unfold ownerDown
  with_reducible (refine .iteL ?_ ?_; refine .onOwn (fun _ => rfl) ?_; exact .refl _; exact .refl _)
theorem ownerUp_keeps (s : State) (p : PortId) : Keeps s (ownerUp s p) := by
  unfold ownerUp
  with_reducible (refine .iteL ?_ ?_; refine .onOwn (fun _ => rfl) ?_; exact .refl _; exact .refl _)
theorem linkEnds_keeps (s : State) (p : PortId) (l : Ltssm) : Keeps s (linkEnds s p l) := by
  unfold linkEnds
  with_reducible
    dsimp only; refine .trans ?_ (takePs_keeps ..); refine .trans ?_ (controllerReset_keeps ..)
    refine .trans ?_ (ownerDown_keeps ..); refine .onPort ?_; exact .refl _
theorem pulseResets_keeps1 (s : State) (lowNs : Nat) : Keeps s (pulseResets s lowNs).1 := by
  unfold pulseResets
  with_reducible
    split; dsimp only; exact .refl _; split; dsimp only; exact .refl _; dsimp only; refine .draw ?_; exact .refl _

theorem pulseResets_keeps {s : State} {lowNs : Nat} {t : State} {r} (e : pulseResets s lowNs = (t, r)) : Keeps s t := by
  have k := pulseResets_keeps1 s lowNs
  rw [e] at k; exact k
theorem perstLow_keeps (s : State) (p : PortId) (lowNs : Nat) : Keeps s (perstLow s p lowNs) := by
  unfold perstLow
  with_reducible
    split; refine .ite ?_ ?_; refine .trans ?_ (pulseResets_keeps (by assumption)); exact .refl _; dsimp only
    refine .iteL ?_ ?_; refine .trans ?_ (linkEnds_keeps ..); exact .refl _; refine .onPort ?_
    refine .trans ?_ (pulseResets_keeps (by assumption)); exact .refl _
theorem perstHigh_keeps (s : State) (p : PortId) : Keeps s (perstHigh s p) := by
  unfold perstHigh
  with_reducible (refine .onPort ?_; exact .refl _)
theorem linkFalls_keeps (s : State) (p : PortId) : Keeps s (linkFalls s p) := by
  unfold linkFalls
  with_reducible (refine .iteL ?_ ?_; refine .trans ?_ (linkEnds_keeps ..); exact .refl _; exact .refl _)
theorem linkRises_keeps (s : State) (p : PortId) (speed width : Nat) (flit rev : Bool) : Keeps s
    (linkRises s p speed width flit rev) := by
  unfold linkRises
  with_reducible
    refine .ite ?_ ?_; exact .refl _; dsimp only; refine .trans ?_ (takePs_keeps ..); refine .trans ?_ (ownerUp_keeps ..)
    refine .onPort ?_; exact .refl _
theorem hotResets_keeps (s : State) (p : PortId) : Keeps s (hotResets s p) := by
  unfold hotResets
  with_reducible (refine .iteL ?_ ?_; refine .trans ?_ (linkEnds_keeps ..); exact .refl _; exact .refl _)
theorem linkDisabled_keeps (s : State) (p : PortId) : Keeps s (linkDisabled s p) := by
  unfold linkDisabled
  with_reducible (refine .iteL ?_ ?_; refine .trans ?_ (linkEnds_keeps ..); exact .refl _; exact .refl _)
theorem flr_keeps (s : State) (p : PortId) : Keeps s (flr s p) := by
  unfold flr
  with_reducible
    refine .iteL ?_ ?_; refine .trans ?_ (controllerReset_keeps ..); refine .onPort ?_; exact .refl _; exact .refl _
theorem enableCtrl_keeps (s : State) (p : PortId) (ams : Nat) : Keeps s (enableCtrl s p ams) := by
  unfold enableCtrl
  with_reducible (dsimp only; refine .iteR ?_ ?_; refine .onPort ?_; exact .refl _; exact .refl _)
theorem disableCtrl_keeps (s : State) (p : PortId) : Keeps s (disableCtrl s p) := by
  unfold disableCtrl
  with_reducible (refine .iteL ?_ ?_; refine .trans ?_ (controllerReset_keeps ..); exact .refl _; exact .refl _)
theorem readyLate_keeps (s : State) (p : PortId) : Keeps s (readyLate s p) := by
  unfold readyLate
  with_reducible (dsimp only; refine .iteL ?_ ?_; refine .onBoot ?_; refine .onPort ?_; exact .refl _; exact .refl _)
theorem endHandoverWrites_keeps (s : State) (p : PortId) : Keeps s (endHandoverWrites s p) := by
  unfold endHandoverWrites
  with_reducible
    refine .iteL ?_ ?_; refine .foldl (fun _ _ => ?_) ?_; refine .trans ?_ (endSilently_keeps ..); exact .refl _; exact .refl _
    exact .refl _
theorem setL2_keeps (s : State) (p : PortId) (on : Bool) : Keeps s (setL2 s p on) := by
  unfold setL2
  with_reducible
    refine .ite ?_ ?_; refine .trans ?_ (takePs_keeps ..); refine .trans ?_ (endHandoverWrites_keeps ..)
    refine .trans ?_ (ownerDown_keeps ..); refine .onPort ?_; exact .refl _; refine .iteL ?_ ?_; refine .onPort ?_
    exact .refl _; exact .refl _
theorem configure_keeps (s : State) (p : PortId) (r : CfgReq) : Keeps s (configure s p r) := by
  unfold configure
  with_reducible
    split; exact .refl _; refine .ite ?_ ?_; exact .refl _; split; refine .onPort ?_; exact .refl _; refine .onPort ?_
    exact .refl _; refine .onPort ?_; exact .refl _; refine .onPort ?_; exact .refl _; refine .onPort ?_; exact .refl _
    refine .onPort ?_; exact .refl _; refine .iteL ?_ ?_; refine .onPort ?_; exact .refl _; exact .refl _; refine .iteL ?_ ?_
    refine .onPort ?_; exact .refl _; exact .refl _; refine .onPort ?_; exact .refl _; refine .onPort ?_; exact .refl _
    refine .trans ?_ (setL2_keeps ..); exact .refl _; refine .trans ?_ (flr_keeps ..); exact .refl _
theorem replayOvl_keeps (s : State) (mi sub : Nat) (trimmed remove : Bool) (pa psub seq : Nat) : Keeps s
    (replayOvl s mi sub trimmed remove pa psub seq) := by
  unfold replayOvl
  with_reducible
    dsimp only; refine .ite ?_ ?_; refine .onPath ?_; exact .refl _; split; refine .onPath ?_; exact .refl _; refine .onPath ?_
    refine .onPath ?_; exact .refl _
theorem loadSegment_keeps (s : State) (g : Segment) : Keeps s (loadSegment s g) := by
  unfold loadSegment
  with_reducible
    split; refine .foldl (fun _ _ => ?_) ?_; refine .trans ?_ (putMap_keeps ..); exact .refl _; exact .refl _; refine .onPath ?_
    exact .refl _; exact .refl _
theorem applyRec_keeps1 (gs : List Segment) (acc : State × Tbl Nat) (x : Nat × Option Rec × Bool) : Keeps acc.1
    (applyRec gs acc x).1 := by
  unfold applyRec
  with_reducible
    split; split; split; exact .refl _; dsimp only; refine .trans ?_ (putMap_keeps ..); exact .refl _; split; exact .refl _
    dsimp only; refine .trans ?_ (replayOvl_keeps ..); exact .refl _; exact .refl _
theorem applyHit_keeps (s : State) (h : Hit) : Keeps s (applyHit s h) := by
  unfold applyHit
  with_reducible
    split; exact .refl _; dsimp only; refine .ite ?_ ?_; exact .refl _; refine .ite ?_ ?_; refine .trans ?_ (jot_keeps ..)
    refine .trans ?_ (fixOverlayBit_keeps ..); refine .trans ?_ (replayOvl_keeps ..); exact .refl _; split
    refine .trans ?_ (jot_keeps ..); refine .trans ?_ (fixOverlayBit_keeps ..); refine .trans ?_ (replayOvl_keeps ..)
    refine .trans ?_ (jot_keeps ..); refine .trans ?_ (putMap_keeps ..); exact .refl _; refine .trans ?_ (jot_keeps ..)
    refine .trans ?_ (putMap_keeps ..); exact .refl _
theorem applyHits_keeps (s : State) (l : List Hit) : Keeps s (applyHits s l) := by
  unfold applyHits
  with_reducible (refine .foldl (fun _ _ => ?_) ?_; refine .trans ?_ (applyHit_keeps ..); exact .refl _; exact .refl _)
theorem recount_keeps (s : State) : Keeps s (recount s) := by
  unfold recount
  with_reducible (dsimp only; refine .onMedia ?_; exact .refl _)
theorem fixBits_keeps (s : State) : Keeps s (fixBits s) := by
  unfold fixBits
  with_reducible (refine .foldl (fun _ _ => ?_) ?_; refine .trans ?_ (fixOverlayBit_keeps ..); exact .refl _; exact .refl _)
theorem noteRec_keeps (s : State) (i : Nat) (on : Bool) : Keeps s (noteRec s i on) := by
  unfold noteRec
  with_reducible (refine .iteL ?_ ?_; refine .onJournal (fun _ => Nat.le_refl _) ?_; exact .refl _; exact .refl _)
theorem replay_keeps1 (s : State) (env : RecoveryEnv) : Keeps s (replay s env).1 := by
  unfold replay
  with_reducible
    dsimp only; refine .trans ?_ (recount_keeps ..); refine .trans ?_ (fixBits_keeps ..); refine .trans ?_ (noteRec_keeps ..)
    refine .trans ?_ (noteRec_keeps ..); refine .trans ?_ (noteRec_keeps ..); split; refine .trans ?_ (applyHits_keeps ..)
    refine .trans ?_ (fixBits_keeps ..); refine .foldl1 (fun _ _ => ?_) ?_; refine .trans ?_ (applyRec_keeps1 ..); exact .refl _
    dsimp only; refine .iteL ?_ ?_; refine .onBoot ?_; refine .trans ?_ (applyHits_keeps ..); exact .refl _
    refine .foldl (fun _ _ => ?_) ?_; refine .trans ?_ (loadSegment_keeps ..); exact .refl _; exact .refl _
    refine .foldl1 (fun _ _ => ?_) ?_; refine .trans ?_ (applyRec_keeps1 ..); exact .refl _; dsimp only; refine .iteL ?_ ?_
    refine .onBoot ?_; refine .trans ?_ (applyHits_keeps ..); exact .refl _; refine .foldl (fun _ _ => ?_) ?_
    refine .trans ?_ (loadSegment_keeps ..); exact .refl _; exact .refl _

theorem replay_keeps {s : State} {env : RecoveryEnv} {t : State} {r} (e : replay s env = (t, r)) : Keeps s t := by
  have k := replay_keeps1 s env
  rw [e] at k; exact k
theorem markUnclean_keeps (s : State) (key : Nat) : Keeps s (markUnclean s key) := by
  unfold markUnclean
  with_reducible
    split; exact .refl _; dsimp only; refine .iteR ?_ ?_; refine .ite ?_ ?_; refine .trans ?_ (replaceBlock_keeps ..)
    refine .trans ?_ (modBlock_keeps ..); refine .trans ?_ (jot_keeps ..); exact .refl _; refine .onMedia ?_
    refine .trans ?_ (modBlock_keeps ..); refine .trans ?_ (jot_keeps ..); exact .refl _; exact .refl _
theorem requeueSet_keeps (s : State) (r : RefugeSet) : Keeps s (requeueSet s r) := by
  unfold requeueSet
  with_reducible
    refine .iteL ?_ ?_; refine .foldl (fun _ _ => ?_) ?_; refine .trans ?_ (queueOp_keeps ..); exact .refl _; exact .refl _
    exact .refl _
theorem dropParity_keeps (s : State) (b : SuperBlock) (k j : Nat) : Keeps s (dropParity s b k j) := by
  unfold dropParity
  with_reducible (dsimp only; refine .onMedia ?_; exact .refl _)
theorem parityReads_keeps (env : RecoveryEnv) (b : SuperBlock) (s : State) (k : Nat) : Keeps s (parityReads env b s k) := by
  unfold parityReads
  with_reducible
    dsimp only; refine .iteR ?_ ?_; refine .trans ?_ (queueRelocation_keeps ..); refine .foldl (fun _ _ => ?_) ?_
    refine .trans ?_ (dropParity_keeps ..); exact .refl _; exact .refl _; exact .refl _
theorem readParity_keeps (env : RecoveryEnv) (s : State) (b : SuperBlock) : Keeps s (readParity env s b) := by
  unfold readParity
  with_reducible
    dsimp only; refine .foldl (fun _ _ => ?_) ?_; refine .trans ?_ (parityReads_keeps ..); exact .refl _
    refine .trans ?_ (modSb_keeps ..); exact .refl _
theorem closeFound_keeps (s : State) (b : SuperBlock) : Keeps s (closeFound s b) := by
  unfold closeFound
  with_reducible
    dsimp only; refine .trans ?_ (modSb_keeps ..); refine .iteL ?_ ?_; refine .trans ?_ (fdpEvent_keeps ..); exact .refl _
    refine .iteL ?_ ?_; refine .trans ?_ (fdpEvent_keeps ..); exact .refl _; refine .trans ?_ (jot_keeps ..); exact .refl _
theorem closeAllFound_keeps (s : State) (env : RecoveryEnv) : Keeps s (closeAllFound s env) := by
  unfold closeAllFound
  with_reducible
    dsimp only; refine .iteL ?_ ?_; refine .trans ?_ (fdpEvent_keeps ..); exact .refl _; refine .foldl (fun _ _ => ?_) ?_
    refine .trans ?_ (closeFound_keeps ..); exact .refl _; refine .foldl (fun _ _ => ?_) ?_
    refine .trans ?_ (readParity_keeps ..); exact .refl _; exact .refl _
theorem stageVersion_keeps (nums : Tbl Nat) (serial : Nat) (n : Namespace) (v : RefugeVer) (data : List (Nat × Blk))
    (s : State) : Keeps s (stageVersion nums serial n v data s) := by
  unfold stageVersion
  with_reducible
    dsimp only; split; refine .trans ?_ (modFlacon_keeps ..); refine .iteL ?_ ?_; refine .foldl (fun _ _ => ?_) ?_
    refine .trans ?_ (ovlReserve_keeps ..); exact .refl _; exact .refl _; refine .foldl (fun _ _ => ?_) ?_
    refine .trans ?_ (setApplied_keeps ..); exact .refl _; exact .refl _; refine .trans ?_ (modFlacon_keeps ..)
    refine .iteL ?_ ?_; refine .foldl (fun _ _ => ?_) ?_; refine .trans ?_ (ovlReserve_keeps ..); exact .refl _; exact .refl _
    refine .foldl (fun _ _ => ?_) ?_; refine .trans ?_ (setApplied_keeps ..); exact .refl _; exact .refl _
theorem restoreVersion_keeps (env : RecoveryEnv) (hits : List Hit) (nums : Tbl Nat) (serial : Nat) (s : State)
    (x : Nat × RefugeVer) : Keeps s (restoreVersion env hits nums serial s x) := by
  unfold restoreVersion
  with_reducible
    dsimp only; split; exact .refl _; refine .ite ?_ ?_; refine .trans ?_ (stageVersion_keeps ..); exact .refl _
    refine .ite ?_ ?_; refine .trans ?_ (stageVersion_keeps ..); exact .refl _; refine .trans ?_ (noteRec_keeps ..)
    refine .onBoot ?_; refine .trans ?_ (poisonIu_keeps ..); exact .refl _
theorem restoreSets_keeps (s : State) (env : RecoveryEnv) (nums : Tbl Nat) : Keeps s (restoreSets s env nums) := by
  unfold restoreSets
  with_reducible
    dsimp only; refine .trans ?_ (noteRec_keeps ..); refine .foldl (fun _ _ => ?_) ?_; refine .foldl (fun _ _ => ?_) ?_
    refine .trans ?_ (restoreVersion_keeps ..); exact .refl _; exact .refl _; exact .refl _
theorem checkTags_keeps (s : State) (env : RecoveryEnv) : Keeps s (checkTags s env) := by
  unfold checkTags
  with_reducible (dsimp only; refine .iteR ?_ ?_; refine .trans ?_ (countTags_keeps ..); exact .refl _; exact .refl _)
theorem setNumbers_keeps (s : State) : Keeps s (setNumbers s) := by
  unfold setNumbers
  with_reducible (dsimp only; refine .trans ?_ (jot_keeps ..); refine .onPath ?_; exact .refl _)
theorem judgeLosses_keeps (s : State) : Keeps s (judgeLosses s) := by
  unfold judgeLosses
  with_reducible
    refine .ite ?_ ?_; refine .trans ?_ (memberLoss_keeps ..); exact .refl _; refine .trans ?_ (checkPreserve_keeps ..)
    refine .iteL ?_ ?_; refine .onUpkeep (fun _ => Nat.le_refl _) ?_; exact .refl _; exact .refl _
theorem rebuildAgain_keeps (s : State) : Keeps s (rebuildAgain s) := by
  unfold rebuildAgain
  with_reducible (refine .onUpkeep (fun _ => Nat.le_refl _) ?_; exact .refl _)
theorem phaseAtStart_keeps (s : State) : Keeps s (phaseAtStart s) := by
  unfold phaseAtStart
  with_reducible (dsimp only; refine .iteR ?_ ?_; refine .onOwn (fun _ => rfl) ?_; exact .refl _; exact .refl _)
theorem sanitizeAgain_keeps (s : State) : Keeps s (sanitizeAgain s) := by
  unfold sanitizeAgain
  with_reducible
    refine .iteR ?_ ?_; refine .trans ?_ (trimAll_keeps ..); refine .trans ?_ (discardStaging_keeps ..)
    refine .onSec (fun _ => rfl) (fun _ => rfl) ?_; exact .refl _; exact .refl _
theorem drydownAgain_keeps (s : State) : Keeps s (drydownAgain s) := by
  unfold drydownAgain
  with_reducible
    refine .iteL ?_ ?_; refine .trans ?_ (drydownClose_keeps ..); refine .onUpkeep (fun _ => Nat.le_refl _) ?_; exact .refl _
    exact .refl _
theorem beReady_keeps (s : State) (env : RecoveryEnv) : Keeps s (beReady s env) := by
  unfold beReady
  with_reducible
    dsimp only; refine .iteL ?_ ?_; refine .trans ?_ (notice_keeps ..); exact .refl _
    refine .onJournal (fun _ => Nat.le_refl _) ?_; refine .onBoot ?_; refine .onBoth ?_
    refine .trans ?_ (refreshRefuge_keeps ..); refine .trans ?_ (phaseAtStart_keeps ..); refine .raw ?_; exact .refl _
theorem freshMap_keeps (s : State) : Keeps s (freshMap s) := by
  unfold freshMap
  with_reducible
    dsimp only; refine .iteR ?_ ?_; refine .trans ?_ (putAnchor_keeps ..); refine .onJournal (fun _ => Nat.le_refl _) ?_
    exact .refl _; exact .refl _
theorem restore_keeps (s : State) (env : RecoveryEnv) : Keeps s (restore s env) := by
  unfold restore
  with_reducible
    dsimp only; refine .iteL ?_ ?_; refine .trans ?_ (putAnchor_keeps ..); exact .refl _
    refine .trans ?_ (rebuildAgain_keeps ..); refine .trans ?_ (judgeLosses_keeps ..); refine .trans ?_ (setNumbers_keeps ..)
    refine .ite ?_ ?_; refine .trans ?_ (noteRec_keeps ..); refine .trans ?_ (closeAllFound_keeps ..)
    refine .trans ?_ (requeueSet_keeps ..); refine .trans ?_ (requeueSet_keeps ..); refine .trans ?_ (noteRec_keeps ..)
    refine .foldl (fun _ _ => ?_) ?_; refine .trans ?_ (markUnclean_keeps ..); exact .refl _
    refine .trans ?_ (replay_keeps1 ..); refine .trans ?_ (checkTags_keeps ..); refine .trans ?_ (freshMap_keeps ..)
    refine .iteR ?_ ?_; refine .trans ?_ (firstStart_keeps ..); exact .refl _; exact .refl _
    refine .trans ?_ (restoreSets_keeps ..); refine .trans ?_ (closeAllFound_keeps ..); refine .trans ?_ (requeueSet_keeps ..)
    refine .trans ?_ (requeueSet_keeps ..); refine .trans ?_ (noteRec_keeps ..); refine .foldl (fun _ _ => ?_) ?_
    refine .trans ?_ (markUnclean_keeps ..); exact .refl _; refine .trans ?_ (replay_keeps1 ..)
    refine .trans ?_ (checkTags_keeps ..); refine .trans ?_ (freshMap_keeps ..); refine .iteR ?_ ?_
    refine .trans ?_ (firstStart_keeps ..); exact .refl _; exact .refl _
theorem recover_keeps (s : State) (env : RecoveryEnv) : Keeps s (recover s env) := by
  unfold recover
  with_reducible
    refine .iteR ?_ ?_; refine .trans ?_ (drydownAgain_keeps ..); refine .trans ?_ (sanitizeAgain_keeps ..)
    refine .trans ?_ (takePs_keeps ..); refine .trans ?_ (beReady_keeps ..); refine .trans ?_ (restore_keeps ..); exact .refl _
    exact .refl _
theorem boardWrites_keeps (s : State) (l : List (Nat × BitVec 8)) : Keeps s (boardWrites s l) := by
  unfold boardWrites
  refine Keeps.spiPut (fun w => ?_) (.refl s)
  generalize l.filter _ = l
  generalize s.spi = m at w
  induction l generalizing m with
  | nil => exact w
  | cons x xs ih => exact ih _ (memPut_wf w _ _)
theorem sampleStraps_keeps (s : State) (env : StartEnv) : Keeps s (sampleStraps s env) := by
  unfold sampleStraps
  with_reducible (refine .onBoot ?_; exact .refl _)
theorem suppliesRise_keeps (s : State) (env : StartEnv) (board : List (Nat × BitVec 8)) : Keeps s (suppliesRise s env board)
    := by
  unfold suppliesRise
  with_reducible
    refine .ite ?_ ?_; exact .refl _; dsimp only; refine .ite ?_ ?_; refine .raw ?_; refine .trans ?_ (sampleStraps_keeps ..)
    refine .trans ?_ (boardWrites_keeps ..); exact .refl _; refine .trans ?_ (startUp_keeps ..)
    refine .trans ?_ (sampleStraps_keeps ..); refine .trans ?_ (boardWrites_keeps ..); exact .refl _
theorem supplyFalls_keeps (s : State) : Keeps s (supplyFalls s) := by
  unfold supplyFalls
  with_reducible (refine .onBoot ?_; refine .trans ?_ (enterReset_keeps ..); exact .refl _)
theorem leavesWindow_keeps (s : State) (vio above : Bool) : Keeps s (leavesWindow s vio above) := by
  unfold leavesWindow
  with_reducible
    dsimp only; refine .iteR ?_ ?_; refine .trans ?_ (fire_keeps ..)
    refine .onHk (by intro x; first | (split <;> exact Nat.le_refl _) | (split <;> (try split) <;> exact Nat.le_refl _)) ?_
    exact .refl _; exact .refl _
theorem returnsToWindow_keeps (s : State) (vio : Bool) : Keeps s (returnsToWindow s vio) := by
  unfold returnsToWindow
  with_reducible
    refine .onHk (by intro x; first | (split <;> exact Nat.le_refl _) | (split <;> (try split) <;> exact Nat.le_refl _)) ?_
    exact .refl _
theorem powerFails_keeps (s : State) : Keeps s (powerFails s) := by
  unfold powerFails
  with_reducible
    refine .ite ?_ ?_; dsimp only; refine .raw ?_; refine .trans ?_ (beginFlush_keeps ..); exact .refl _; dsimp only
    refine .raw ?_; refine .trans ?_ (noFlush_keeps ..); exact .refl _
theorem pwrFailLow_keeps (s : State) : Keeps s (pwrFailLow s) := by
  unfold pwrFailLow
  with_reducible
    dsimp only; split; refine .iteR ?_ ?_; refine .trans ?_ (powerFails_keeps ..); exact .refl _
    refine .onJournal (fun _ => Nat.le_refl _) ?_; exact .refl _; refine .iteR ?_ ?_; refine .trans ?_ (powerFails_keeps ..)
    exact .refl _; refine .onJournal (fun _ => Nat.le_refl _) ?_; exact .refl _; refine .iteR ?_ ?_
    refine .trans ?_ (powerFails_keeps ..); exact .refl _; refine .onJournal (fun _ => Nat.le_refl _) ?_; exact .refl _
    refine .onJournal (fun _ => Nat.le_refl _) ?_; exact .refl _
theorem pwrFailHigh_keeps (s : State) (env : StartEnv) : Keeps s (pwrFailHigh s env) := by
  unfold pwrFailHigh
  with_reducible
    dsimp only; refine .iteL ?_ ?_; refine .trans ?_ (startUp_keeps ..); refine .trans ?_ (enterReset_keeps ..); exact .refl _
    refine .onJournal (fun _ => Nat.le_refl _) ?_; exact .refl _
theorem pfWaitEnds_keeps (s : State) (env : StartEnv) : Keeps s (pfWaitEnds s env) := by
  unfold pfWaitEnds
  with_reducible
    refine .ite ?_ ?_; refine .trans ?_ (discover_keeps ..); dsimp only; refine .raw ?_
    refine .onJournal (fun _ => Nat.le_refl _) ?_; exact .refl _; exact .refl _
theorem porFalls_keeps (s : State) : Keeps s (porFalls s) := by
  unfold porFalls
  with_reducible
    refine .ite ?_ ?_; exact .refl _; dsimp only; split; refine .onBoot ?_; exact .refl _; refine .onBoot ?_; exact .refl _
    refine .onJournal (fun _ => Nat.le_refl _) ?_; refine .onBoot ?_; exact .refl _; refine .ite ?_ ?_
    refine .onJournal (fun _ => Nat.le_refl _) ?_; refine .onBoot ?_; exact .refl _; refine .ite ?_ ?_
    refine .trans ?_ (holdInReset_keeps ..); refine .onBoot ?_; exact .refl _; refine .onJournal (fun _ => Nat.le_refl _) ?_
    refine .raw ?_; refine .trans ?_ (beginFlush_keeps ..); refine .onBoot ?_; exact .refl _
theorem porRises_keeps (s : State) (env : StartEnv) (board : List (Nat × BitVec 8)) : Keeps s (porRises s env board) := by
  unfold porRises
  with_reducible
    split; dsimp only; refine .trans ?_ (startUp_keeps ..); refine .onBoot ?_; refine .trans ?_ (boardWrites_keeps ..)
    exact .refl _; refine .onBoot ?_; refine .trans ?_ (boardWrites_keeps ..); exact .refl _; exact .refl _
theorem notifyShutdown_keeps (s : State) (p : PortId) : Keeps s (notifyShutdown s p) := by
  unfold notifyShutdown
  with_reducible
    refine .iteR ?_ ?_; refine .ite ?_ ?_; refine .onPort ?_; exact .refl _; refine .trans ?_ (closeUpTo_keeps ..)
    refine .onPort ?_; exact .refl _; exact .refl _
theorem markClean_keeps (s : State) : Keeps s (markClean s) := by
  unfold markClean
  with_reducible (refine .trans ?_ (putAnchor_keeps ..); refine .trans ?_ (closeChunk_keeps ..); exact .refl _)
theorem shutdownEnds_keeps (s : State) : Keeps s (shutdownEnds s) := by
  unfold shutdownEnds
  with_reducible
    refine .iteR ?_ ?_; refine .trans ?_ (markClean_keeps ..); refine .onPort ?_; refine .trans ?_ (advanceHorizon_keeps ..)
    exact .refl _; exact .refl _
theorem subsystemResetFrom_keeps (s : State) (cause : Nat) : Keeps s (subsystemResetFrom s cause) := by
  unfold subsystemResetFrom
  with_reducible
    split; dsimp only; refine .iteR ?_ ?_; refine .raw ?_; refine .iteR ?_ ?_; refine .trans ?_ (closeUpTo_keeps ..)
    exact .refl _; refine .onBoot ?_; refine .trans ?_ (stopPorts_keeps ..); exact .refl _; exact .refl _; dsimp only
    refine .iteR ?_ ?_; refine .raw ?_; refine .iteR ?_ ?_; refine .trans ?_ (closeUpTo_keeps ..); exact .refl _
    refine .onBoot ?_; refine .trans ?_ (stopPorts_keeps ..); exact .refl _; exact .refl _; dsimp only; refine .iteR ?_ ?_
    refine .raw ?_; refine .iteR ?_ ?_; refine .trans ?_ (closeUpTo_keeps ..); exact .refl _; refine .onBoot ?_
    refine .trans ?_ (stopPorts_keeps ..); exact .refl _; exact .refl _; dsimp only; refine .iteR ?_ ?_; refine .raw ?_
    refine .iteR ?_ ?_; refine .trans ?_ (closeUpTo_keeps ..); exact .refl _; refine .onBoot ?_
    refine .trans ?_ (stopPorts_keeps ..); exact .refl _; exact .refl _; exact .refl _
theorem writeNssr_keeps (s : State) (p : PortId) : Keeps s (writeNssr s p) := by
  unfold writeNssr
  with_reducible (refine .iteL ?_ ?_; refine .trans ?_ (subsystemResetFrom_keeps ..); exact .refl _; exact .refl _)
theorem stagingWritten_keeps (s : State) (env : StartEnv) : Keeps s (stagingWritten s env) := by
  unfold stagingWritten
  with_reducible
    dsimp only; refine .iteR ?_ ?_; refine .onBoth ?_; refine .trans ?_ (startUp_keeps ..)
    refine .trans ?_ (enterReset_keeps ..); refine .iteL ?_ ?_; refine .trans ?_ (markClean_keeps ..)
    refine .trans ?_ (advanceHorizon_keeps ..); exact .refl _; exact .refl _; exact .refl _
theorem idleSelects_keeps (s : State) (p : PortId) (ps : Nat) : Keeps s (idleSelects s p ps) := by
  unfold idleSelects
  with_reducible
    dsimp only; refine .iteR ?_ ?_; refine .trans ?_ (takePs_keeps ..); refine .onPort ?_; exact .refl _; exact .refl _
theorem entryEnds_keeps (s : State) : Keeps s (entryEnds s) := by
  unfold entryEnds
  with_reducible
    split; exact .refl _; refine .ite ?_ ?_; exact .refl _; dsimp only; refine .trans ?_ (takePs_keeps ..); refine .iteL ?_ ?_
    refine .trans ?_ (selfRefreshAll_keeps ..); refine .trans ?_ (advanceHorizon_keeps ..); exact .refl _; refine .onMisc ?_
    exact .refl _
theorem exitEnds_keeps (s : State) : Keeps s (exitEnds s) := by
  unfold exitEnds
  with_reducible
    split; exact .refl _; dsimp only; refine .trans ?_ (takePs_keeps ..); refine .onMisc ?_; refine .raw ?_; exact .refl _
theorem owedDone_keeps (s : State) (p : PortId) (cid : Option Nat) (st : Status) : Keeps s (owedDone s p cid st) := by
  unfold owedDone
  with_reducible (split; refine .trans ?_ (adminDone_keeps ..); exact .refl _; exact .refl _)
theorem clearBuffer_keeps (s : State) : Keeps s (clearBuffer s) := by
  unfold clearBuffer
  with_reducible (refine .raw ?_; exact .refl _)
theorem download_keeps (a : AdminId) (offset : Nat) (data : List (BitVec 8)) (s : State) : Keeps s (download a offset data s)
    := by
  unfold download
  with_reducible
    refine .ite ?_ ?_; refine .trans ?_ (adminDone_keeps ..); exact .refl _; refine .ite ?_ ?_
    refine .trans ?_ (adminDone_keeps ..); exact .refl _; dsimp only; refine .trans ?_ (adminDone_keeps ..); refine .raw ?_
    exact .refl _
theorem eraseRecord_keeps (s : State) (target : Nat) : Keeps s (eraseRecord s target) :=
  Keeps.spiPut (fun w => memErase_wf w _ _) (.refl s)
theorem commitWith_keeps (a : AdminId) (action fs : Nat) (s : State) : Keeps s (commitWith a action fs s) := by
  unfold commitWith
  with_reducible
    dsimp only; refine .ite ?_ ?_; refine .trans ?_ (adminDone_keeps ..); exact .refl _; refine .ite ?_ ?_
    refine .trans ?_ (adminDone_keeps ..); exact .refl _; refine .ite ?_ ?_; refine .trans ?_ (adminDone_keeps ..)
    exact .refl _; refine .ite ?_ ?_; refine .trans ?_ (adminDone_keeps ..); refine .iteR ?_ ?_
    refine .trans ?_ (clearBuffer_keeps ..); exact .refl _; exact .refl _; refine .raw ?_
    refine .trans ?_ (eraseRecord_keeps ..); exact .refl _
theorem endCommit_keeps (s : State) (c : Commit) (st : Status) : Keeps s (endCommit s c st) := by
  unfold endCommit
  with_reducible
    dsimp only; refine .trans ?_ (owedDone_keeps ..); refine .iteR ?_ ?_; refine .trans ?_ (clearBuffer_keeps ..); exact .refl _
    refine .raw ?_; exact .refl _
theorem commitFails_keeps (s : State) (c : Commit) : Keeps s (commitFails s c) := by
  unfold commitFails
  with_reducible (refine .trans ?_ (endCommit_keeps ..); refine .trans ?_ (eraseRecord_keeps ..); exact .refl _)
theorem commitSelected_keeps (s : State) (c : Commit) : Keeps s (commitSelected s c) := by
  unfold commitSelected
  with_reducible
    refine .ite ?_ ?_; refine .trans ?_ (endCommit_keeps ..); exact .refl _; refine .ite ?_ ?_
    refine .trans ?_ (endCommit_keeps ..); exact .refl _; dsimp only; refine .raw ?_; refine .onBoth ?_
    refine .trans ?_ (clearBuffer_keeps ..); refine .raw ?_; exact .refl _
theorem commitStep_keeps (s : State) (c : Commit) : Keeps s (commitStep s c) := by
  unfold commitStep
  dsimp only
  split
  · split
    · exact Keeps.raw (.refl s)
    · exact Keeps.spiPut (fun w => memErase_wf w _ _) (.refl s)
  · exact Keeps.spiPut (fun w => memWrite_wf w _ _) (.refl s)
  · exact Keeps.raw (.refl s)
  · exact (Keeps.spiPut (fun w => memWrite_wf w _ _) (.refl s)).trans (commitSelected_keeps ..)
theorem spiStepEnds_keeps (s : State) (r : SpiStepEnd) : Keeps s (spiStepEnds s r) := by
  unfold spiStepEnds
  with_reducible
    split; exact .refl _; refine .ite ?_ ?_; exact .refl _; split; refine .trans ?_ (commitStep_keeps ..); exact .refl _
    refine .trans ?_ (commitFails_keeps ..); exact .refl _; refine .iteL ?_ ?_; refine .trans ?_ (commitFails_keeps ..)
    exact .refl _; exact .refl _
theorem resumeFetch_keeps (s : State) : Keeps s (resumeFetch s) := by
  unfold resumeFetch
  with_reducible (dsimp only; refine .onBoth ?_; exact .refl _)
theorem endActivation_keeps (s : State) (x : Activation) (st : Status) : Keeps s (endActivation s x st) := by
  unfold endActivation
  with_reducible
    refine .trans ?_ (owedDone_keeps ..); refine .trans ?_ (resumeFetch_keeps ..); refine .raw ?_; exact .refl _
theorem activate_keeps (s : State) (c : Nat) : Keeps s (activate s c) := by
  unfold activate
  with_reducible (dsimp only; refine .onSec (fun _ => rfl) (fun _ => rfl) ?_; refine .raw ?_; exact .refl _)
theorem drainEnds_keeps (s : State) : Keeps s (drainEnds s) := by
  unfold drainEnds
  with_reducible
    split; exact .refl _; refine .iteR ?_ ?_; refine .ite ?_ ?_; refine .trans ?_ (endActivation_keeps ..); exact .refl _
    refine .trans ?_ (endActivation_keeps ..); refine .trans ?_ (activate_keeps ..); exact .refl _; exact .refl _
theorem drainTooLong_keeps (s : State) : Keeps s (drainTooLong s) := by
  unfold drainTooLong
  with_reducible
    split; exact .refl _; refine .iteL ?_ ?_; refine .trans ?_ (endActivation_keeps ..); exact .refl _; exact .refl _
theorem vendorEnd_keeps (s : State) (a : AdminId) (q : VendorReq) (st : Status) (dw0 : BitVec 32) : Keeps s
    (vendorEnd s a q st dw0) := by
  unfold vendorEnd
  with_reducible (refine .trans ?_ (vendorDone_keeps ..); exact .refl _)
theorem refuseClaim_keeps (s : State) (a : AdminId) (q : VendorReq) : Keeps s (refuseClaim s a q) := by
  unfold refuseClaim
  with_reducible (refine .trans ?_ (vendorEnd_keeps ..); exact .refl _)
theorem countForceFail_keeps (s : State) (p : PortId) : Keeps s (countForceFail s p) := by
  unfold countForceFail
  with_reducible (refine .onPort ?_; exact .refl _)
theorem endAtT0_keeps (down : Bool) (s : State) (c : OutCmd) : Keeps s (endAtT0 down s c) := by
  unfold endAtT0
  with_reducible
    refine .ite ?_ ?_; refine .trans ?_ (endSilently_keeps ..); exact .refl _; refine .trans ?_ (failWrite_keeps ..)
    exact .refl _
theorem startHandover_keeps (s : State) (a : AdminId) (q : VendorReq) : Keeps s (startHandover s a q) := by
  unfold startHandover
  with_reducible
    dsimp only; refine .foldl (fun _ _ => ?_) ?_; refine .trans ?_ (endAtT0_keeps ..); exact .refl _
    refine .onOwn (fun _ => rfl) ?_; exact .refl _
theorem endUnlockOf_none {s : State} (h : unlockOwned s = true) : (endUnlockOf s s.own.owner).sec.unlock = none := by
  unfold unlockOwned at h
  unfold endUnlockOf
  split
  · rename_i u e
    rw [e] at h
    simp only [decide_eq_true_eq] at h
    rw [if_pos h]; rfl
  · assumption
theorem evalClaim_keeps (a : AdminId) (q : VendorReq) (force : Bool) (key : BitVec 256) (s : State) : Keeps s
    (evalClaim a q force key s) := by
  unfold evalClaim
  with_reducible
    dsimp only; refine .ite ?_ ?_; refine .trans ?_ (vendorEnd_keeps ..); refine .iteL ?_ ?_; refine .onOwn (fun _ => rfl) ?_
    exact .refl _; exact .refl _; refine .ite ?_ ?_; refine .trans ?_ (refuseClaim_keeps ..); exact .refl _; refine .ite ?_ ?_
    refine .trans ?_ (refuseClaim_keeps ..); exact .refl _; refine .ite ?_ ?_; refine .trans ?_ (startHandover_keeps ..)
    refine .onPort ?_; exact .refl _; refine .ite ?_ ?_; refine .trans ?_ (refuseClaim_keeps ..)
    refine .trans ?_ (countForceFail_keeps ..); exact .refl _; refine .ite ?_ ?_; refine .trans ?_ (startHandover_keeps ..)
    exact .refl _; refine .trans ?_ (refuseClaim_keeps ..); exact .refl _
theorem ownCmd_keeps (a : AdminId) (go : State → State) (s : State) (hgo : ∀ s, Keeps s (go s)) : Keeps s (ownCmd a go s) := by
  unfold ownCmd
  with_reducible
    refine .ite ?_ ?_; refine .trans ?_ (hgo _); exact .refl _; refine .trans ?_ (prpOnly_keeps _ _ _ (fun _ => ?_))
    exact .refl _; refine .trans ?_ (hgo _); exact .refl _
theorem claim_keeps (a : AdminId) (token : Nat) (force : Bool) (key : BitVec 256) (bad : Bool) (s : State) : Keeps s
    (claim a token force key bad s) := by
  unfold claim
  with_reducible
    dsimp only; refine .trans ?_ (ownCmd_keeps _ _ _ (fun _ => ?_)); exact .refl _
    refine .trans ?_ (vendorCmd_keeps _ _ _ _ _ _ _ _ _ (fun _ => ?_)); exact .refl _; refine .trans ?_ (evalClaim_keeps ..)
    exact .refl _
theorem release_keeps (a : AdminId) (token : Nat) (bad : Bool) (s : State) : Keeps s (release a token bad s) := by
  unfold release
  with_reducible
    dsimp only; refine .trans ?_ (ownCmd_keeps _ _ _ (fun _ => ?_)); exact .refl _
    refine .trans ?_ (vendorCmd_keeps _ _ _ _ _ _ _ _ _ (fun _ => ?_)); exact .refl _; refine .trans ?_ (vendorEnd_keeps ..)
    refine .onOwn (fun _ => rfl) ?_; exact .refl _
theorem tiedCmd_keeps (p : PortId) (c : OwnCmd) (s : State) : Keeps s (tiedCmd p c s) := by
  unfold tiedCmd
  with_reducible
    split; refine .trans ?_ (claim_keeps ..); exact .refl _; refine .trans ?_ (release_keeps ..); exact .refl _
theorem tiedIfLive_keeps (p : PortId) (c : OwnCmd) (s : State) : Keeps s (tiedIfLive p c s) := by
  unfold tiedIfLive
  with_reducible (refine .iteL ?_ ?_; refine .trans ?_ (tiedCmd_keeps ..); exact .refl _; exact .refl _)
theorem withTie_keeps (a : AdminId) (tie : Option OwnCmd) (me : State → State) (s : State) (hme : ∀ s, Keeps s (me s)) : Keeps
    s (withTie a tie me s) := by
  unfold withTie
  with_reducible
    split; refine .trans ?_ (hme _); exact .refl _; dsimp only; refine .ite ?_ ?_; refine .trans ?_ (hme _); exact .refl _
    refine .ite ?_ ?_; refine .trans ?_ (tiedCmd_keeps ..); refine .trans ?_ (hme _); exact .refl _; refine .ite ?_ ?_
    refine .trans ?_ (tiedCmd_keeps ..); refine .trans ?_ (hme _); refine .trans ?_ (fire_keeps ..)
    refine .onOwn (fun _ => rfl) ?_; exact .refl _; refine .trans ?_ (hme _); refine .trans ?_ (tiedCmd_keeps ..)
    refine .trans ?_ (fire_keeps ..); refine .onOwn (fun _ => rfl) ?_; exact .refl _
theorem holdExpires_keeps (s : State) : Keeps s (holdExpires s) := by
  unfold holdExpires
  with_reducible (split; refine .iteL ?_ ?_; refine .onOwn (fun _ => rfl) ?_; exact .refl _; exact .refl _; exact .refl _)
theorem forceLockEnds_keeps (s : State) (p : PortId) : Keeps s (forceLockEnds s p) := by
  unfold forceLockEnds
  with_reducible (refine .onPort ?_; exact .refl _)
theorem startDrydown_keeps (a : AdminId) (q : VendorReq) (s : State) : Keeps s (startDrydown a q s) := by
  unfold startDrydown
  with_reducible
    dsimp only; refine .ite ?_ ?_; refine .trans ?_ (vendorEnd_keeps ..); exact .refl _; refine .ite ?_ ?_
    refine .trans ?_ (vendorEnd_keeps ..); exact .refl _; refine .trans ?_ (vendorEnd_keeps ..)
    refine .trans ?_ (refuseWaitingWrites_keeps ..); refine .trans ?_ (enterDrydown_keeps ..)
    refine .onUpkeep (fun _ => Nat.le_refl _) ?_; exact .refl _
theorem stopDrydown_keeps (a : AdminId) (q : VendorReq) (s : State) : Keeps s (stopDrydown a q s) := by
  unfold stopDrydown
  with_reducible
    dsimp only; refine .ite ?_ ?_; refine .ite ?_ ?_; refine .trans ?_ (vendorEnd_keeps ..); exact .refl _
    refine .trans ?_ (vendorEnd_keeps ..); refine .trans ?_ (endDrydown_keeps ..); exact .refl _; refine .ite ?_ ?_
    refine .ite ?_ ?_; refine .trans ?_ (vendorEnd_keeps ..); exact .refl _; refine .trans ?_ (vendorEnd_keeps ..)
    refine .trans ?_ (putAnchor_keeps ..); refine .raw ?_; exact .refl _; refine .trans ?_ (vendorEnd_keeps ..); exact .refl _
theorem noteIfRefused_keeps (s : State) (a : AdminId) (q : VendorReq) : Keeps s (noteIfRefused s a q) := by
  unfold noteIfRefused
  with_reducible (refine .iteL ?_ ?_; refine .trans ?_ (noteRefused_keeps ..); exact .refl _; exact .refl _)
theorem drydownCmd_keeps (a : AdminId) (token action : Nat) (bad : Bool) (i : Instr) (go : VendorReq → State → State)
    (s : State) (hgo : ∀ x0 s, Keeps s (go x0 s)) : Keeps s (drydownCmd a token action bad i go s) := by
  unfold drydownCmd
  with_reducible
    dsimp only; refine .trans ?_ (adminCmd_keeps _ _ _ _ _ (fun _ => ?_)); refine .trans ?_ (noteIfRefused_keeps ..)
    exact .refl _; refine .ite ?_ ?_; refine .trans ?_ (holdAdmin_keeps ..); exact .refl _
    refine .trans ?_ (vendorCmd_keeps _ _ _ _ _ _ _ _ _ (fun _ => ?_)); exact .refl _; refine .trans ?_ (hgo _ _); exact .refl _
theorem settleWrite_keeps (s : State) (c : OutCmd) : Keeps s (settleWrite s c) := by
  unfold settleWrite
  with_reducible
    refine .ite ?_ ?_; exact .refl _; refine .ite ?_ ?_; refine .trans ?_ (endSilently_keeps ..); exact .refl _
    refine .ite ?_ ?_; dsimp only; refine .trans ?_ (protectWrite_keeps ..); refine .foldl (fun _ _ => ?_) ?_
    refine .trans ?_ (trimNow_keeps ..); exact .refl _; refine .trans ?_ (modSubs_keeps ..); exact .refl _
    refine .trans ?_ (failWrite_keeps ..); exact .refl _
theorem releaseHeld_keeps (s : State) (p : PortId) : Keeps s (releaseHeld s p) := by
  unfold releaseHeld
  with_reducible
    refine .foldl (fun _ _ => ?_) ?_; refine .ite ?_ ?_; refine .trans ?_ (modCmd_keeps ..); exact .refl _
    refine .trans ?_ (ioDone_keeps ..); exact .refl _; exact .refl _
theorem settled_keeps {s : State} {o : Host.Outcome State Fault Refusal} (h : ∀ t, o = .next t → Keeps s t) : Keeps s
    (settled s o) := by
  unfold settled
  split
  · exact h _ rfl
  · exact .refl s
theorem execSetFeatures_keeps {a : AdminId} {fid value : Nat} {s : State} {t : State}
    (e : execSetFeatures a fid value s = .next t) : Keeps s t := by
  unfold execSetFeatures at e
  cases e
  with_reducible
    refine .trans ?_ (adminCmd_keeps _ _ _ _ _ (fun _ => ?_)); exact .refl _; refine .trans ?_ (runSetFeatures_keeps ..)
    exact .refl _
theorem execSetFeaturesFdp_keeps {a : AdminId} {enable : Bool} {s : State} {t : State}
    (e : execSetFeaturesFdp a enable s = .next t) : Keeps s t := by
  unfold execSetFeaturesFdp at e
  cases e
  with_reducible
    refine .trans ?_ (adminCmd_keeps _ _ _ _ _ (fun _ => ?_)); exact .refl _; refine .trans ?_ (setFdp_keeps ..); exact .refl _
theorem execSetFeaturesVwc_keeps {a : AdminId} {enable : Bool} {s : State} {t : State}
    (e : execSetFeaturesVwc a enable s = .next t) : Keeps s t := by
  unfold execSetFeaturesVwc at e
  cases e
  with_reducible
    refine .trans ?_ (adminCmd_keeps _ _ _ _ _ (fun _ => ?_)); exact .refl _; refine .trans ?_ (setCache_keeps ..)
    exact .refl _
theorem execSetFeaturesHctm_keeps {a : AdminId} {tmt1 tmt2 : Nat} {s : State} {t : State}
    (e : execSetFeaturesHctm a tmt1 tmt2 s = .next t) : Keeps s t := by
  unfold execSetFeaturesHctm at e
  cases e
  with_reducible
    refine .trans ?_ (adminCmd_keeps _ _ _ _ _ (fun _ => ?_)); exact .refl _; refine .trans ?_ (setThermal_keeps ..)
    exact .refl _
theorem execSetFeaturesTimestamp_keeps {a : AdminId} {ms : Nat} {s : State} {t : State}
    (e : execSetFeaturesTimestamp a ms s = .next t) : Keeps s t := by
  unfold execSetFeaturesTimestamp at e
  cases e
  with_reducible
    refine .trans ?_ (adminCmd_keeps _ _ _ _ _ (fun _ => ?_)); exact .refl _; refine .trans ?_ (setStamp_keeps ..)
    exact .refl _
theorem execFirmwareImageDownload_keeps {a : AdminId} {offset : Nat} {data : List (BitVec 8)} {s : State} {t : State}
    (e : execFirmwareImageDownload a offset data s = .next t) : Keeps s t := by
  unfold execFirmwareImageDownload at e
  cases e
  with_reducible
    refine .trans ?_ (adminCmd_keeps _ _ _ _ _ (fun _ => ?_)); exact .refl _; refine .trans ?_ (download_keeps ..)
    exact .refl _
theorem execFirmwareCommit0_keeps {a : AdminId} {fs : Nat} {s : State} {t : State} (e : execFirmwareCommit0 a fs s = .next t)
    : Keeps s t := by
  unfold execFirmwareCommit0 at e
  cases e
  with_reducible
    refine .trans ?_ (adminCmd_keeps _ _ _ _ _ (fun _ => ?_)); exact .refl _; refine .trans ?_ (commitWith_keeps ..)
    exact .refl _
theorem execFirmwareCommit1_keeps {a : AdminId} {fs : Nat} {s : State} {t : State} (e : execFirmwareCommit1 a fs s = .next t)
    : Keeps s t := by
  unfold execFirmwareCommit1 at e
  cases e
  with_reducible
    refine .trans ?_ (adminCmd_keeps _ _ _ _ _ (fun _ => ?_)); exact .refl _; refine .trans ?_ (commitWith_keeps ..)
    exact .refl _
theorem execFirmwareCommit2_keeps {a : AdminId} {fs : Nat} {s : State} {t : State} (e : execFirmwareCommit2 a fs s = .next t)
    : Keeps s t := by
  unfold execFirmwareCommit2 at e
  cases e
  with_reducible
    refine .trans ?_ (adminCmd_keeps _ _ _ _ _ (fun _ => ?_)); exact .refl _; refine .trans ?_ (commitWith_keeps ..)
    exact .refl _
theorem execFirmwareCommit3_keeps {a : AdminId} {fs : Nat} {s : State} {t : State} (e : execFirmwareCommit3 a fs s = .next t)
    : Keeps s t := by
  unfold execFirmwareCommit3 at e
  cases e
  with_reducible
    refine .trans ?_ (adminCmd_keeps _ _ _ _ _ (fun _ => ?_)); exact .refl _; refine .trans ?_ (commitWith_keeps ..)
    exact .refl _
theorem execNamespaceCreate_keeps {a : AdminId} {nsze flbas : Nat} {handles : List Nat} {s : State} {t : State}
    (e : execNamespaceCreate a nsze flbas handles s = .next t) : Keeps s t := by
  unfold execNamespaceCreate at e
  cases e
  with_reducible
    refine .trans ?_ (adminCmd_keeps _ _ _ _ _ (fun _ => ?_)); exact .refl _; refine .trans ?_ (createNs_keeps ..)
    exact .refl _
theorem execNamespaceDelete_keeps {a : AdminId} {nsid : Nat} {s : State} {t : State}
    (e : execNamespaceDelete a nsid s = .next t) : Keeps s t := by
  unfold execNamespaceDelete at e
  cases e
  with_reducible
    refine .trans ?_ (adminCmd_keeps _ _ _ _ _ (fun _ => ?_)); exact .refl _; refine .trans ?_ (deleteNs_keeps ..)
    exact .refl _
theorem execNamespaceAttach_keeps {a : AdminId} {nsid : Nat} {ctrls : List Nat} {s : State} {t : State}
    (e : execNamespaceAttach a nsid ctrls s = .next t) : Keeps s t := by
  unfold execNamespaceAttach at e
  cases e
  with_reducible
    refine .trans ?_ (adminCmd_keeps _ _ _ _ _ (fun _ => ?_)); exact .refl _; refine .trans ?_ (setAttached_keeps ..)
    exact .refl _
theorem execNamespaceDetach_keeps {a : AdminId} {nsid : Nat} {ctrls : List Nat} {s : State} {t : State}
    (e : execNamespaceDetach a nsid ctrls s = .next t) : Keeps s t := by
  unfold execNamespaceDetach at e
  cases e
  with_reducible
    refine .trans ?_ (adminCmd_keeps _ _ _ _ _ (fun _ => ?_)); exact .refl _; refine .trans ?_ (setAttached_keeps ..)
    exact .refl _
theorem execFormatNvm_keeps {a : AdminId} {nsid ses lbaf : Nat} {s : State} {t : State}
    (e : execFormatNvm a nsid ses lbaf s = .next t) : Keeps s t := by
  unfold execFormatNvm at e
  cases e
  with_reducible
    refine .trans ?_ (adminCmd_keeps _ _ _ _ _ (fun _ => ?_)); exact .refl _; refine .trans ?_ (formatNs_keeps ..)
    exact .refl _
theorem execSanitizeCryptoErase_keeps {a : AdminId} {s : State} {t : State} (e : execSanitizeCryptoErase a s = .next t) :
    Keeps s t := by
  unfold execSanitizeCryptoErase at e
  cases e
  with_reducible
    refine .trans ?_ (adminCmd_keeps _ _ _ _ _ (fun _ => ?_)); exact .refl _; refine .trans ?_ (startSanitize_keeps ..)
    exact .refl _
theorem execSanitizeBlockErase_keeps {a : AdminId} {s : State} {t : State} (e : execSanitizeBlockErase a s = .next t) : Keeps
    s t := by
  unfold execSanitizeBlockErase at e
  cases e
  with_reducible
    refine .trans ?_ (adminCmd_keeps _ _ _ _ _ (fun _ => ?_)); exact .refl _; refine .trans ?_ (startSanitize_keeps ..)
    exact .refl _
theorem execDeviceSelfTest_keeps {a : AdminId} {stc : Nat} {s : State} {t : State} (e : execDeviceSelfTest a stc s = .next t)
    : Keeps s t := by
  unfold execDeviceSelfTest at e
  cases e
  with_reducible
    refine .trans ?_ (adminCmd_keeps _ _ _ _ _ (fun _ => ?_)); exact .refl _; refine .trans ?_ (runSelfTest_keeps ..)
    exact .refl _
theorem execDrydownControlStart_keeps {a : AdminId} {token : Nat} {reservedBad : Bool} {s : State} {t : State}
    (e : execDrydownControlStart a token reservedBad s = .next t) : Keeps s t := by
  unfold execDrydownControlStart at e
  cases e
  with_reducible
    refine .trans ?_ (drydownCmd_keeps _ _ _ _ _ _ _ (fun _ _ => ?_)); exact .refl _; refine .trans ?_ (startDrydown_keeps ..)
    exact .refl _
theorem execDrydownControlStop_keeps {a : AdminId} {token : Nat} {reservedBad : Bool} {s : State} {t : State}
    (e : execDrydownControlStop a token reservedBad s = .next t) : Keeps s t := by
  unfold execDrydownControlStop at e
  cases e
  with_reducible
    refine .trans ?_ (drydownCmd_keeps _ _ _ _ _ _ _ (fun _ _ => ?_)); exact .refl _; refine .trans ?_ (stopDrydown_keeps ..)
    exact .refl _
theorem runHeld_keeps (s : State) (i : Instr) : Keeps s (runHeld s i) := by
  unfold runHeld
  split
  · exact settled_keeps fun _ e => execSetFeatures_keeps e
  · exact settled_keeps fun _ e => execSetFeaturesFdp_keeps e
  · exact settled_keeps fun _ e => execSetFeaturesVwc_keeps e
  · exact settled_keeps fun _ e => execSetFeaturesHctm_keeps e
  · exact settled_keeps fun _ e => execSetFeaturesTimestamp_keeps e
  · exact settled_keeps fun _ e => execFirmwareImageDownload_keeps e
  · exact settled_keeps fun _ e => execFirmwareCommit0_keeps e
  · exact settled_keeps fun _ e => execFirmwareCommit1_keeps e
  · exact settled_keeps fun _ e => execFirmwareCommit2_keeps e
  · exact settled_keeps fun _ e => execFirmwareCommit3_keeps e
  · exact settled_keeps fun _ e => execNamespaceCreate_keeps e
  · exact settled_keeps fun _ e => execNamespaceDelete_keeps e
  · exact settled_keeps fun _ e => execNamespaceAttach_keeps e
  · exact settled_keeps fun _ e => execNamespaceDetach_keeps e
  · exact settled_keeps fun _ e => execFormatNvm_keeps e
  · exact settled_keeps fun _ e => execSanitizeCryptoErase_keeps e
  · exact settled_keeps fun _ e => execSanitizeBlockErase_keeps e
  · exact settled_keeps fun _ e => execDeviceSelfTest_keeps e
  · exact settled_keeps fun _ e => execDrydownControlStart_keeps e
  · exact settled_keeps fun _ e => execDrydownControlStop_keeps e
  · exact .refl s
theorem runHeldOf_keeps (s : State) (p : PortId) : Keeps s (runHeldOf s p) := by
  unfold runHeldOf
  with_reducible
    dsimp only; refine .foldl (fun _ _ => ?_) ?_; refine .trans ?_ (runHeld_keeps ..); exact .refl _; refine .onPort ?_
    exact .refl _
theorem switchOwner_keeps (s : State) (c : ClaimRec) : Keeps s (switchOwner s c) := by
  unfold switchOwner
  dsimp only
  refine Keeps.trans ?_ (notice_keeps ..)
  refine Keeps.onBoth ?_
  refine Keeps.trans ?_ (dropBuffer_keeps ..)
  have k := (endUnlockOf_keeps s s.own.owner).trans
      (putAnchor_keeps (endUnlockOf s s.own.owner) fun a => { a with owner := c.port, generation := (s.own.generation +
      1).toNat })
  refine ⟨k.queue, k.otp, k.spi, fun h => ?_, k.faults, k.thermals, k.chunks, k.losses, k.draws⟩
  unfold unlockOwned State.onOwn putAnchor State.onJournal
  simp only [endUnlockOf_none h]
theorem raiseFlushes_keeps (s : State) (p : PortId) : Keeps s (raiseFlushes s p) := by
  unfold raiseFlushes
  with_reducible (dsimp only; refine .onPort ?_; exact .refl _)
theorem answerClaim_keeps (s : State) (c : ClaimRec) : Keeps s (answerClaim s c) := by
  unfold answerClaim
  with_reducible (split; exact .refl _; dsimp only; refine .trans ?_ (vendorEnd_keeps ..); refine .onPort ?_; exact .refl _)
theorem finishHandover_keeps (s : State) (c : ClaimRec) : Keeps s (finishHandover s c) := by
  unfold finishHandover
  with_reducible
    dsimp only; refine .trans ?_ (runHeldOf_keeps ..); refine .trans ?_ (runHeldOf_keeps ..)
    refine .trans ?_ (releaseHeld_keeps ..); refine .trans ?_ (releaseHeld_keeps ..); refine .trans ?_ (answerClaim_keeps ..)
    refine .trans ?_ (switchOwner_keeps ..); refine .foldl (fun _ _ => ?_) ?_; refine .trans ?_ (settleWrite_keeps ..)
    exact .refl _; refine .trans ?_ (raiseFlushes_keeps ..); exact .refl _
theorem drainedHandover_keeps (s : State) : Keeps s (drainedHandover s) := by
  unfold drainedHandover
  with_reducible
    split; exact .refl _; refine .iteL ?_ ?_; refine .trans ?_ (finishHandover_keeps ..); exact .refl _; exact .refl _
theorem dropChallenge_keeps (s : State) (p : PortId) (q : VendorReq) : Keeps s (dropChallenge s p q) := by
  unfold dropChallenge
  with_reducible (split; exact .refl _; refine .onPort ?_; exact .refl _)
theorem unlockCmd_keeps (a : AdminId) (q : VendorReq) (i : Instr) (bad : Bool) (go : State → State) (s : State)
    (hgo : ∀ s, Keeps s (go s)) : Keeps s (unlockCmd a q i bad go s) := by
  unfold unlockCmd
  with_reducible
    refine .trans ?_ (adminCmd_keeps _ _ _ _ _ (fun _ => ?_)); refine .trans ?_ (noteIfRefused_keeps ..); exact .refl _
    refine .trans ?_ (vendorCmd_keeps _ _ _ _ _ _ _ _ _ (fun _ => ?_)); refine .trans ?_ (dropChallenge_keeps ..); exact .refl _
    refine .trans ?_ (hgo _); exact .refl _
theorem endOwnUnlock_keeps (a : AdminId) (q : VendorReq) (s : State) : Keeps s (endOwnUnlock a q s) := by
  unfold endOwnUnlock
  with_reducible (refine .trans ?_ (vendorEnd_keeps ..); refine .trans ?_ (endUnlockOf_keeps ..); exact .refl _)
theorem newChallenge_keeps (a : AdminId) (q : VendorReq) (scope : Nat) (s : State) : Keeps s (newChallenge a q scope s) := by
  unfold newChallenge
  with_reducible
    refine .ite ?_ ?_; refine .trans ?_ (vendorEnd_keeps ..); exact .refl _; dsimp only; refine .trans ?_ (vendorEnd_keeps ..)
    refine .trans ?_ (answerData_keeps ..); refine .onPort ?_; refine .draw ?_; exact .refl _
theorem repeatChallenge_keeps (a : AdminId) (q : VendorReq) (s : State) : Keeps s (repeatChallenge a q s) := by
  unfold repeatChallenge
  with_reducible
    split; refine .iteL ?_ ?_; refine .trans ?_ (answerData_keeps ..); exact .refl _; exact .refl _; exact .refl _
theorem countResponseFail_keeps (s : State) (p : PortId) : Keeps s (countResponseFail s p) := by
  unfold countResponseFail
  with_reducible (refine .onPort ?_; exact .refl _)
theorem openUnlock_keeps (s : State) (p : PortId) (scope : Nat) (h : s.own.owner = p) : Keeps s (openUnlock s p scope) := by
  unfold openUnlock
  dsimp only
  have k : ∀ f : Sec → Sec, (∀ x, (f x).otp = x.otp) → (∀ x, ∃ u, (f x).unlock = some u ∧ u.port = p) → Keeps s (s.onSec f) :=
      fun f ho hu =>
    ⟨rfl, by change OtpGrows _ (f s.sec).otp; rw [ho]; exact .refl _, id, fun _ => by
      obtain ⟨u, e, pe⟩ := hu s.sec
      unfold unlockOwned State.onSec; simp only [e, pe, h, decide_true],
      Nat.le_refl _, Nat.le_refl _, Nat.le_refl _, Nat.le_refl _, Nat.le_refl _⟩
  refine Keeps.iteL (fire_keeps ..) (.onSec (fun _ => rfl) (fun _ => rfl) ?_)
  exact k _ (fun _ => rfl) fun _ => ⟨_, rfl, rfl⟩
theorem judgeResponse_keeps (a : AdminId) (q : VendorReq) (r : List Byte) (ch : Option (List Byte)) (s : State)
    (h : s.own.owner = a.port) :
    Keeps s (judgeResponse a q r ch s) := by
  unfold judgeResponse
  split
  · exact vendorEnd_keeps ..
  · split
    · refine Keeps.trans (Keeps.trans (Keeps.onPort (.refl s)) (openUnlock_keeps _ _ _ ?_)) (vendorEnd_keeps ..)
      cases hp : a.port <;> simpa [State.onPort, hp] using h
    · exact (countResponseFail_keeps ..).trans (vendorEnd_keeps ..)
theorem refusalEnds_keeps (s : State) (p : PortId) : Keeps s (refusalEnds s p) := by
  unfold refusalEnds
  with_reducible (refine .onPort ?_; exact .refl _)
theorem unlockTooOld_keeps (s : State) : Keeps s (unlockTooOld s) := by
  unfold unlockTooOld
  with_reducible
    split; refine .iteL ?_ ?_; refine .trans ?_ (endUnlock_keeps ..); exact .refl _; exact .refl _; exact .refl _
theorem miAnswer_keeps (s : State) (status : Nat) (data : List Byte) (nvme : Status) (dw0 : BitVec 32) : Keeps s
    (miAnswer s status data nvme dw0) := by
  unfold miAnswer
  with_reducible (refine .onMisc ?_; exact .refl _)
theorem miServe_keeps (s : State) (inSafe : Bool) (go : State → State) (hgo : ∀ s, Keeps s (go s)) : Keeps s
    (miServe s inSafe go) := by
  unfold miServe
  with_reducible
    refine .ite ?_ ?_; exact .refl _; refine .ite ?_ ?_; refine .trans ?_ (miAnswer_keeps ..); exact .refl _
    refine .trans ?_ (hgo _); exact .refl _
theorem miTunnelAnswer_keeps (s : State) (r : List Byte ⊕ Status) (dw0 : BitVec 32) : Keeps s (miTunnelAnswer s r dw0) := by
  unfold miTunnelAnswer
  with_reducible
    split; refine .trans ?_ (miAnswer_keeps ..); exact .refl _; refine .trans ?_ (miAnswer_keeps ..); exact .refl _
theorem miGetFeatures_keeps (s : State) (p : PortId) (fid : Nat) : Keeps s (miGetFeatures s p fid) := by
  unfold miGetFeatures
  with_reducible
    split; refine .trans ?_ (miTunnelAnswer_keeps ..); exact .refl _; refine .trans ?_ (miTunnelAnswer_keeps ..); exact .refl _
theorem lifecycleMoves_keeps (before s : State) : Keeps s (lifecycleMoves before s) := by
  unfold lifecycleMoves
  with_reducible
    dsimp only; refine .iteL ?_ ?_; refine .trans ?_ (fire_keeps ..); exact .refl _
    refine .onSec (fun _ => rfl) (fun _ => rfl) ?_; refine .onSec (fun _ => rfl) (fun _ => rfl) ?_; exact .refl _

end Sys2Proof.Machine
end

