-- ==== Sys2Proof/Laws/KeepsExec.lean ====
section
/-! SUPPORT. `Keeps` for the commands: what a command leaves true when it answers a next state. -/
namespace Sys2Proof.Machine

theorem execArrayOperationStart_keeps {die : Nat} {s : State} {t : State} (e : execArrayOperationStart die s = .next t) :
    Keeps s t := by
  unfold execArrayOperationStart at e
  cases e
  with_reducible (refine .trans ?_ (startOp_keeps ..); exact .refl _)
theorem execDieActivityGrant_keeps {s : State} {t : State} (e : execDieActivityGrant s = .next t) : Keeps s t := by
  unfold execDieActivityGrant at e
  cases e
  with_reducible (refine .trans ?_ (grantOne_keeps ..); exact .refl _)
theorem execProgramPassComplete_keeps {die : Nat} {s : State} {t : State} (e : execProgramPassComplete die s = .next t) :
    Keeps s t := by
  unfold execProgramPassComplete at e
  cases e
  with_reducible (refine .trans ?_ (programPass_keeps ..); exact .refl _)
theorem execProgramFailure_keeps {die : Nat} {s : State} {t : State} (e : execProgramFailure die s = .next t) : Keeps s t := by
  unfold execProgramFailure at e
  cases e
  with_reducible (refine .trans ?_ (programFails_keeps ..); exact .refl _)
theorem execEraseComplete_keeps {die : Nat} {marginFails : Bool} {s : State} {t : State}
    (e : execEraseComplete die marginFails s = .next t) : Keeps s t := by
  unfold execEraseComplete at e
  cases e
  with_reducible (refine .trans ?_ (eraseDone_keeps ..); exact .refl _)
theorem execEraseFailure_keeps {die : Nat} {s : State} {t : State} (e : execEraseFailure die s = .next t) : Keeps s t := by
  unfold execEraseFailure at e
  cases e
  with_reducible (refine .trans ?_ (eraseFails_keeps ..); exact .refl _)
theorem execEraseSuspend_keeps {die : Nat} {s : State} {t : State} (e : execEraseSuspend die s = .next t) : Keeps s t := by
  unfold execEraseSuspend at e
  cases e
  with_reducible (refine .trans ?_ (suspendErase_keeps ..); exact .refl _)
theorem execEraseResume_keeps {die : Nat} {s : State} {t : State} (e : execEraseResume die s = .next t) : Keeps s t := by
  unfold execEraseResume at e
  cases e
  with_reducible (refine .trans ?_ (resumeErase_keeps ..); exact .refl _)
theorem execSenseComplete_keeps {die : Nat} {errs : List CwBits} {s : State} {t : State}
    (e : execSenseComplete die errs s = .next t) : Keeps s t := by
  unfold execSenseComplete at e
  cases e
  with_reducible (refine .trans ?_ (senseEnd_keeps ..); exact .refl _)
theorem execDecodeComplete_keeps {job : Nat} {r : DecodeResult} {s : State} {t : State}
    (e : execDecodeComplete job r s = .next t) : Keeps s t := by
  unfold execDecodeComplete at e
  cases e
  with_reducible (refine .trans ?_ (decodeEnd_keeps ..); exact .refl _)
theorem execReadRecoverBudgetExpiry_keeps {job : Nat} {s : State} {t : State}
    (e : execReadRecoverBudgetExpiry job s = .next t) : Keeps s t := by
  unfold execReadRecoverBudgetExpiry at e
  cases e
  with_reducible (refine .trans ?_ (budgetEnd_keeps ..); exact .refl _)
theorem execReconstruction_keeps {job : Nat} {s : State} {t : State} (e : execReconstruction job s = .next t) : Keeps s t := by
  unfold execReconstruction at e
  cases e
  with_reducible (refine .trans ?_ (settleReads_keeps ..); refine .trans ?_ (reconstructJob_keeps ..); exact .refl _)
theorem execPrefetch_keeps {p : PortId} {stream : Nat} {s : State} {t : State} (e : execPrefetch p stream s = .next t) : Keeps
    s t := by
  unfold execPrefetch at e
  cases e
  with_reducible (refine .trans ?_ (prefetchNext_keeps ..); exact .refl _)
theorem execCommandFetch_keeps {p : PortId} {s : State} {t : State} (e : execCommandFetch p s = .next t) : Keeps s t := by
  unfold execCommandFetch at e
  cases e
  with_reducible (refine .trans ?_ (fetchOne_keeps ..); exact .refl _)
theorem execWriteAdmission_keeps {p : PortId} {s : State} {t : State} (e : execWriteAdmission p s = .next t) : Keeps s t := by
  unfold execWriteAdmission at e
  cases e
  with_reducible (refine .trans ?_ (admitNext_keeps ..); exact .refl _)
theorem execWrite_keeps {p : PortId} {sq cid : Nat} {s : State} {t : State} (e : execWrite p sq cid s = .next t) : Keeps s t
    := by
  unfold execWrite at e
  cases e
  with_reducible (refine .trans ?_ (runWrite_keeps ..); exact .refl _)
theorem execWriteZeroes_keeps {p : PortId} {sq cid : Nat} {s : State} {t : State} (e : execWriteZeroes p sq cid s = .next t) :
    Keeps s t := by
  unfold execWriteZeroes at e
  cases e
  with_reducible (refine .trans ?_ (runWriteZeroes_keeps ..); exact .refl _)
theorem execDatasetManagementDeallocate_keeps {p : PortId} {sq cid : Nat} {s : State} {t : State}
    (e : execDatasetManagementDeallocate p sq cid s = .next t) : Keeps s t := by
  unfold execDatasetManagementDeallocate at e
  cases e
  with_reducible (refine .trans ?_ (runDeallocate_keeps ..); exact .refl _)
theorem execMapAccept_keeps {s : State} {t : State} (e : execMapAccept s = .next t) : Keeps s t := by
  unfold execMapAccept at e
  cases e
  with_reducible (refine .trans ?_ (acceptOne_keeps ..); exact .refl _)
theorem execRead_keeps {p : PortId} {sq cid : Nat} {s : State} {t : State} (e : execRead p sq cid s = .next t) : Keeps s t := by
  unfold execRead at e
  cases e
  with_reducible (refine .trans ?_ (runRead_keeps ..); exact .refl _)
theorem execVerify_keeps {p : PortId} {sq cid : Nat} {s : State} {t : State} (e : execVerify p sq cid s = .next t) : Keeps s t
    := by
  unfold execVerify at e
  cases e
  with_reducible (refine .trans ?_ (runVerify_keeps ..); exact .refl _)
theorem execReadWaitEnd_keeps {p : PortId} {sq cid : Nat} {s : State} {t : State} (e : execReadWaitEnd p sq cid s = .next t) :
    Keeps s t := by
  unfold execReadWaitEnd at e
  cases e
  with_reducible (refine .trans ?_ (endWait_keeps ..); exact .refl _)
theorem execFlush_keeps {p : PortId} {sq cid : Nat} {s : State} {t : State} (e : execFlush p sq cid s = .next t) : Keeps s t
    := by
  unfold execFlush at e
  cases e
  with_reducible (refine .trans ?_ (runFlush_keeps ..); exact .refl _)
theorem execSeal_keeps {p : PortId} {sq cid : Nat} {s : State} {t : State} (e : execSeal p sq cid s = .next t) : Keeps s t := by
  unfold execSeal at e
  cases e
  with_reducible (refine .trans ?_ (runSeal_keeps ..); exact .refl _)
theorem execSealPadDelayExpiry_keeps {s : State} {t : State} (e : execSealPadDelayExpiry s = .next t) : Keeps s t := by
  unfold execSealPadDelayExpiry at e
  cases e
  with_reducible (refine .trans ?_ (padDelay_keeps ..); exact .refl _)
theorem execHostDataCompletion_keeps {p : PortId} {sq cid flacon : Nat} {data : List Blk} {sram : Bool} {s : State}
    {t : State} (e : execHostDataCompletion p sq cid flacon data sram s = .next t) : Keeps s t := by
  unfold execHostDataCompletion at e
  cases e
  with_reducible (refine .trans ?_ (placeData_keeps ..); exact .refl _)
theorem execFlaconCommit_keeps {flacon : Nat} {s : State} {t : State} (e : execFlaconCommit flacon s = .next t) : Keeps s t :=
    by
  unfold execFlaconCommit at e
  cases e
  with_reducible (refine .trans ?_ (commitFlacon_keeps ..); exact .refl _)
theorem execPack_keeps {flacon : Nat} {s : State} {t : State} (e : execPack flacon s = .next t) : Keeps s t := by
  unfold execPack at e
  cases e
  with_reducible (refine .trans ?_ (packFlacon_keeps ..); exact .refl _)
theorem execFlaconRelease_keeps {flacon : Nat} {s : State} {t : State} (e : execFlaconRelease flacon s = .next t) : Keeps s t
    := by
  unfold execFlaconRelease at e
  cases e
  with_reducible (refine .trans ?_ (releaseFlacon_keeps ..); exact .refl _)
theorem execFaultSourceFiring_keeps {fs : List Firing} {s : State} {t : State} (e : execFaultSourceFiring fs s = .next t) :
    Keeps s t := by
  unfold execFaultSourceFiring at e
  cases e
  with_reducible (refine .trans ?_ (sourcesFire_keeps ..); exact .refl _)
theorem execBusyTimeout_keeps {die : Nat} {s : State} {t : State} (e : execBusyTimeout die s = .next t) : Keeps s t := by
  unfold execBusyTimeout at e
  cases e
  with_reducible (refine .trans ?_ (busyTimedOut_keeps ..); exact .refl _)
theorem execDecTimeout_keeps {cluster : Nat} {s : State} {t : State} (e : execDecTimeout cluster s = .next t) : Keeps s t := by
  unfold execDecTimeout at e
  cases e
  with_reducible (refine .trans ?_ (decTimedOut_keeps ..); exact .refl _)
theorem execCoreWdog_keeps {_core : Nat} {s : State} {t : State} (e : execCoreWdog _core s = .next t) : Keeps s t := by
  unfold execCoreWdog at e
  cases e
  with_reducible (refine .trans ?_ (fire_keeps ..); exact .refl _)
theorem execFabricTimeout_keeps {s : State} {t : State} (e : execFabricTimeout s = .next t) : Keeps s t := by
  unfold execFabricTimeout at e
  cases e
  with_reducible (refine .trans ?_ (fire_keeps ..); exact .refl _)
theorem execCplTimeout_keeps {p : PortId} {sq cid : Nat} {s : State} {t : State} (e : execCplTimeout p sq cid s = .next t) :
    Keeps s t := by
  unfold execCplTimeout at e
  cases e
  with_reducible (refine .trans ?_ (completionTimedOut_keeps ..); exact .refl _)
theorem execHubSelfFault_keeps {c : SelfCause} {s : State} {t : State} (e : execHubSelfFault c s = .next t) : Keeps s t := by
  unfold execHubSelfFault at e
  cases e
  with_reducible (refine .trans ?_ (hubFault_keeps ..); exact .refl _)
theorem execChannelBlockResetEnd_keeps {ch : Nat} {found : ResetFound} {s : State} {t : State}
    (e : execChannelBlockResetEnd ch found s = .next t) : Keeps s t := by
  unfold execChannelBlockResetEnd at e
  cases e
  with_reducible (refine .trans ?_ (csResetEnd_keeps ..); exact .refl _)
theorem execBlockResetBoundExpiry_keeps {ch : Nat} {s : State} {t : State} (e : execBlockResetBoundExpiry ch s = .next t) :
    Keeps s t := by
  unfold execBlockResetBoundExpiry at e
  cases e
  with_reducible (refine .trans ?_ (csBoundOver_keeps ..); exact .refl _)
theorem execClusterBlockResetEnd_keeps {g : Nat} {s : State} {t : State} (e : execClusterBlockResetEnd g s = .next t) : Keeps
    s t := by
  unfold execClusterBlockResetEnd at e
  cases e
  with_reducible (refine .trans ?_ (lcResetEnd_keeps ..); exact .refl _)
theorem execUnitResetEnd_keeps {s : State} {t : State} (e : execUnitResetEnd s = .next t) : Keeps s t := by
  unfold execUnitResetEnd at e
  cases e
  with_reducible (refine .trans ?_ (unitResetOver_keeps ..); exact .refl _)
theorem execReactionWindowClose_keeps {source : Nat} {s : State} {t : State} (e : execReactionWindowClose source s = .next t)
    : Keeps s t := by
  unfold execReactionWindowClose at e
  cases e
  with_reducible (refine .trans ?_ (closeWindows_keeps ..); exact .refl _)
theorem execFhLogIntervalExpiry_keeps {source : Nat} {s : State} {t : State} (e : execFhLogIntervalExpiry source s = .next t)
    : Keeps s t := by
  unfold execFhLogIntervalExpiry at e
  cases e
  with_reducible (refine .trans ?_ (logCounted_keeps ..); exact .refl _)
theorem execAliveEdge_keeps {pinLevel : Bool} {s : State} {t : State} (e : execAliveEdge pinLevel s = .next t) : Keeps s t := by
  unfold execAliveEdge at e
  cases e
  with_reducible (refine .trans ?_ (aliveToggle_keeps ..); exact .refl _)
theorem execFhFirstValidClear_keeps {p : PortId} {s : State} {t : State} (e : execFhFirstValidClear p s = .next t) : Keeps s t
    := by
  unfold execFhFirstValidClear at e
  cases e
  with_reducible (refine .iteL ?_ ?_; refine .trans ?_ (clearFirst_keeps ..); exact .refl _; exact .refl _)
theorem execFhInjectArm_keeps {p : PortId} {v : BitVec 32} {s : State} {t : State} (e : execFhInjectArm p v s = .next t) :
    Keeps s t := by
  unfold execFhInjectArm at e
  cases e
  with_reducible (refine .iteL ?_ ?_; refine .trans ?_ (writeInject_keeps ..); exact .refl _; exact .refl _)
theorem execFhLegArmWrite_keeps {p : PortId} {v : BitVec 32} {s : State} {t : State} (e : execFhLegArmWrite p v s = .next t) :
    Keeps s t := by
  unfold execFhLegArmWrite at e
  cases e
  with_reducible (refine .iteL ?_ ?_; refine .trans ?_ (writeLegArm_keeps ..); exact .refl _; exact .refl _)
theorem execFhLegArmExpiry_keeps {s : State} {t : State} (e : execFhLegArmExpiry s = .next t) : Keeps s t := by
  unfold execFhLegArmExpiry at e
  cases e
  with_reducible (refine .trans ?_ (legArmOver_keeps ..); exact .refl _)
theorem execFhLegForceWrite_keeps {p : PortId} {k : Nat} {v : BitVec 32} {s : State} {t : State}
    (e : execFhLegForceWrite p k v s = .next t) : Keeps s t := by
  unfold execFhLegForceWrite at e
  cases e
  with_reducible (refine .iteL ?_ ?_; refine .trans ?_ (forceSources_keeps ..); exact .refl _; exact .refl _)
theorem execChainStart_keeps {block chan head : Nat} {s : State} {t : State} (e : execChainStart block chan head s = .next t)
    : Keeps s t := by
  unfold execChainStart at e
  cases e
  with_reducible (refine .trans ?_ (giveChain_keeps ..); exact .refl _)
theorem execDescriptorFetch_keeps {block chan : Nat} {d : DescFetch} {s : State} {t : State}
    (e : execDescriptorFetch block chan d s = .next t) : Keeps s t := by
  unfold execDescriptorFetch at e
  cases e
  with_reducible (refine .trans ?_ (descriptorArrives_keeps ..); exact .refl _)
theorem execPaceTimer_keeps {block chan : Nat} {s : State} {t : State} (e : execPaceTimer block chan s = .next t) : Keeps s t
    := by
  unfold execPaceTimer at e
  cases e
  with_reducible (refine .trans ?_ (tryPace_keeps ..); exact .refl _)
theorem execPeripheralRequest_keeps {ch : Nat} {s : State} {t : State} (e : execPeripheralRequest ch s = .next t) : Keeps s t
    := by
  unfold execPeripheralRequest at e
  cases e
  with_reducible (refine .trans ?_ (peripheralAsserts_keeps ..); exact .refl _)
theorem execBurstGrant_keeps {block : Nat} {ready : List MoverReady} {s : State} {t : State}
    (e : execBurstGrant block ready s = .next t) : Keeps s t := by
  unfold execBurstGrant at e
  cases e
  with_reducible (refine .trans ?_ (grantBurst_keeps ..); exact .refl _)
theorem execWriteResponse_keeps {block chan : Nat} {s : State} {t : State} (e : execWriteResponse block chan s = .next t) :
    Keeps s t := by
  unfold execWriteResponse at e
  cases e
  with_reducible (refine .trans ?_ (responseArrives_keeps ..); exact .refl _)
theorem execDescriptorComplete_keeps {block chan : Nat} {s : State} {t : State}
    (e : execDescriptorComplete block chan s = .next t) : Keeps s t := by
  unfold execDescriptorComplete at e
  cases e
  with_reducible (refine .trans ?_ (descriptorDone_keeps ..); exact .refl _)
theorem execDTimeout_keeps {block chan : Nat} {s : State} {t : State} (e : execDTimeout block chan s = .next t) : Keeps s t :=
    by
  unfold execDTimeout at e
  cases e
  with_reducible (refine .trans ?_ (moverTimedOut_keeps ..); exact .refl _)
theorem execDramRequest_keeps {ch : Nat} {arrivals : List DramReq} {seen : EccSeen} {activates : Bool} {s : State} {t : State}
    (e : execDramRequest ch arrivals seen activates s = .next t) : Keeps s t := by
  unfold execDramRequest at e
  cases e
  with_reducible (refine .trans ?_ (dramRequestNext_keeps ..); exact .refl _)
theorem execDramRefresh_keeps {ch : Nat} {hot : Bool} {s : State} {t : State} (e : execDramRefresh ch hot s = .next t) : Keeps
    s t := by
  unfold execDramRefresh at e
  cases e
  with_reducible (refine .trans ?_ (refreshDram_keeps ..); exact .refl _)
theorem execRefreshWindowStart_keeps {ch : Nat} {s : State} {t : State} (e : execRefreshWindowStart ch s = .next t) : Keeps s
    t := by
  unfold execRefreshWindowStart at e
  cases e
  with_reducible (refine .trans ?_ (newRefreshWindow_keeps ..); exact .refl _)
theorem execDramPatrolScrub_keeps {ch : Nat} {seen : EccSeen} {s : State} {t : State}
    (e : execDramPatrolScrub ch seen s = .next t) : Keeps s t := by
  unfold execDramPatrolScrub at e
  cases e
  with_reducible (refine .trans ?_ (patrolScrub_keeps ..); exact .refl _)
theorem execEccCeRate_keeps {ch : Nat} {s : State} {t : State} (e : execEccCeRate ch s = .next t) : Keeps s t := by
  unfold execEccCeRate at e
  cases e
  with_reducible (refine .trans ?_ (ceRateFires_keeps ..); exact .refl _)
theorem execAlertNAssert_keeps {ch : Nat} {s : State} {t : State} (e : execAlertNAssert ch s = .next t) : Keeps s t := by
  unfold execAlertNAssert at e
  cases e
  with_reducible (refine .trans ?_ (alertAsserts_keeps ..); exact .refl _)
theorem execAlertNDeassert_keeps {ch : Nat} {s : State} {t : State} (e : execAlertNDeassert ch s = .next t) : Keeps s t := by
  unfold execAlertNDeassert at e
  cases e
  with_reducible (refine .trans ?_ (alertDeasserts_keeps ..); exact .refl _)
theorem execFrequencyChange_keeps {failing : List Nat} {s : State} {t : State} (e : execFrequencyChange failing s = .next t) :
    Keeps s t := by
  unfold execFrequencyChange at e
  cases e
  with_reducible (refine .trans ?_ (changeFrequency_keeps ..); exact .refl _)
theorem execTrainingStep_keeps {ch : Nat} {passes : Bool} {s : State} {t : State} (e : execTrainingStep ch passes s = .next t)
    : Keeps s t := by
  unfold execTrainingStep at e
  cases e
  with_reducible (refine .trans ?_ (trainStep_keeps ..); exact .refl _)
theorem execCopy_keeps {sb : Nat} {s : State} {t : State} (e : execCopy sb s = .next t) : Keeps s t := by
  unfold execCopy at e
  cases e
  with_reducible (refine .trans ?_ (copyNextUnit_keeps ..); exact .refl _)
theorem execSuperBlockFormation_keeps {use : SbUse} {handle : Nat} {s : State} {t : State}
    (e : execSuperBlockFormation use handle s = .next t) : Keeps s t := by
  unfold execSuperBlockFormation at e
  cases e
  with_reducible (refine .trans ?_ (formFor_keeps ..); exact .refl _)
theorem execSuperBlockRelease_keeps {sb : Nat} {s : State} {t : State} (e : execSuperBlockRelease sb s = .next t) : Keeps s t
    := by
  unfold execSuperBlockRelease at e
  cases e
  with_reducible (refine .trans ?_ (releaseIfDue_keeps ..); exact .refl _)
theorem execRuActiveLimitExpiry_keeps {sb : Nat} {s : State} {t : State} (e : execRuActiveLimitExpiry sb s = .next t) : Keeps
    s t := by
  unfold execRuActiveLimitExpiry at e
  cases e
  with_reducible (refine .trans ?_ (unitTooOld_keeps ..); exact .refl _)
theorem execIdleEntry_keeps {s : State} {t : State} (e : execIdleEntry s = .next t) : Keeps s t := by
  unfold execIdleEntry at e
  cases e
  with_reducible (refine .trans ?_ (enterIdle_keeps ..); exact .refl _)
theorem execCollectionStart_keeps {s : State} {t : State} (e : execCollectionStart s = .next t) : Keeps s t := by
  unfold execCollectionStart at e
  cases e
  with_reducible (refine .trans ?_ (startCollection_keeps ..); exact .refl _)
theorem execWearMove_keeps {s : State} {t : State} (e : execWearMove s = .next t) : Keeps s t := by
  unfold execWearMove at e
  cases e
  with_reducible (refine .trans ?_ (startWearMove_keeps ..); exact .refl _)
theorem execFold_keeps {nsid iu : Nat} {s : State} {t : State} (e : execFold nsid iu s = .next t) : Keeps s t := by
  unfold execFold at e
  cases e
  with_reducible (refine .trans ?_ (foldIu_keeps ..); exact .refl _)
theorem execSlcFold_keeps {sb : Nat} {s : State} {t : State} (e : execSlcFold sb s = .next t) : Keeps s t := by
  unfold execSlcFold at e
  cases e
  with_reducible (refine .trans ?_ (foldSlc_keeps ..); exact .refl _)
theorem execRebuild_keeps {s : State} {t : State} (e : execRebuild s = .next t) : Keeps s t := by
  unfold execRebuild at e
  cases e
  with_reducible (refine .trans ?_ (rebuildStripe_keeps ..); exact .refl _)
theorem execScrubRead_keeps {page : Nat} {s : State} {t : State} (e : execScrubRead page s = .next t) : Keeps s t := by
  unfold execScrubRead at e
  cases e
  with_reducible (refine .trans ?_ (scrubNamed_keeps ..); exact .refl _)
theorem execScrubSbRefresh_keeps {sb : Nat} {s : State} {t : State} (e : execScrubSbRefresh sb s = .next t) : Keeps s t := by
  unfold execScrubSbRefresh at e
  cases e
  with_reducible (refine .trans ?_ (refreshBlock_keeps ..); exact .refl _)
theorem execScrubPeriodOverrun_keeps {s : State} {t : State} (e : execScrubPeriodOverrun s = .next t) : Keeps s t := by
  unfold execScrubPeriodOverrun at e
  cases e
  with_reducible (refine .trans ?_ (scrubLate_keeps ..); exact .refl _)
theorem execCursorReady_keeps {s : State} {t : State} (e : execCursorReady s = .next t) : Keeps s t := by
  unfold execCursorReady at e
  cases e
  with_reducible (refine .trans ?_ (cursorIsReady_keeps ..); exact .refl _)
theorem execSubmissionDoorbell_keeps {p : PortId} {qid tail : Nat} {entries : List IoEntry} {s : State} {t : State}
    (e : execSubmissionDoorbell p qid tail entries s = .next t) : Keeps s t := by
  unfold execSubmissionDoorbell at e
  cases e
  with_reducible (refine .trans ?_ (ringTail_keeps ..); exact .refl _)
theorem execCompletionDoorbell_keeps {p : PortId} {qid head : Nat} {s : State} {t : State}
    (e : execCompletionDoorbell p qid head s = .next t) : Keeps s t := by
  unfold execCompletionDoorbell at e
  cases e
  with_reducible (refine .trans ?_ (ringHead_keeps ..); exact .refl _)
theorem execCreateIoCq_keeps {a : AdminId} {qid size vector : Nat} {s : State} {t : State}
    (e : execCreateIoCq a qid size vector s = .next t) : Keeps s t := by
  unfold execCreateIoCq at e
  cases e
  with_reducible
    refine .trans ?_ (adminCmd_keeps _ _ _ _ _ (fun _ => ?_)); exact .refl _; refine .trans ?_ (makeCq_keeps ..); exact .refl _
theorem execCreateIoSq_keeps {a : AdminId} {qid size cqid prio : Nat} {s : State} {t : State}
    (e : execCreateIoSq a qid size cqid prio s = .next t) : Keeps s t := by
  unfold execCreateIoSq at e
  cases e
  with_reducible
    refine .trans ?_ (adminCmd_keeps _ _ _ _ _ (fun _ => ?_)); exact .refl _; refine .trans ?_ (makeSq_keeps ..); exact .refl _
theorem execDeleteIoSq_keeps {a : AdminId} {qid : Nat} {s : State} {t : State} (e : execDeleteIoSq a qid s = .next t) : Keeps
    s t := by
  unfold execDeleteIoSq at e
  cases e
  with_reducible
    refine .trans ?_ (adminCmd_keeps _ _ _ _ _ (fun _ => ?_)); exact .refl _; refine .trans ?_ (dropSq_keeps ..); exact .refl _
theorem execDeleteIoCq_keeps {a : AdminId} {qid : Nat} {s : State} {t : State} (e : execDeleteIoCq a qid s = .next t) : Keeps
    s t := by
  unfold execDeleteIoCq at e
  cases e
  with_reducible
    refine .trans ?_ (adminCmd_keeps _ _ _ _ _ (fun _ => ?_)); exact .refl _; refine .trans ?_ (dropCq_keeps ..); exact .refl _
theorem execAbort_keeps {a : AdminId} {sqid tcid : Nat} {s : State} {t : State} (e : execAbort a sqid tcid s = .next t) :
    Keeps s t := by
  unfold execAbort at e
  cases e
  with_reducible
    refine .trans ?_ (adminCmd_keeps _ _ _ _ _ (fun _ => ?_)); exact .refl _; refine .trans ?_ (abortCmd_keeps ..)
    exact .refl _
theorem execAsynchronousEventRequest_keeps {a : AdminId} {s : State} {t : State}
    (e : execAsynchronousEventRequest a s = .next t) : Keeps s t := by
  unfold execAsynchronousEventRequest at e
  cases e
  with_reducible
    refine .trans ?_ (adminCmd_keeps _ _ _ _ _ (fun _ => ?_)); exact .refl _; refine .trans ?_ (awaitEvent_keeps ..)
    exact .refl _
theorem execKeepAlive_keeps {a : AdminId} {s : State} {t : State} (e : execKeepAlive a s = .next t) : Keeps s t := by
  unfold execKeepAlive at e
  cases e
  with_reducible
    refine .trans ?_ (adminCmd_keeps _ _ _ _ _ (fun _ => ?_)); exact .refl _; refine .trans ?_ (keepAliveDone_keeps ..)
    exact .refl _
theorem execIdentify_keeps {a : AdminId} {cns nsid : Nat} {s : State} {t : State} (e : execIdentify a cns nsid s = .next t) :
    Keeps s t := by
  unfold execIdentify at e
  cases e
  with_reducible
    refine .trans ?_ (adminCmd_keeps _ _ _ _ _ (fun _ => ?_)); exact .refl _; refine .trans ?_ (runIdentify_keeps ..)
    exact .refl _
theorem execGetFeatures_keeps {a : AdminId} {fid : Nat} {s : State} {t : State} (e : execGetFeatures a fid s = .next t) :
    Keeps s t := by
  unfold execGetFeatures at e
  cases e
  with_reducible
    refine .trans ?_ (adminCmd_keeps _ _ _ _ _ (fun _ => ?_)); exact .refl _; refine .trans ?_ (runGetFeatures_keeps ..)
    exact .refl _
theorem execSetFeaturesPowerManagement_keeps {a : AdminId} {ps : Nat} {s : State} {t : State}
    (e : execSetFeaturesPowerManagement a ps s = .next t) : Keeps s t := by
  unfold execSetFeaturesPowerManagement at e
  cases e
  with_reducible
    refine .trans ?_ (adminCmd_keeps _ _ _ _ _ (fun _ => ?_)); exact .refl _; refine .trans ?_ (setPower_keeps ..)
    exact .refl _
theorem execSetFeaturesAsyncEvent_keeps {a : AdminId} {value : BitVec 32} {s : State} {t : State}
    (e : execSetFeaturesAsyncEvent a value s = .next t) : Keeps s t := by
  unfold execSetFeaturesAsyncEvent at e
  cases e
  with_reducible
    refine .trans ?_ (adminCmd_keeps _ _ _ _ _ (fun _ => ?_)); exact .refl _; refine .trans ?_ (setAsync_keeps ..)
    exact .refl _
theorem execDirectiveSend_keeps {a : AdminId} {dtype : Nat} {s : State} {t : State}
    (e : execDirectiveSend a dtype s = .next t) : Keeps s t := by
  unfold execDirectiveSend at e
  cases e
  with_reducible
    refine .trans ?_ (adminCmd_keeps _ _ _ _ _ (fun _ => ?_)); exact .refl _; refine .trans ?_ (sendDirective_keeps ..)
    exact .refl _
theorem execDirectiveReceive_keeps {a : AdminId} {dtype : Nat} {s : State} {t : State}
    (e : execDirectiveReceive a dtype s = .next t) : Keeps s t := by
  unfold execDirectiveReceive at e
  cases e
  with_reducible
    refine .trans ?_ (adminCmd_keeps _ _ _ _ _ (fun _ => ?_)); exact .refl _; refine .trans ?_ (receiveDirective_keeps ..)
    exact .refl _
theorem execSanitizeTrimEnd_keeps {s : State} {t : State} (e : execSanitizeTrimEnd s = .next t) : Keeps s t := by
  unfold execSanitizeTrimEnd at e
  cases e
  with_reducible (refine .trans ?_ (trimEnds_keeps ..); exact .refl _)
theorem execSanitizeEraseEnd_keeps {s : State} {t : State} (e : execSanitizeEraseEnd s = .next t) : Keeps s t := by
  unfold execSanitizeEraseEnd at e
  cases e
  with_reducible (refine .trans ?_ (erasesEnd_keeps ..); exact .refl _)
theorem execHkRoundStart_keeps {s : State} {t : State} (e : execHkRoundStart s = .next t) : Keeps s t := by
  unfold execHkRoundStart at e
  cases e
  with_reducible (refine .trans ?_ (startRound_keeps ..); exact .refl _)
theorem execThrottleStep_keeps {s : State} {t : State} (e : execThrottleStep s = .next t) : Keeps s t := by
  unfold execThrottleStep at e
  cases e
  with_reducible (refine .trans ?_ (throttleStepNow_keeps ..); exact .refl _)
theorem execHaltEntryEnd_keeps {s : State} {t : State} (e : execHaltEntryEnd s = .next t) : Keeps s t := by
  unfold execHaltEntryEnd at e
  cases e
  with_reducible (refine .trans ?_ (haltEntryOver_keeps ..); exact .refl _)
theorem execHkRoundEnd_keeps {d : RoundData} {s : State} {t : State} (e : execHkRoundEnd d s = .next t) : Keeps s t := by
  unfold execHkRoundEnd at e
  cases e
  with_reducible (refine .trans ?_ (endRound_keeps ..); exact .refl _)
theorem execInputHoldExpiry_keeps {input : Nat} {s : State} {t : State} (e : execInputHoldExpiry input s = .next t) : Keeps s
    t := by
  unfold execInputHoldExpiry at e
  cases e
  with_reducible (refine .trans ?_ (holdOver_keeps ..); exact .refl _)
theorem execWindowReadLowWord_keeps {p : PortId} {addr width : Nat} {s : State} {t : State}
    (e : execWindowReadLowWord p addr width s = .next t) : Keeps s t := by
  unfold execWindowReadLowWord at e
  cases e
  with_reducible (refine .trans ?_ (readWindow_keeps ..); exact .refl _)
theorem execWindowWrite_keeps {p : PortId} {addr width : Nat} {v : BitVec 32} {s : State} {t : State}
    (e : execWindowWrite p addr width v s = .next t) : Keeps s t := by
  unfold execWindowWrite at e
  cases e
  with_reducible (refine .trans ?_ (writeAny_keeps ..); exact .refl _)
theorem execWindowWriteLowWord_keeps {p : PortId} {addr width : Nat} {v : BitVec 32} {s : State} {t : State}
    (e : execWindowWriteLowWord p addr width v s = .next t) : Keeps s t := by
  unfold execWindowWriteLowWord at e
  cases e
  with_reducible (refine .trans ?_ (writeLow_keeps ..); exact .refl _)
theorem execWindowWriteHighWord_keeps {p : PortId} {addr width : Nat} {v : BitVec 32} {s : State} {t : State}
    (e : execWindowWriteHighWord p addr width v s = .next t) : Keeps s t := by
  unfold execWindowWriteHighWord at e
  cases e
  with_reducible (refine .trans ?_ (writeHigh_keeps ..); exact .refl _)
theorem execGetLogPage_keeps {a : AdminId} {lid : Nat} {r : LogReq} {s : State} {t : State}
    (e : execGetLogPage a lid r s = .next t) : Keeps s t := by
  unfold execGetLogPage at e
  cases e
  with_reducible
    refine .trans ?_ (adminCmd_keeps _ _ _ _ _ (fun _ => ?_)); exact .refl _; refine .trans ?_ (readLog_keeps ..); exact .refl _
theorem execGetLogPageExtendedHealth_keeps {a : AdminId} {r : LogReq} {s : State} {t : State}
    (e : execGetLogPageExtendedHealth a r s = .next t) : Keeps s t := by
  unfold execGetLogPageExtendedHealth at e
  cases e
  with_reducible
    refine .trans ?_ (adminCmd_keeps _ _ _ _ _ (fun _ => ?_)); exact .refl _; refine .trans ?_ (readLog_keeps ..); exact .refl _
theorem execGetLogPageLostIu_keeps {a : AdminId} {r : LogReq} {s : State} {t : State}
    (e : execGetLogPageLostIu a r s = .next t) : Keeps s t := by
  unfold execGetLogPageLostIu at e
  cases e
  with_reducible
    refine .trans ?_ (adminCmd_keeps _ _ _ _ _ (fun _ => ?_)); exact .refl _; refine .trans ?_ (readLog_keeps ..); exact .refl _
theorem execGetLogPageSealHorizon_keeps {a : AdminId} {r : LogReq} {s : State} {t : State}
    (e : execGetLogPageSealHorizon a r s = .next t) : Keeps s t := by
  unfold execGetLogPageSealHorizon at e
  cases e
  with_reducible
    refine .trans ?_ (adminCmd_keeps _ _ _ _ _ (fun _ => ?_)); exact .refl _; refine .trans ?_ (readLog_keeps ..); exact .refl _
theorem execGetLogPageFaultHistory_keeps {a : AdminId} {r : LogReq} {s : State} {t : State}
    (e : execGetLogPageFaultHistory a r s = .next t) : Keeps s t := by
  unfold execGetLogPageFaultHistory at e
  cases e
  with_reducible
    refine .trans ?_ (adminCmd_keeps _ _ _ _ _ (fun _ => ?_)); exact .refl _; refine .trans ?_ (readLog_keeps ..); exact .refl _
theorem execGetLogPageThermalHistory_keeps {a : AdminId} {r : LogReq} {s : State} {t : State}
    (e : execGetLogPageThermalHistory a r s = .next t) : Keeps s t := by
  unfold execGetLogPageThermalHistory at e
  cases e
  with_reducible
    refine .trans ?_ (adminCmd_keeps _ _ _ _ _ (fun _ => ?_)); exact .refl _; refine .trans ?_ (readLog_keeps ..); exact .refl _
theorem execGetLogPageDrydownCursor_keeps {a : AdminId} {r : LogReq} {s : State} {t : State}
    (e : execGetLogPageDrydownCursor a r s = .next t) : Keeps s t := by
  unfold execGetLogPageDrydownCursor at e
  cases e
  with_reducible
    refine .trans ?_ (adminCmd_keeps _ _ _ _ _ (fun _ => ?_)); exact .refl _; refine .trans ?_ (readLog_keeps ..); exact .refl _
theorem execGetLogPageAccordStatus_keeps {a : AdminId} {r : LogReq} {s : State} {t : State}
    (e : execGetLogPageAccordStatus a r s = .next t) : Keeps s t := by
  unfold execGetLogPageAccordStatus at e
  cases e
  with_reducible
    refine .trans ?_ (adminCmd_keeps _ _ _ _ _ (fun _ => ?_)); exact .refl _; refine .trans ?_ (readLog_keeps ..); exact .refl _
theorem execVersionApply_keeps {trim : Bool} {id : Nat} {s : State} {t : State} (e : execVersionApply trim id s = .next t) :
    Keeps s t := by
  unfold execVersionApply at e
  cases e
  with_reducible
    refine .ite ?_ ?_; refine .trans ?_ (fire_keeps ..); exact .refl _; refine .trans ?_ (judgeExposure_keeps ..)
    refine .trans ?_ (applyVersion_keeps ..); exact .refl _
theorem execSeqReserve_keeps {s : State} {t : State} (e : execSeqReserve s = .next t) : Keeps s t := by
  unfold execSeqReserve at e
  cases e
  with_reducible (refine .trans ?_ (reserveSeqs_keeps ..); exact .refl _)
theorem execJournalFlushExpiry_keeps {s : State} {t : State} (e : execJournalFlushExpiry s = .next t) : Keeps s t := by
  unfold execJournalFlushExpiry at e
  cases e
  with_reducible (refine .trans ?_ (expireChunk_keeps ..); exact .refl _)
theorem execCheckpointSegmentStart_keeps {s : State} {t : State} (e : execCheckpointSegmentStart s = .next t) : Keeps s t := by
  unfold execCheckpointSegmentStart at e
  cases e
  with_reducible (refine .trans ?_ (startSegment_keeps ..); exact .refl _)
theorem execRefugeFlushEnd_keeps {s : State} {t : State} (e : execRefugeFlushEnd s = .next t) : Keeps s t := by
  unfold execRefugeFlushEnd at e
  cases e
  with_reducible (refine .trans ?_ (flushEnds_keeps ..); exact .refl _)
theorem execRefugeSetRelease_keeps {set : Nat} {s : State} {t : State} (e : execRefugeSetRelease set s = .next t) : Keeps s t
    := by
  unfold execRefugeSetRelease at e
  cases e
  with_reducible (refine .trans ?_ (releaseSet_keeps ..); exact .refl _)
theorem execPerstAssert_keeps {p : PortId} {lowNs : Nat} {s : State} {t : State} (e : execPerstAssert p lowNs s = .next t) :
    Keeps s t := by
  unfold execPerstAssert at e
  cases e
  with_reducible (refine .trans ?_ (perstLow_keeps ..); exact .refl _)
theorem execPerstDeassert_keeps {p : PortId} {s : State} {t : State} (e : execPerstDeassert p s = .next t) : Keeps s t := by
  unfold execPerstDeassert at e
  cases e
  with_reducible (refine .trans ?_ (perstHigh_keeps ..); exact .refl _)
theorem execRefclkLoss_keeps {p : PortId} {s : State} {t : State} (e : execRefclkLoss p s = .next t) : Keeps s t := by
  unfold execRefclkLoss at e
  cases e
  with_reducible (refine .onPort ?_; exact .refl _)
theorem execRefclkReturn_keeps {p : PortId} {s : State} {t : State} (e : execRefclkReturn p s = .next t) : Keeps s t := by
  unfold execRefclkReturn at e
  cases e
  with_reducible (refine .onPort ?_; exact .refl _)
theorem execLinkDown_keeps {p : PortId} {s : State} {t : State} (e : execLinkDown p s = .next t) : Keeps s t := by
  unfold execLinkDown at e
  cases e
  with_reducible (refine .trans ?_ (linkFalls_keeps ..); exact .refl _)
theorem execLinkUp_keeps {p : PortId} {speed width : Nat} {flit rev : Bool} {s : State} {t : State}
    (e : execLinkUp p speed width flit rev s = .next t) : Keeps s t := by
  unfold execLinkUp at e
  cases e
  with_reducible (refine .trans ?_ (linkRises_keeps ..); exact .refl _)
theorem execHotReset_keeps {p : PortId} {s : State} {t : State} (e : execHotReset p s = .next t) : Keeps s t := by
  unfold execHotReset at e
  cases e
  with_reducible (refine .trans ?_ (hotResets_keeps ..); exact .refl _)
theorem execLinkDisable_keeps {p : PortId} {s : State} {t : State} (e : execLinkDisable p s = .next t) : Keeps s t := by
  unfold execLinkDisable at e
  cases e
  with_reducible (refine .trans ?_ (linkDisabled_keeps ..); exact .refl _)
theorem execFunctionLevelReset_keeps {p : PortId} {s : State} {t : State} (e : execFunctionLevelReset p s = .next t) : Keeps s
    t := by
  unfold execFunctionLevelReset at e
  cases e
  with_reducible (refine .trans ?_ (flr_keeps ..); exact .refl _)
theorem execCcEnSet_keeps {p : PortId} {ams : Nat} {s : State} {t : State} (e : execCcEnSet p ams s = .next t) : Keeps s t := by
  unfold execCcEnSet at e
  cases e
  with_reducible (refine .trans ?_ (enableCtrl_keeps ..); exact .refl _)
theorem execCcEnClear_keeps {p : PortId} {s : State} {t : State} (e : execCcEnClear p s = .next t) : Keeps s t := by
  unfold execCcEnClear at e
  cases e
  with_reducible (refine .trans ?_ (disableCtrl_keeps ..); exact .refl _)
theorem execRecoveryTimeout_keeps {p : PortId} {s : State} {t : State} (e : execRecoveryTimeout p s = .next t) : Keeps s t := by
  unfold execRecoveryTimeout at e
  cases e
  with_reducible (refine .trans ?_ (readyLate_keeps ..); exact .refl _)
theorem execConfigurationRequest_keeps {p : PortId} {r : CfgReq} {s : State} {t : State}
    (e : execConfigurationRequest p r s = .next t) : Keeps s t := by
  unfold execConfigurationRequest at e
  cases e
  with_reducible (refine .trans ?_ (configure_keeps ..); exact .refl _)
theorem execRecovery_keeps {env : RecoveryEnv} {s : State} {t : State} (e : execRecovery env s = .next t) : Keeps s t := by
  unfold execRecovery at e
  cases e
  with_reducible (refine .trans ?_ (recover_keeps ..); exact .refl _)
theorem execSuppliesValid_keeps {env : StartEnv} {board : List (Nat × BitVec 8)} {s : State} {t : State}
    (e : execSuppliesValid env board s = .next t) : Keeps s t := by
  unfold execSuppliesValid at e
  cases e
  with_reducible (refine .trans ?_ (suppliesRise_keeps ..); exact .refl _)
theorem execSupplyFall_keeps {s : State} {t : State} (e : execSupplyFall s = .next t) : Keeps s t := by
  unfold execSupplyFall at e
  cases e
  with_reducible (refine .trans ?_ (supplyFalls_keeps ..); exact .refl _)
theorem execVauxVio_keeps {vio above : Bool} {s : State} {t : State} (e : execVauxVio vio above s = .next t) : Keeps s t := by
  unfold execVauxVio at e
  cases e
  with_reducible (refine .trans ?_ (leavesWindow_keeps ..); exact .refl _)
theorem execVauxVioWindowReturn_keeps {vio : Bool} {s : State} {t : State} (e : execVauxVioWindowReturn vio s = .next t) :
    Keeps s t := by
  unfold execVauxVioWindowReturn at e
  cases e
  with_reducible (refine .trans ?_ (returnsToWindow_keeps ..); exact .refl _)
theorem execPwrFailNAssert_keeps {s : State} {t : State} (e : execPwrFailNAssert s = .next t) : Keeps s t := by
  unfold execPwrFailNAssert at e
  cases e
  with_reducible (refine .trans ?_ (pwrFailLow_keeps ..); exact .refl _)
theorem execPwrFailNRelease_keeps {env : StartEnv} {s : State} {t : State} (e : execPwrFailNRelease env s = .next t) : Keeps s
    t := by
  unfold execPwrFailNRelease at e
  cases e
  with_reducible (refine .trans ?_ (pwrFailHigh_keeps ..); exact .refl _)
theorem execPfWaitEnd_keeps {env : StartEnv} {s : State} {t : State} (e : execPfWaitEnd env s = .next t) : Keeps s t := by
  unfold execPfWaitEnd at e
  cases e
  with_reducible (refine .trans ?_ (pfWaitEnds_keeps ..); exact .refl _)
theorem execPorNAssert_keeps {s : State} {t : State} (e : execPorNAssert s = .next t) : Keeps s t := by
  unfold execPorNAssert at e
  cases e
  with_reducible (refine .trans ?_ (porFalls_keeps ..); exact .refl _)
theorem execPorNRelease_keeps {env : StartEnv} {board : List (Nat × BitVec 8)} {s : State} {t : State}
    (e : execPorNRelease env board s = .next t) : Keeps s t := by
  unfold execPorNRelease at e
  cases e
  with_reducible (refine .trans ?_ (porRises_keeps ..); exact .refl _)
theorem execShutdownNotification_keeps {p : PortId} {s : State} {t : State} (e : execShutdownNotification p s = .next t) :
    Keeps s t := by
  unfold execShutdownNotification at e
  cases e
  with_reducible (refine .trans ?_ (notifyShutdown_keeps ..); exact .refl _)
theorem execShutdownComplete_keeps {s : State} {t : State} (e : execShutdownComplete s = .next t) : Keeps s t := by
  unfold execShutdownComplete at e
  cases e
  with_reducible (refine .trans ?_ (shutdownEnds_keeps ..); exact .refl _)
theorem execNvmSubsystemReset_keeps {p : PortId} {s : State} {t : State} (e : execNvmSubsystemReset p s = .next t) : Keeps s t
    := by
  unfold execNvmSubsystemReset at e
  cases e
  with_reducible (refine .trans ?_ (writeNssr_keeps ..); exact .refl _)
theorem execNssrStagingWritten_keeps {env : StartEnv} {s : State} {t : State} (e : execNssrStagingWritten env s = .next t) :
    Keeps s t := by
  unfold execNssrStagingWritten at e
  cases e
  with_reducible (refine .trans ?_ (stagingWritten_keeps ..); exact .refl _)
theorem execCstsNssroClear_keeps {p : PortId} {s : State} {t : State} (e : execCstsNssroClear p s = .next t) : Keeps s t := by
  unfold execCstsNssroClear at e
  cases e
  with_reducible (refine .onPort ?_; exact .refl _)
theorem execApst_keeps {p : PortId} {ps : Nat} {s : State} {t : State} (e : execApst p ps s = .next t) : Keeps s t := by
  unfold execApst at e
  cases e
  with_reducible (refine .trans ?_ (idleSelects_keeps ..); exact .refl _)
theorem execPowerStateEntryEnd_keeps {s : State} {t : State} (e : execPowerStateEntryEnd s = .next t) : Keeps s t := by
  unfold execPowerStateEntryEnd at e
  cases e
  with_reducible (refine .trans ?_ (entryEnds_keeps ..); exact .refl _)
theorem execPowerStateExitEnd_keeps {s : State} {t : State} (e : execPowerStateExitEnd s = .next t) : Keeps s t := by
  unfold execPowerStateExitEnd at e
  cases e
  with_reducible (refine .trans ?_ (exitEnds_keeps ..); exact .refl _)
theorem execCommitSpiStepEnd_keeps {r : SpiStepEnd} {s : State} {t : State} (e : execCommitSpiStepEnd r s = .next t) : Keeps s
    t := by
  unfold execCommitSpiStepEnd at e
  cases e
  with_reducible (refine .trans ?_ (spiStepEnds_keeps ..); exact .refl _)
theorem execActivationDrainEnd_keeps {s : State} {t : State} (e : execActivationDrainEnd s = .next t) : Keeps s t := by
  unfold execActivationDrainEnd at e
  cases e
  with_reducible (refine .trans ?_ (drainEnds_keeps ..); exact .refl _)
theorem execActivationTimeout_keeps {s : State} {t : State} (e : execActivationTimeout s = .next t) : Keeps s t := by
  unfold execActivationTimeout at e
  cases e
  with_reducible (refine .trans ?_ (drainTooLong_keeps ..); exact .refl _)
theorem execOwnershipClaim_keeps {a : AdminId} {token : Nat} {force : Bool} {key : BitVec 256} {reservedBad : Bool}
    {tie : Option OwnCmd} {s : State} {t : State} (e : execOwnershipClaim a token force key reservedBad tie s = .next t) :
    Keeps s t := by
  unfold execOwnershipClaim at e
  cases e
  with_reducible
    refine .ite ?_ ?_; refine .trans ?_ (withTie_keeps _ _ _ _ (fun _ => ?_)); exact .refl _; refine .trans ?_ (claim_keeps ..)
    exact .refl _; refine .elimL (fun _ => ?_) ?_; refine .trans ?_ (tiedIfLive_keeps ..); exact .refl _; exact .refl _
theorem execOwnershipRelease_keeps {a : AdminId} {token : Nat} {reservedBad : Bool} {tie : Option OwnCmd} {s : State}
    {t : State} (e : execOwnershipRelease a token reservedBad tie s = .next t) : Keeps s t := by
  unfold execOwnershipRelease at e
  cases e
  with_reducible
    refine .ite ?_ ?_; refine .trans ?_ (withTie_keeps _ _ _ _ (fun _ => ?_)); exact .refl _
    refine .trans ?_ (release_keeps ..); exact .refl _; refine .elimL (fun _ => ?_) ?_; refine .trans ?_ (tiedIfLive_keeps ..)
    exact .refl _; exact .refl _
theorem execTakeoverHoldExpiry_keeps {s : State} {t : State} (e : execTakeoverHoldExpiry s = .next t) : Keeps s t := by
  unfold execTakeoverHoldExpiry at e
  cases e
  with_reducible (refine .trans ?_ (holdExpires_keeps ..); exact .refl _)
theorem execForceLockExpiry_keeps {p : PortId} {s : State} {t : State} (e : execForceLockExpiry p s = .next t) : Keeps s t := by
  unfold execForceLockExpiry at e
  cases e
  with_reducible (refine .trans ?_ (forceLockEnds_keeps ..); exact .refl _)
theorem execHandoverDrainEnd_keeps {s : State} {t : State} (e : execHandoverDrainEnd s = .next t) : Keeps s t := by
  unfold execHandoverDrainEnd at e
  cases e
  with_reducible (refine .trans ?_ (drainedHandover_keeps ..); exact .refl _)
theorem execDiagnosticUnlockEnd_keeps {a : AdminId} {token : Nat} {reservedBad : Bool} {s : State} {t : State}
    (e : execDiagnosticUnlockEnd a token reservedBad s = .next t) : Keeps s t := by
  unfold execDiagnosticUnlockEnd at e
  cases e
  with_reducible
    refine .trans ?_ (unlockCmd_keeps _ _ _ _ _ _ (fun _ => ?_)); exact .refl _; refine .trans ?_ (endOwnUnlock_keeps ..)
    exact .refl _
theorem execDiagnosticUnlockChallenge_keeps {a : AdminId} {token scope : Nat} {reservedBad : Bool} {s : State} {t : State}
    (e : execDiagnosticUnlockChallenge a token scope reservedBad s = .next t) : Keeps s t := by
  unfold execDiagnosticUnlockChallenge at e
  cases e
  with_reducible
    refine .trans ?_ (unlockCmd_keeps _ _ _ _ _ _ (fun _ => ?_)); refine .iteL ?_ ?_
    refine .trans ?_ (repeatChallenge_keeps ..); exact .refl _; exact .refl _; refine .trans ?_ (newChallenge_keeps ..)
    exact .refl _
theorem unlockResponse_keeps (a : AdminId) (q : VendorReq) (r : List Byte) (ch : Option (List Byte)) (i : Instr) (bad : Bool)
    (s : State) :
    Keeps s (unlockCmd a q i bad (judgeResponse a q r ch) s) := by
  unfold unlockCmd
  refine Keeps.trans (noteIfRefused_keeps s a q) ?_
  refine adminCmd_keeps _ _ _ _ _ fun t => ?_
  refine Keeps.trans (dropChallenge_keeps t a.port q) ?_
  unfold vendorCmd
  with_reducible refine Keeps.ite ?_ ?_
  · exact (noteRefused_keeps ..).trans (refuseInSafe_keeps ..)
  · with_reducible refine Keeps.ite ?_ ?_
    · exact Keeps.onPort (.refl _)
    · split
      · exact Keeps.trans (Keeps.onPort (.refl _)) (adminDone_keeps ..)
      · exact Keeps.trans (Keeps.onPort (.refl _)) (adminDone_keeps ..)
      · split
        · exact vendorDone_keeps ..
        · split
          · exact vendorDone_keeps ..
          · rename_i h
            refine judgeResponse_keeps _ _ _ _ _ ?_
            simpa [isOwner] using h
theorem execDiagnosticUnlockResponse_keeps {a : AdminId} {token : Nat} {response : List (BitVec 8)} {reservedBad : Bool}
    {s : State} {t : State} (e : execDiagnosticUnlockResponse a token response reservedBad s = .next t) : Keeps s t := by
  unfold execDiagnosticUnlockResponse at e
  cases e
  exact unlockResponse_keeps ..
theorem execUnlockRefusalExpiry_keeps {p : PortId} {s : State} {t : State} (e : execUnlockRefusalExpiry p s = .next t) : Keeps
    s t := by
  unfold execUnlockRefusalExpiry at e
  cases e
  with_reducible (refine .trans ?_ (refusalEnds_keeps ..); exact .refl _)
theorem execUnlockExpiry_keeps {s : State} {t : State} (e : execUnlockExpiry s = .next t) : Keeps s t := by
  unfold execUnlockExpiry at e
  cases e
  with_reducible (refine .trans ?_ (unlockTooOld_keeps ..); exact .refl _)
theorem execMiReadDataStructure_keeps {dtype portId ctrlId : Nat} {s : State} {t : State}
    (e : execMiReadDataStructure dtype portId ctrlId s = .next t) : Keeps s t := by
  unfold execMiReadDataStructure at e
  cases e
  with_reducible
    refine .trans ?_ (miServe_keeps _ _ _ (fun _ => ?_)); exact .refl _; split; refine .trans ?_ (miAnswer_keeps ..)
    exact .refl _; refine .trans ?_ (miAnswer_keeps ..); exact .refl _
theorem execMiSubsystemHealthPoll_keeps {s : State} {t : State} (e : execMiSubsystemHealthPoll s = .next t) : Keeps s t := by
  unfold execMiSubsystemHealthPoll at e
  cases e
  with_reducible
    refine .trans ?_ (miServe_keeps _ _ _ (fun _ => ?_)); exact .refl _; refine .trans ?_ (miAnswer_keeps ..); exact .refl _
theorem execMiControllerHealthPoll_keeps {p : PortId} {s : State} {t : State} (e : execMiControllerHealthPoll p s = .next t) :
    Keeps s t := by
  unfold execMiControllerHealthPoll at e
  cases e
  with_reducible
    refine .trans ?_ (miServe_keeps _ _ _ (fun _ => ?_)); exact .refl _; refine .ite ?_ ?_; refine .trans ?_ (miAnswer_keeps ..)
    exact .refl _; refine .trans ?_ (miAnswer_keeps ..); exact .refl _
theorem execMiConfigurationGet_keeps {which : Nat} {s : State} {t : State} (e : execMiConfigurationGet which s = .next t) :
    Keeps s t := by
  unfold execMiConfigurationGet at e
  cases e
  with_reducible
    refine .trans ?_ (miServe_keeps _ _ _ (fun _ => ?_)); exact .refl _; refine .ite ?_ ?_; refine .trans ?_ (miAnswer_keeps ..)
    exact .refl _; refine .ite ?_ ?_; refine .trans ?_ (miAnswer_keeps ..); exact .refl _; refine .ite ?_ ?_
    refine .trans ?_ (miAnswer_keeps ..); exact .refl _; refine .trans ?_ (miAnswer_keeps ..); exact .refl _
theorem execMiConfigurationSet_keeps {which value : Nat} {s : State} {t : State}
    (e : execMiConfigurationSet which value s = .next t) : Keeps s t := by
  unfold execMiConfigurationSet at e
  cases e
  with_reducible
    refine .trans ?_ (miServe_keeps _ _ _ (fun _ => ?_)); exact .refl _; refine .ite ?_ ?_; refine .trans ?_ (miAnswer_keeps ..)
    refine .onMisc ?_; exact .refl _; refine .ite ?_ ?_; refine .trans ?_ (miAnswer_keeps ..); refine .onMisc ?_; exact .refl _
    refine .trans ?_ (miAnswer_keeps ..); exact .refl _
theorem execMiVpdRead_keeps {offset len : Nat} {s : State} {t : State} (e : execMiVpdRead offset len s = .next t) : Keeps s t
    := by
  unfold execMiVpdRead at e
  cases e
  with_reducible
    refine .trans ?_ (miServe_keeps _ _ _ (fun _ => ?_)); exact .refl _; refine .ite ?_ ?_; refine .trans ?_ (miAnswer_keeps ..)
    exact .refl _; refine .trans ?_ (miAnswer_keeps ..); exact .refl _
theorem execMiReset_keeps {s : State} {t : State} (e : execMiReset s = .next t) : Keeps s t := by
  unfold execMiReset at e
  cases e
  with_reducible
    refine .trans ?_ (miServe_keeps _ _ _ (fun _ => ?_)); exact .refl _; refine .trans ?_ (subsystemResetFrom_keeps ..)
    refine .trans ?_ (miAnswer_keeps ..); exact .refl _
theorem execMiTunnelledAdmin_keeps {p : PortId} {opcode field nsid : Nat} {r : LogReq} {s : State} {t : State}
    (e : execMiTunnelledAdmin p opcode field nsid r s = .next t) : Keeps s t := by
  unfold execMiTunnelledAdmin at e
  cases e
  with_reducible
    refine .trans ?_ (miServe_keeps _ _ _ (fun _ => ?_)); exact .refl _; refine .ite ?_ ?_; refine .trans ?_ (miAnswer_keeps ..)
    exact .refl _; refine .ite ?_ ?_; split; refine .trans ?_ (miTunnelAnswer_keeps ..); exact .refl _
    refine .trans ?_ (miTunnelAnswer_keeps ..); exact .refl _; refine .ite ?_ ?_; refine .trans ?_ (miTunnelAnswer_keeps ..)
    exact .refl _; refine .ite ?_ ?_; refine .trans ?_ (miGetFeatures_keeps ..); exact .refl _
    refine .trans ?_ (miAnswer_keeps ..); exact .refl _
theorem execBasicManagementCommand_keeps {s : State} {t : State} (e : execBasicManagementCommand s = .next t) : Keeps s t := by
  unfold execBasicManagementCommand at e
  cases e
  with_reducible (refine .iteR ?_ ?_; refine .trans ?_ (miAnswer_keeps ..); exact .refl _; exact .refl _)
theorem otpProgram_grows (m : List Host.Cell) (a : Nat) (b : Byte) : OtpGrows m (otpProgram m a b) := OtpGrows.program m a b
theorem jtagProgram_grows (m : List Host.Cell) (op : JtagOp) : OtpGrows m (jtagProgram m op) := by
  unfold jtagProgram
  split
  · exact OtpGrows.trans (otpProgram_grows _ _ _) (OtpGrows.trans (otpProgram_grows _ _ _) (otpProgram_grows _ _ _))
  · split
    · exact otpProgram_grows _ _ _
    · exact .refl _
theorem execJtagAccess_keeps {op : JtagOp} {s : State} {t : State} (e : execJtagAccess op s = .next t) : Keeps s t := by
  unfold execJtagAccess at e
  cases e
  with_reducible refine Keeps.ite ?_ ?_
  · exact Keeps.trans
      (Keeps.onSecOtp (f := fun x => { x with otp := jtagProgram x.otp op }) (fun _ => jtagProgram_grows _ _) (fun _ => rfl)
      (.refl _)) (lifecycleMoves_keeps ..)
  · exact .refl _

end Sys2Proof.Machine
end

