-- ==== Sys2Proof/Laws/State.lean ====
section
/-! SUPPORT. Every part of the state after every update of a part: true by unfolding, so that no proof unfolds an update. -/
namespace Sys2Proof.Machine

@[simp] theorem onPath_now (s : State) (f : Path → Path) : (s.onPath f).now = s.now := rfl
@[simp] theorem onPath_run (s : State) (f : Path → Path) : (s.onPath f).run = s.run := rfl
@[simp] theorem onPath_boot (s : State) (f : Path → Path) : (s.onPath f).boot = s.boot := rfl
@[simp] theorem onPath_spi (s : State) (f : Path → Path) : (s.onPath f).spi = s.spi := rfl
@[simp] theorem onPath_image (s : State) (f : Path → Path) : (s.onPath f).image = s.image := rfl
@[simp] theorem onPath_copyInUse (s : State) (f : Path → Path) : (s.onPath f).copyInUse = s.copyInUse := rfl
@[simp] theorem onPath_ucodeVersion (s : State) (f : Path → Path) : (s.onPath f).ucodeVersion = s.ucodeVersion := rfl
@[simp] theorem onPath_dlBuf (s : State) (f : Path → Path) : (s.onPath f).dlBuf = s.dlBuf := rfl
@[simp] theorem onPath_dlGranules (s : State) (f : Path → Path) : (s.onPath f).dlGranules = s.dlGranules := rfl
@[simp] theorem onPath_commit (s : State) (f : Path → Path) : (s.onPath f).commit = s.commit := rfl
@[simp] theorem onPath_activation (s : State) (f : Path → Path) : (s.onPath f).activation = s.activation := rfl
@[simp] theorem onPath_portA (s : State) (f : Path → Path) : (s.onPath f).portA = s.portA := rfl
@[simp] theorem onPath_portB (s : State) (f : Path → Path) : (s.onPath f).portB = s.portB := rfl
@[simp] theorem onPath_own (s : State) (f : Path → Path) : (s.onPath f).own = s.own := rfl
@[simp] theorem onPath_mediaMode (s : State) (f : Path → Path) : (s.onPath f).mediaMode = s.mediaMode := rfl
@[simp] theorem onPath_path (s : State) (f : Path → Path) : (s.onPath f).path = f s.path := rfl
@[simp] theorem onPath_media (s : State) (f : Path → Path) : (s.onPath f).media = s.media := rfl
@[simp] theorem onPath_upkeep (s : State) (f : Path → Path) : (s.onPath f).upkeep = s.upkeep := rfl
@[simp] theorem onPath_journal (s : State) (f : Path → Path) : (s.onPath f).journal = s.journal := rfl
@[simp] theorem onPath_movers (s : State) (f : Path → Path) : (s.onPath f).movers = s.movers := rfl
@[simp] theorem onPath_moverBlocks (s : State) (f : Path → Path) : (s.onPath f).moverBlocks = s.moverBlocks := rfl
@[simp] theorem onPath_dcs (s : State) (f : Path → Path) : (s.onPath f).dcs = s.dcs := rfl
@[simp] theorem onPath_hk (s : State) (f : Path → Path) : (s.onPath f).hk = s.hk := rfl
@[simp] theorem onPath_fh (s : State) (f : Path → Path) : (s.onPath f).fh = s.fh := rfl
@[simp] theorem onPath_sec (s : State) (f : Path → Path) : (s.onPath f).sec = s.sec := rfl
@[simp] theorem onPath_misc (s : State) (f : Path → Path) : (s.onPath f).misc = s.misc := rfl
@[simp] theorem onPath_freeCtr (s : State) (f : Path → Path) : (s.onPath f).freeCtr = s.freeCtr := rfl
@[simp] theorem onPath_pending (s : State) (f : Path → Path) : (s.onPath f).pending = s.pending := rfl
@[simp] theorem onPath_port (s : State) (f : Path → Path) (p : PortId) : (s.onPath f).port p = s.port p := rfl

@[simp] theorem onMedia_now (s : State) (f : Media → Media) : (s.onMedia f).now = s.now := rfl
@[simp] theorem onMedia_run (s : State) (f : Media → Media) : (s.onMedia f).run = s.run := rfl
@[simp] theorem onMedia_boot (s : State) (f : Media → Media) : (s.onMedia f).boot = s.boot := rfl
@[simp] theorem onMedia_spi (s : State) (f : Media → Media) : (s.onMedia f).spi = s.spi := rfl
@[simp] theorem onMedia_image (s : State) (f : Media → Media) : (s.onMedia f).image = s.image := rfl
@[simp] theorem onMedia_copyInUse (s : State) (f : Media → Media) : (s.onMedia f).copyInUse = s.copyInUse := rfl
@[simp] theorem onMedia_ucodeVersion (s : State) (f : Media → Media) : (s.onMedia f).ucodeVersion = s.ucodeVersion := rfl
@[simp] theorem onMedia_dlBuf (s : State) (f : Media → Media) : (s.onMedia f).dlBuf = s.dlBuf := rfl
@[simp] theorem onMedia_dlGranules (s : State) (f : Media → Media) : (s.onMedia f).dlGranules = s.dlGranules := rfl
@[simp] theorem onMedia_commit (s : State) (f : Media → Media) : (s.onMedia f).commit = s.commit := rfl
@[simp] theorem onMedia_activation (s : State) (f : Media → Media) : (s.onMedia f).activation = s.activation := rfl
@[simp] theorem onMedia_portA (s : State) (f : Media → Media) : (s.onMedia f).portA = s.portA := rfl
@[simp] theorem onMedia_portB (s : State) (f : Media → Media) : (s.onMedia f).portB = s.portB := rfl
@[simp] theorem onMedia_own (s : State) (f : Media → Media) : (s.onMedia f).own = s.own := rfl
@[simp] theorem onMedia_mediaMode (s : State) (f : Media → Media) : (s.onMedia f).mediaMode = s.mediaMode := rfl
@[simp] theorem onMedia_path (s : State) (f : Media → Media) : (s.onMedia f).path = s.path := rfl
@[simp] theorem onMedia_media (s : State) (f : Media → Media) : (s.onMedia f).media = f s.media := rfl
@[simp] theorem onMedia_upkeep (s : State) (f : Media → Media) : (s.onMedia f).upkeep = s.upkeep := rfl
@[simp] theorem onMedia_journal (s : State) (f : Media → Media) : (s.onMedia f).journal = s.journal := rfl
@[simp] theorem onMedia_movers (s : State) (f : Media → Media) : (s.onMedia f).movers = s.movers := rfl
@[simp] theorem onMedia_moverBlocks (s : State) (f : Media → Media) : (s.onMedia f).moverBlocks = s.moverBlocks := rfl
@[simp] theorem onMedia_dcs (s : State) (f : Media → Media) : (s.onMedia f).dcs = s.dcs := rfl
@[simp] theorem onMedia_hk (s : State) (f : Media → Media) : (s.onMedia f).hk = s.hk := rfl
@[simp] theorem onMedia_fh (s : State) (f : Media → Media) : (s.onMedia f).fh = s.fh := rfl
@[simp] theorem onMedia_sec (s : State) (f : Media → Media) : (s.onMedia f).sec = s.sec := rfl
@[simp] theorem onMedia_misc (s : State) (f : Media → Media) : (s.onMedia f).misc = s.misc := rfl
@[simp] theorem onMedia_freeCtr (s : State) (f : Media → Media) : (s.onMedia f).freeCtr = s.freeCtr := rfl
@[simp] theorem onMedia_pending (s : State) (f : Media → Media) : (s.onMedia f).pending = s.pending := rfl
@[simp] theorem onMedia_port (s : State) (f : Media → Media) (p : PortId) : (s.onMedia f).port p = s.port p := rfl

@[simp] theorem onUpkeep_now (s : State) (f : Upkeep → Upkeep) : (s.onUpkeep f).now = s.now := rfl
@[simp] theorem onUpkeep_run (s : State) (f : Upkeep → Upkeep) : (s.onUpkeep f).run = s.run := rfl
@[simp] theorem onUpkeep_boot (s : State) (f : Upkeep → Upkeep) : (s.onUpkeep f).boot = s.boot := rfl
@[simp] theorem onUpkeep_spi (s : State) (f : Upkeep → Upkeep) : (s.onUpkeep f).spi = s.spi := rfl
@[simp] theorem onUpkeep_image (s : State) (f : Upkeep → Upkeep) : (s.onUpkeep f).image = s.image := rfl
@[simp] theorem onUpkeep_copyInUse (s : State) (f : Upkeep → Upkeep) : (s.onUpkeep f).copyInUse = s.copyInUse := rfl
@[simp] theorem onUpkeep_ucodeVersion (s : State) (f : Upkeep → Upkeep) : (s.onUpkeep f).ucodeVersion = s.ucodeVersion := rfl
@[simp] theorem onUpkeep_dlBuf (s : State) (f : Upkeep → Upkeep) : (s.onUpkeep f).dlBuf = s.dlBuf := rfl
@[simp] theorem onUpkeep_dlGranules (s : State) (f : Upkeep → Upkeep) : (s.onUpkeep f).dlGranules = s.dlGranules := rfl
@[simp] theorem onUpkeep_commit (s : State) (f : Upkeep → Upkeep) : (s.onUpkeep f).commit = s.commit := rfl
@[simp] theorem onUpkeep_activation (s : State) (f : Upkeep → Upkeep) : (s.onUpkeep f).activation = s.activation := rfl
@[simp] theorem onUpkeep_portA (s : State) (f : Upkeep → Upkeep) : (s.onUpkeep f).portA = s.portA := rfl
@[simp] theorem onUpkeep_portB (s : State) (f : Upkeep → Upkeep) : (s.onUpkeep f).portB = s.portB := rfl
@[simp] theorem onUpkeep_own (s : State) (f : Upkeep → Upkeep) : (s.onUpkeep f).own = s.own := rfl
@[simp] theorem onUpkeep_mediaMode (s : State) (f : Upkeep → Upkeep) : (s.onUpkeep f).mediaMode = s.mediaMode := rfl
@[simp] theorem onUpkeep_path (s : State) (f : Upkeep → Upkeep) : (s.onUpkeep f).path = s.path := rfl
@[simp] theorem onUpkeep_media (s : State) (f : Upkeep → Upkeep) : (s.onUpkeep f).media = s.media := rfl
@[simp] theorem onUpkeep_upkeep (s : State) (f : Upkeep → Upkeep) : (s.onUpkeep f).upkeep = f s.upkeep := rfl
@[simp] theorem onUpkeep_journal (s : State) (f : Upkeep → Upkeep) : (s.onUpkeep f).journal = s.journal := rfl
@[simp] theorem onUpkeep_movers (s : State) (f : Upkeep → Upkeep) : (s.onUpkeep f).movers = s.movers := rfl
@[simp] theorem onUpkeep_moverBlocks (s : State) (f : Upkeep → Upkeep) : (s.onUpkeep f).moverBlocks = s.moverBlocks := rfl
@[simp] theorem onUpkeep_dcs (s : State) (f : Upkeep → Upkeep) : (s.onUpkeep f).dcs = s.dcs := rfl
@[simp] theorem onUpkeep_hk (s : State) (f : Upkeep → Upkeep) : (s.onUpkeep f).hk = s.hk := rfl
@[simp] theorem onUpkeep_fh (s : State) (f : Upkeep → Upkeep) : (s.onUpkeep f).fh = s.fh := rfl
@[simp] theorem onUpkeep_sec (s : State) (f : Upkeep → Upkeep) : (s.onUpkeep f).sec = s.sec := rfl
@[simp] theorem onUpkeep_misc (s : State) (f : Upkeep → Upkeep) : (s.onUpkeep f).misc = s.misc := rfl
@[simp] theorem onUpkeep_freeCtr (s : State) (f : Upkeep → Upkeep) : (s.onUpkeep f).freeCtr = s.freeCtr := rfl
@[simp] theorem onUpkeep_pending (s : State) (f : Upkeep → Upkeep) : (s.onUpkeep f).pending = s.pending := rfl
@[simp] theorem onUpkeep_port (s : State) (f : Upkeep → Upkeep) (p : PortId) : (s.onUpkeep f).port p = s.port p := rfl

@[simp] theorem onJournal_now (s : State) (f : Journal → Journal) : (s.onJournal f).now = s.now := rfl
@[simp] theorem onJournal_run (s : State) (f : Journal → Journal) : (s.onJournal f).run = s.run := rfl
@[simp] theorem onJournal_boot (s : State) (f : Journal → Journal) : (s.onJournal f).boot = s.boot := rfl
@[simp] theorem onJournal_spi (s : State) (f : Journal → Journal) : (s.onJournal f).spi = s.spi := rfl
@[simp] theorem onJournal_image (s : State) (f : Journal → Journal) : (s.onJournal f).image = s.image := rfl
@[simp] theorem onJournal_copyInUse (s : State) (f : Journal → Journal) : (s.onJournal f).copyInUse = s.copyInUse := rfl
@[simp] theorem onJournal_ucodeVersion (s : State) (f : Journal → Journal) : (s.onJournal f).ucodeVersion = s.ucodeVersion := rfl
@[simp] theorem onJournal_dlBuf (s : State) (f : Journal → Journal) : (s.onJournal f).dlBuf = s.dlBuf := rfl
@[simp] theorem onJournal_dlGranules (s : State) (f : Journal → Journal) : (s.onJournal f).dlGranules = s.dlGranules := rfl
@[simp] theorem onJournal_commit (s : State) (f : Journal → Journal) : (s.onJournal f).commit = s.commit := rfl
@[simp] theorem onJournal_activation (s : State) (f : Journal → Journal) : (s.onJournal f).activation = s.activation := rfl
@[simp] theorem onJournal_portA (s : State) (f : Journal → Journal) : (s.onJournal f).portA = s.portA := rfl
@[simp] theorem onJournal_portB (s : State) (f : Journal → Journal) : (s.onJournal f).portB = s.portB := rfl
@[simp] theorem onJournal_own (s : State) (f : Journal → Journal) : (s.onJournal f).own = s.own := rfl
@[simp] theorem onJournal_mediaMode (s : State) (f : Journal → Journal) : (s.onJournal f).mediaMode = s.mediaMode := rfl
@[simp] theorem onJournal_path (s : State) (f : Journal → Journal) : (s.onJournal f).path = s.path := rfl
@[simp] theorem onJournal_media (s : State) (f : Journal → Journal) : (s.onJournal f).media = s.media := rfl
@[simp] theorem onJournal_upkeep (s : State) (f : Journal → Journal) : (s.onJournal f).upkeep = s.upkeep := rfl
@[simp] theorem onJournal_journal (s : State) (f : Journal → Journal) : (s.onJournal f).journal = f s.journal := rfl
@[simp] theorem onJournal_movers (s : State) (f : Journal → Journal) : (s.onJournal f).movers = s.movers := rfl
@[simp] theorem onJournal_moverBlocks (s : State) (f : Journal → Journal) : (s.onJournal f).moverBlocks = s.moverBlocks := rfl
@[simp] theorem onJournal_dcs (s : State) (f : Journal → Journal) : (s.onJournal f).dcs = s.dcs := rfl
@[simp] theorem onJournal_hk (s : State) (f : Journal → Journal) : (s.onJournal f).hk = s.hk := rfl
@[simp] theorem onJournal_fh (s : State) (f : Journal → Journal) : (s.onJournal f).fh = s.fh := rfl
@[simp] theorem onJournal_sec (s : State) (f : Journal → Journal) : (s.onJournal f).sec = s.sec := rfl
@[simp] theorem onJournal_misc (s : State) (f : Journal → Journal) : (s.onJournal f).misc = s.misc := rfl
@[simp] theorem onJournal_freeCtr (s : State) (f : Journal → Journal) : (s.onJournal f).freeCtr = s.freeCtr := rfl
@[simp] theorem onJournal_pending (s : State) (f : Journal → Journal) : (s.onJournal f).pending = s.pending := rfl
@[simp] theorem onJournal_port (s : State) (f : Journal → Journal) (p : PortId) : (s.onJournal f).port p = s.port p := rfl

@[simp] theorem onHk_now (s : State) (f : Hk → Hk) : (s.onHk f).now = s.now := rfl
@[simp] theorem onHk_run (s : State) (f : Hk → Hk) : (s.onHk f).run = s.run := rfl
@[simp] theorem onHk_boot (s : State) (f : Hk → Hk) : (s.onHk f).boot = s.boot := rfl
@[simp] theorem onHk_spi (s : State) (f : Hk → Hk) : (s.onHk f).spi = s.spi := rfl
@[simp] theorem onHk_image (s : State) (f : Hk → Hk) : (s.onHk f).image = s.image := rfl
@[simp] theorem onHk_copyInUse (s : State) (f : Hk → Hk) : (s.onHk f).copyInUse = s.copyInUse := rfl
@[simp] theorem onHk_ucodeVersion (s : State) (f : Hk → Hk) : (s.onHk f).ucodeVersion = s.ucodeVersion := rfl
@[simp] theorem onHk_dlBuf (s : State) (f : Hk → Hk) : (s.onHk f).dlBuf = s.dlBuf := rfl
@[simp] theorem onHk_dlGranules (s : State) (f : Hk → Hk) : (s.onHk f).dlGranules = s.dlGranules := rfl
@[simp] theorem onHk_commit (s : State) (f : Hk → Hk) : (s.onHk f).commit = s.commit := rfl
@[simp] theorem onHk_activation (s : State) (f : Hk → Hk) : (s.onHk f).activation = s.activation := rfl
@[simp] theorem onHk_portA (s : State) (f : Hk → Hk) : (s.onHk f).portA = s.portA := rfl
@[simp] theorem onHk_portB (s : State) (f : Hk → Hk) : (s.onHk f).portB = s.portB := rfl
@[simp] theorem onHk_own (s : State) (f : Hk → Hk) : (s.onHk f).own = s.own := rfl
@[simp] theorem onHk_mediaMode (s : State) (f : Hk → Hk) : (s.onHk f).mediaMode = s.mediaMode := rfl
@[simp] theorem onHk_path (s : State) (f : Hk → Hk) : (s.onHk f).path = s.path := rfl
@[simp] theorem onHk_media (s : State) (f : Hk → Hk) : (s.onHk f).media = s.media := rfl
@[simp] theorem onHk_upkeep (s : State) (f : Hk → Hk) : (s.onHk f).upkeep = s.upkeep := rfl
@[simp] theorem onHk_journal (s : State) (f : Hk → Hk) : (s.onHk f).journal = s.journal := rfl
@[simp] theorem onHk_movers (s : State) (f : Hk → Hk) : (s.onHk f).movers = s.movers := rfl
@[simp] theorem onHk_moverBlocks (s : State) (f : Hk → Hk) : (s.onHk f).moverBlocks = s.moverBlocks := rfl
@[simp] theorem onHk_dcs (s : State) (f : Hk → Hk) : (s.onHk f).dcs = s.dcs := rfl
@[simp] theorem onHk_hk (s : State) (f : Hk → Hk) : (s.onHk f).hk = f s.hk := rfl
@[simp] theorem onHk_fh (s : State) (f : Hk → Hk) : (s.onHk f).fh = s.fh := rfl
@[simp] theorem onHk_sec (s : State) (f : Hk → Hk) : (s.onHk f).sec = s.sec := rfl
@[simp] theorem onHk_misc (s : State) (f : Hk → Hk) : (s.onHk f).misc = s.misc := rfl
@[simp] theorem onHk_freeCtr (s : State) (f : Hk → Hk) : (s.onHk f).freeCtr = s.freeCtr := rfl
@[simp] theorem onHk_pending (s : State) (f : Hk → Hk) : (s.onHk f).pending = s.pending := rfl
@[simp] theorem onHk_port (s : State) (f : Hk → Hk) (p : PortId) : (s.onHk f).port p = s.port p := rfl

@[simp] theorem onFh_now (s : State) (f : Fh → Fh) : (s.onFh f).now = s.now := rfl
@[simp] theorem onFh_run (s : State) (f : Fh → Fh) : (s.onFh f).run = s.run := rfl
@[simp] theorem onFh_boot (s : State) (f : Fh → Fh) : (s.onFh f).boot = s.boot := rfl
@[simp] theorem onFh_spi (s : State) (f : Fh → Fh) : (s.onFh f).spi = s.spi := rfl
@[simp] theorem onFh_image (s : State) (f : Fh → Fh) : (s.onFh f).image = s.image := rfl
@[simp] theorem onFh_copyInUse (s : State) (f : Fh → Fh) : (s.onFh f).copyInUse = s.copyInUse := rfl
@[simp] theorem onFh_ucodeVersion (s : State) (f : Fh → Fh) : (s.onFh f).ucodeVersion = s.ucodeVersion := rfl
@[simp] theorem onFh_dlBuf (s : State) (f : Fh → Fh) : (s.onFh f).dlBuf = s.dlBuf := rfl
@[simp] theorem onFh_dlGranules (s : State) (f : Fh → Fh) : (s.onFh f).dlGranules = s.dlGranules := rfl
@[simp] theorem onFh_commit (s : State) (f : Fh → Fh) : (s.onFh f).commit = s.commit := rfl
@[simp] theorem onFh_activation (s : State) (f : Fh → Fh) : (s.onFh f).activation = s.activation := rfl
@[simp] theorem onFh_portA (s : State) (f : Fh → Fh) : (s.onFh f).portA = s.portA := rfl
@[simp] theorem onFh_portB (s : State) (f : Fh → Fh) : (s.onFh f).portB = s.portB := rfl
@[simp] theorem onFh_own (s : State) (f : Fh → Fh) : (s.onFh f).own = s.own := rfl
@[simp] theorem onFh_mediaMode (s : State) (f : Fh → Fh) : (s.onFh f).mediaMode = s.mediaMode := rfl
@[simp] theorem onFh_path (s : State) (f : Fh → Fh) : (s.onFh f).path = s.path := rfl
@[simp] theorem onFh_media (s : State) (f : Fh → Fh) : (s.onFh f).media = s.media := rfl
@[simp] theorem onFh_upkeep (s : State) (f : Fh → Fh) : (s.onFh f).upkeep = s.upkeep := rfl
@[simp] theorem onFh_journal (s : State) (f : Fh → Fh) : (s.onFh f).journal = s.journal := rfl
@[simp] theorem onFh_movers (s : State) (f : Fh → Fh) : (s.onFh f).movers = s.movers := rfl
@[simp] theorem onFh_moverBlocks (s : State) (f : Fh → Fh) : (s.onFh f).moverBlocks = s.moverBlocks := rfl
@[simp] theorem onFh_dcs (s : State) (f : Fh → Fh) : (s.onFh f).dcs = s.dcs := rfl
@[simp] theorem onFh_hk (s : State) (f : Fh → Fh) : (s.onFh f).hk = s.hk := rfl
@[simp] theorem onFh_fh (s : State) (f : Fh → Fh) : (s.onFh f).fh = f s.fh := rfl
@[simp] theorem onFh_sec (s : State) (f : Fh → Fh) : (s.onFh f).sec = s.sec := rfl
@[simp] theorem onFh_misc (s : State) (f : Fh → Fh) : (s.onFh f).misc = s.misc := rfl
@[simp] theorem onFh_freeCtr (s : State) (f : Fh → Fh) : (s.onFh f).freeCtr = s.freeCtr := rfl
@[simp] theorem onFh_pending (s : State) (f : Fh → Fh) : (s.onFh f).pending = s.pending := rfl
@[simp] theorem onFh_port (s : State) (f : Fh → Fh) (p : PortId) : (s.onFh f).port p = s.port p := rfl

@[simp] theorem onSec_now (s : State) (f : Sec → Sec) : (s.onSec f).now = s.now := rfl
@[simp] theorem onSec_run (s : State) (f : Sec → Sec) : (s.onSec f).run = s.run := rfl
@[simp] theorem onSec_boot (s : State) (f : Sec → Sec) : (s.onSec f).boot = s.boot := rfl
@[simp] theorem onSec_spi (s : State) (f : Sec → Sec) : (s.onSec f).spi = s.spi := rfl
@[simp] theorem onSec_image (s : State) (f : Sec → Sec) : (s.onSec f).image = s.image := rfl
@[simp] theorem onSec_copyInUse (s : State) (f : Sec → Sec) : (s.onSec f).copyInUse = s.copyInUse := rfl
@[simp] theorem onSec_ucodeVersion (s : State) (f : Sec → Sec) : (s.onSec f).ucodeVersion = s.ucodeVersion := rfl
@[simp] theorem onSec_dlBuf (s : State) (f : Sec → Sec) : (s.onSec f).dlBuf = s.dlBuf := rfl
@[simp] theorem onSec_dlGranules (s : State) (f : Sec → Sec) : (s.onSec f).dlGranules = s.dlGranules := rfl
@[simp] theorem onSec_commit (s : State) (f : Sec → Sec) : (s.onSec f).commit = s.commit := rfl
@[simp] theorem onSec_activation (s : State) (f : Sec → Sec) : (s.onSec f).activation = s.activation := rfl
@[simp] theorem onSec_portA (s : State) (f : Sec → Sec) : (s.onSec f).portA = s.portA := rfl
@[simp] theorem onSec_portB (s : State) (f : Sec → Sec) : (s.onSec f).portB = s.portB := rfl
@[simp] theorem onSec_own (s : State) (f : Sec → Sec) : (s.onSec f).own = s.own := rfl
@[simp] theorem onSec_mediaMode (s : State) (f : Sec → Sec) : (s.onSec f).mediaMode = s.mediaMode := rfl
@[simp] theorem onSec_path (s : State) (f : Sec → Sec) : (s.onSec f).path = s.path := rfl
@[simp] theorem onSec_media (s : State) (f : Sec → Sec) : (s.onSec f).media = s.media := rfl
@[simp] theorem onSec_upkeep (s : State) (f : Sec → Sec) : (s.onSec f).upkeep = s.upkeep := rfl
@[simp] theorem onSec_journal (s : State) (f : Sec → Sec) : (s.onSec f).journal = s.journal := rfl
@[simp] theorem onSec_movers (s : State) (f : Sec → Sec) : (s.onSec f).movers = s.movers := rfl
@[simp] theorem onSec_moverBlocks (s : State) (f : Sec → Sec) : (s.onSec f).moverBlocks = s.moverBlocks := rfl
@[simp] theorem onSec_dcs (s : State) (f : Sec → Sec) : (s.onSec f).dcs = s.dcs := rfl
@[simp] theorem onSec_hk (s : State) (f : Sec → Sec) : (s.onSec f).hk = s.hk := rfl
@[simp] theorem onSec_fh (s : State) (f : Sec → Sec) : (s.onSec f).fh = s.fh := rfl
@[simp] theorem onSec_sec (s : State) (f : Sec → Sec) : (s.onSec f).sec = f s.sec := rfl
@[simp] theorem onSec_misc (s : State) (f : Sec → Sec) : (s.onSec f).misc = s.misc := rfl
@[simp] theorem onSec_freeCtr (s : State) (f : Sec → Sec) : (s.onSec f).freeCtr = s.freeCtr := rfl
@[simp] theorem onSec_pending (s : State) (f : Sec → Sec) : (s.onSec f).pending = s.pending := rfl
@[simp] theorem onSec_port (s : State) (f : Sec → Sec) (p : PortId) : (s.onSec f).port p = s.port p := rfl

@[simp] theorem onMisc_now (s : State) (f : Misc → Misc) : (s.onMisc f).now = s.now := rfl
@[simp] theorem onMisc_run (s : State) (f : Misc → Misc) : (s.onMisc f).run = s.run := rfl
@[simp] theorem onMisc_boot (s : State) (f : Misc → Misc) : (s.onMisc f).boot = s.boot := rfl
@[simp] theorem onMisc_spi (s : State) (f : Misc → Misc) : (s.onMisc f).spi = s.spi := rfl
@[simp] theorem onMisc_image (s : State) (f : Misc → Misc) : (s.onMisc f).image = s.image := rfl
@[simp] theorem onMisc_copyInUse (s : State) (f : Misc → Misc) : (s.onMisc f).copyInUse = s.copyInUse := rfl
@[simp] theorem onMisc_ucodeVersion (s : State) (f : Misc → Misc) : (s.onMisc f).ucodeVersion = s.ucodeVersion := rfl
@[simp] theorem onMisc_dlBuf (s : State) (f : Misc → Misc) : (s.onMisc f).dlBuf = s.dlBuf := rfl
@[simp] theorem onMisc_dlGranules (s : State) (f : Misc → Misc) : (s.onMisc f).dlGranules = s.dlGranules := rfl
@[simp] theorem onMisc_commit (s : State) (f : Misc → Misc) : (s.onMisc f).commit = s.commit := rfl
@[simp] theorem onMisc_activation (s : State) (f : Misc → Misc) : (s.onMisc f).activation = s.activation := rfl
@[simp] theorem onMisc_portA (s : State) (f : Misc → Misc) : (s.onMisc f).portA = s.portA := rfl
@[simp] theorem onMisc_portB (s : State) (f : Misc → Misc) : (s.onMisc f).portB = s.portB := rfl
@[simp] theorem onMisc_own (s : State) (f : Misc → Misc) : (s.onMisc f).own = s.own := rfl
@[simp] theorem onMisc_mediaMode (s : State) (f : Misc → Misc) : (s.onMisc f).mediaMode = s.mediaMode := rfl
@[simp] theorem onMisc_path (s : State) (f : Misc → Misc) : (s.onMisc f).path = s.path := rfl
@[simp] theorem onMisc_media (s : State) (f : Misc → Misc) : (s.onMisc f).media = s.media := rfl
@[simp] theorem onMisc_upkeep (s : State) (f : Misc → Misc) : (s.onMisc f).upkeep = s.upkeep := rfl
@[simp] theorem onMisc_journal (s : State) (f : Misc → Misc) : (s.onMisc f).journal = s.journal := rfl
@[simp] theorem onMisc_movers (s : State) (f : Misc → Misc) : (s.onMisc f).movers = s.movers := rfl
@[simp] theorem onMisc_moverBlocks (s : State) (f : Misc → Misc) : (s.onMisc f).moverBlocks = s.moverBlocks := rfl
@[simp] theorem onMisc_dcs (s : State) (f : Misc → Misc) : (s.onMisc f).dcs = s.dcs := rfl
@[simp] theorem onMisc_hk (s : State) (f : Misc → Misc) : (s.onMisc f).hk = s.hk := rfl
@[simp] theorem onMisc_fh (s : State) (f : Misc → Misc) : (s.onMisc f).fh = s.fh := rfl
@[simp] theorem onMisc_sec (s : State) (f : Misc → Misc) : (s.onMisc f).sec = s.sec := rfl
@[simp] theorem onMisc_misc (s : State) (f : Misc → Misc) : (s.onMisc f).misc = f s.misc := rfl
@[simp] theorem onMisc_freeCtr (s : State) (f : Misc → Misc) : (s.onMisc f).freeCtr = s.freeCtr := rfl
@[simp] theorem onMisc_pending (s : State) (f : Misc → Misc) : (s.onMisc f).pending = s.pending := rfl
@[simp] theorem onMisc_port (s : State) (f : Misc → Misc) (p : PortId) : (s.onMisc f).port p = s.port p := rfl

@[simp] theorem onBoot_now (s : State) (f : Boot → Boot) : (s.onBoot f).now = s.now := rfl
@[simp] theorem onBoot_run (s : State) (f : Boot → Boot) : (s.onBoot f).run = s.run := rfl
@[simp] theorem onBoot_boot (s : State) (f : Boot → Boot) : (s.onBoot f).boot = f s.boot := rfl
@[simp] theorem onBoot_spi (s : State) (f : Boot → Boot) : (s.onBoot f).spi = s.spi := rfl
@[simp] theorem onBoot_image (s : State) (f : Boot → Boot) : (s.onBoot f).image = s.image := rfl
@[simp] theorem onBoot_copyInUse (s : State) (f : Boot → Boot) : (s.onBoot f).copyInUse = s.copyInUse := rfl
@[simp] theorem onBoot_ucodeVersion (s : State) (f : Boot → Boot) : (s.onBoot f).ucodeVersion = s.ucodeVersion := rfl
@[simp] theorem onBoot_dlBuf (s : State) (f : Boot → Boot) : (s.onBoot f).dlBuf = s.dlBuf := rfl
@[simp] theorem onBoot_dlGranules (s : State) (f : Boot → Boot) : (s.onBoot f).dlGranules = s.dlGranules := rfl
@[simp] theorem onBoot_commit (s : State) (f : Boot → Boot) : (s.onBoot f).commit = s.commit := rfl
@[simp] theorem onBoot_activation (s : State) (f : Boot → Boot) : (s.onBoot f).activation = s.activation := rfl
@[simp] theorem onBoot_portA (s : State) (f : Boot → Boot) : (s.onBoot f).portA = s.portA := rfl
@[simp] theorem onBoot_portB (s : State) (f : Boot → Boot) : (s.onBoot f).portB = s.portB := rfl
@[simp] theorem onBoot_own (s : State) (f : Boot → Boot) : (s.onBoot f).own = s.own := rfl
@[simp] theorem onBoot_mediaMode (s : State) (f : Boot → Boot) : (s.onBoot f).mediaMode = s.mediaMode := rfl
@[simp] theorem onBoot_path (s : State) (f : Boot → Boot) : (s.onBoot f).path = s.path := rfl
@[simp] theorem onBoot_media (s : State) (f : Boot → Boot) : (s.onBoot f).media = s.media := rfl
@[simp] theorem onBoot_upkeep (s : State) (f : Boot → Boot) : (s.onBoot f).upkeep = s.upkeep := rfl
@[simp] theorem onBoot_journal (s : State) (f : Boot → Boot) : (s.onBoot f).journal = s.journal := rfl
@[simp] theorem onBoot_movers (s : State) (f : Boot → Boot) : (s.onBoot f).movers = s.movers := rfl
@[simp] theorem onBoot_moverBlocks (s : State) (f : Boot → Boot) : (s.onBoot f).moverBlocks = s.moverBlocks := rfl
@[simp] theorem onBoot_dcs (s : State) (f : Boot → Boot) : (s.onBoot f).dcs = s.dcs := rfl
@[simp] theorem onBoot_hk (s : State) (f : Boot → Boot) : (s.onBoot f).hk = s.hk := rfl
@[simp] theorem onBoot_fh (s : State) (f : Boot → Boot) : (s.onBoot f).fh = s.fh := rfl
@[simp] theorem onBoot_sec (s : State) (f : Boot → Boot) : (s.onBoot f).sec = s.sec := rfl
@[simp] theorem onBoot_misc (s : State) (f : Boot → Boot) : (s.onBoot f).misc = s.misc := rfl
@[simp] theorem onBoot_freeCtr (s : State) (f : Boot → Boot) : (s.onBoot f).freeCtr = s.freeCtr := rfl
@[simp] theorem onBoot_pending (s : State) (f : Boot → Boot) : (s.onBoot f).pending = s.pending := rfl
@[simp] theorem onBoot_port (s : State) (f : Boot → Boot) (p : PortId) : (s.onBoot f).port p = s.port p := rfl

@[simp] theorem onOwn_now (s : State) (f : Own → Own) : (s.onOwn f).now = s.now := rfl
@[simp] theorem onOwn_run (s : State) (f : Own → Own) : (s.onOwn f).run = s.run := rfl
@[simp] theorem onOwn_boot (s : State) (f : Own → Own) : (s.onOwn f).boot = s.boot := rfl
@[simp] theorem onOwn_spi (s : State) (f : Own → Own) : (s.onOwn f).spi = s.spi := rfl
@[simp] theorem onOwn_image (s : State) (f : Own → Own) : (s.onOwn f).image = s.image := rfl
@[simp] theorem onOwn_copyInUse (s : State) (f : Own → Own) : (s.onOwn f).copyInUse = s.copyInUse := rfl
@[simp] theorem onOwn_ucodeVersion (s : State) (f : Own → Own) : (s.onOwn f).ucodeVersion = s.ucodeVersion := rfl
@[simp] theorem onOwn_dlBuf (s : State) (f : Own → Own) : (s.onOwn f).dlBuf = s.dlBuf := rfl
@[simp] theorem onOwn_dlGranules (s : State) (f : Own → Own) : (s.onOwn f).dlGranules = s.dlGranules := rfl
@[simp] theorem onOwn_commit (s : State) (f : Own → Own) : (s.onOwn f).commit = s.commit := rfl
@[simp] theorem onOwn_activation (s : State) (f : Own → Own) : (s.onOwn f).activation = s.activation := rfl
@[simp] theorem onOwn_portA (s : State) (f : Own → Own) : (s.onOwn f).portA = s.portA := rfl
@[simp] theorem onOwn_portB (s : State) (f : Own → Own) : (s.onOwn f).portB = s.portB := rfl
@[simp] theorem onOwn_own (s : State) (f : Own → Own) : (s.onOwn f).own = f s.own := rfl
@[simp] theorem onOwn_mediaMode (s : State) (f : Own → Own) : (s.onOwn f).mediaMode = s.mediaMode := rfl
@[simp] theorem onOwn_path (s : State) (f : Own → Own) : (s.onOwn f).path = s.path := rfl
@[simp] theorem onOwn_media (s : State) (f : Own → Own) : (s.onOwn f).media = s.media := rfl
@[simp] theorem onOwn_upkeep (s : State) (f : Own → Own) : (s.onOwn f).upkeep = s.upkeep := rfl
@[simp] theorem onOwn_journal (s : State) (f : Own → Own) : (s.onOwn f).journal = s.journal := rfl
@[simp] theorem onOwn_movers (s : State) (f : Own → Own) : (s.onOwn f).movers = s.movers := rfl
@[simp] theorem onOwn_moverBlocks (s : State) (f : Own → Own) : (s.onOwn f).moverBlocks = s.moverBlocks := rfl
@[simp] theorem onOwn_dcs (s : State) (f : Own → Own) : (s.onOwn f).dcs = s.dcs := rfl
@[simp] theorem onOwn_hk (s : State) (f : Own → Own) : (s.onOwn f).hk = s.hk := rfl
@[simp] theorem onOwn_fh (s : State) (f : Own → Own) : (s.onOwn f).fh = s.fh := rfl
@[simp] theorem onOwn_sec (s : State) (f : Own → Own) : (s.onOwn f).sec = s.sec := rfl
@[simp] theorem onOwn_misc (s : State) (f : Own → Own) : (s.onOwn f).misc = s.misc := rfl
@[simp] theorem onOwn_freeCtr (s : State) (f : Own → Own) : (s.onOwn f).freeCtr = s.freeCtr := rfl
@[simp] theorem onOwn_pending (s : State) (f : Own → Own) : (s.onOwn f).pending = s.pending := rfl
@[simp] theorem onOwn_port (s : State) (f : Own → Own) (p : PortId) : (s.onOwn f).port p = s.port p := rfl

@[simp] theorem onBoth_now (s : State) (f : Port → Port) : (s.onBoth f).now = s.now := rfl
@[simp] theorem onPort_now (s : State) (p : PortId) (f : Port → Port) : (s.onPort p f).now = s.now := by cases p <;> rfl
@[simp] theorem onBoth_run (s : State) (f : Port → Port) : (s.onBoth f).run = s.run := rfl
@[simp] theorem onPort_run (s : State) (p : PortId) (f : Port → Port) : (s.onPort p f).run = s.run := by cases p <;> rfl
@[simp] theorem onBoth_boot (s : State) (f : Port → Port) : (s.onBoth f).boot = s.boot := rfl
@[simp] theorem onPort_boot (s : State) (p : PortId) (f : Port → Port) : (s.onPort p f).boot = s.boot := by cases p <;> rfl
@[simp] theorem onBoth_spi (s : State) (f : Port → Port) : (s.onBoth f).spi = s.spi := rfl
@[simp] theorem onPort_spi (s : State) (p : PortId) (f : Port → Port) : (s.onPort p f).spi = s.spi := by cases p <;> rfl
@[simp] theorem onBoth_image (s : State) (f : Port → Port) : (s.onBoth f).image = s.image := rfl
@[simp] theorem onPort_image (s : State) (p : PortId) (f : Port → Port) : (s.onPort p f).image = s.image := by cases p <;> rfl
@[simp] theorem onBoth_copyInUse (s : State) (f : Port → Port) : (s.onBoth f).copyInUse = s.copyInUse := rfl
@[simp] theorem onPort_copyInUse (s : State) (p : PortId) (f : Port → Port) : (s.onPort p f).copyInUse = s.copyInUse := by cases p <;> rfl
@[simp] theorem onBoth_ucodeVersion (s : State) (f : Port → Port) : (s.onBoth f).ucodeVersion = s.ucodeVersion := rfl
@[simp] theorem onPort_ucodeVersion (s : State) (p : PortId) (f : Port → Port) : (s.onPort p f).ucodeVersion = s.ucodeVersion := by cases p <;> rfl
@[simp] theorem onBoth_dlBuf (s : State) (f : Port → Port) : (s.onBoth f).dlBuf = s.dlBuf := rfl
@[simp] theorem onPort_dlBuf (s : State) (p : PortId) (f : Port → Port) : (s.onPort p f).dlBuf = s.dlBuf := by cases p <;> rfl
@[simp] theorem onBoth_dlGranules (s : State) (f : Port → Port) : (s.onBoth f).dlGranules = s.dlGranules := rfl
@[simp] theorem onPort_dlGranules (s : State) (p : PortId) (f : Port → Port) : (s.onPort p f).dlGranules = s.dlGranules := by cases p <;> rfl
@[simp] theorem onBoth_commit (s : State) (f : Port → Port) : (s.onBoth f).commit = s.commit := rfl
@[simp] theorem onPort_commit (s : State) (p : PortId) (f : Port → Port) : (s.onPort p f).commit = s.commit := by cases p <;> rfl
@[simp] theorem onBoth_activation (s : State) (f : Port → Port) : (s.onBoth f).activation = s.activation := rfl
@[simp] theorem onPort_activation (s : State) (p : PortId) (f : Port → Port) : (s.onPort p f).activation = s.activation := by cases p <;> rfl
@[simp] theorem onBoth_portA (s : State) (f : Port → Port) : (s.onBoth f).portA = f s.portA := rfl
@[simp] theorem onBoth_portB (s : State) (f : Port → Port) : (s.onBoth f).portB = f s.portB := rfl
@[simp] theorem onBoth_own (s : State) (f : Port → Port) : (s.onBoth f).own = s.own := rfl
@[simp] theorem onPort_own (s : State) (p : PortId) (f : Port → Port) : (s.onPort p f).own = s.own := by cases p <;> rfl
@[simp] theorem onBoth_mediaMode (s : State) (f : Port → Port) : (s.onBoth f).mediaMode = s.mediaMode := rfl
@[simp] theorem onPort_mediaMode (s : State) (p : PortId) (f : Port → Port) : (s.onPort p f).mediaMode = s.mediaMode := by cases p <;> rfl
@[simp] theorem onBoth_path (s : State) (f : Port → Port) : (s.onBoth f).path = s.path := rfl
@[simp] theorem onPort_path (s : State) (p : PortId) (f : Port → Port) : (s.onPort p f).path = s.path := by cases p <;> rfl
@[simp] theorem onBoth_media (s : State) (f : Port → Port) : (s.onBoth f).media = s.media := rfl
@[simp] theorem onPort_media (s : State) (p : PortId) (f : Port → Port) : (s.onPort p f).media = s.media := by cases p <;> rfl
@[simp] theorem onBoth_upkeep (s : State) (f : Port → Port) : (s.onBoth f).upkeep = s.upkeep := rfl
@[simp] theorem onPort_upkeep (s : State) (p : PortId) (f : Port → Port) : (s.onPort p f).upkeep = s.upkeep := by cases p <;> rfl
@[simp] theorem onBoth_journal (s : State) (f : Port → Port) : (s.onBoth f).journal = s.journal := rfl
@[simp] theorem onPort_journal (s : State) (p : PortId) (f : Port → Port) : (s.onPort p f).journal = s.journal := by cases p <;> rfl
@[simp] theorem onBoth_movers (s : State) (f : Port → Port) : (s.onBoth f).movers = s.movers := rfl
@[simp] theorem onPort_movers (s : State) (p : PortId) (f : Port → Port) : (s.onPort p f).movers = s.movers := by cases p <;> rfl
@[simp] theorem onBoth_moverBlocks (s : State) (f : Port → Port) : (s.onBoth f).moverBlocks = s.moverBlocks := rfl
@[simp] theorem onPort_moverBlocks (s : State) (p : PortId) (f : Port → Port) : (s.onPort p f).moverBlocks = s.moverBlocks := by cases p <;> rfl
@[simp] theorem onBoth_dcs (s : State) (f : Port → Port) : (s.onBoth f).dcs = s.dcs := rfl
@[simp] theorem onPort_dcs (s : State) (p : PortId) (f : Port → Port) : (s.onPort p f).dcs = s.dcs := by cases p <;> rfl
@[simp] theorem onBoth_hk (s : State) (f : Port → Port) : (s.onBoth f).hk = s.hk := rfl
@[simp] theorem onPort_hk (s : State) (p : PortId) (f : Port → Port) : (s.onPort p f).hk = s.hk := by cases p <;> rfl
@[simp] theorem onBoth_fh (s : State) (f : Port → Port) : (s.onBoth f).fh = s.fh := rfl
@[simp] theorem onPort_fh (s : State) (p : PortId) (f : Port → Port) : (s.onPort p f).fh = s.fh := by cases p <;> rfl
@[simp] theorem onBoth_sec (s : State) (f : Port → Port) : (s.onBoth f).sec = s.sec := rfl
@[simp] theorem onPort_sec (s : State) (p : PortId) (f : Port → Port) : (s.onPort p f).sec = s.sec := by cases p <;> rfl
@[simp] theorem onBoth_misc (s : State) (f : Port → Port) : (s.onBoth f).misc = s.misc := rfl
@[simp] theorem onPort_misc (s : State) (p : PortId) (f : Port → Port) : (s.onPort p f).misc = s.misc := by cases p <;> rfl
@[simp] theorem onBoth_freeCtr (s : State) (f : Port → Port) : (s.onBoth f).freeCtr = s.freeCtr := rfl
@[simp] theorem onPort_freeCtr (s : State) (p : PortId) (f : Port → Port) : (s.onPort p f).freeCtr = s.freeCtr := by cases p <;> rfl
@[simp] theorem onBoth_pending (s : State) (f : Port → Port) : (s.onBoth f).pending = s.pending := rfl
@[simp] theorem onPort_pending (s : State) (p : PortId) (f : Port → Port) : (s.onPort p f).pending = s.pending := by cases p <;> rfl
@[simp] theorem onBoth_port (s : State) (f : Port → Port) (p : PortId) : (s.onBoth f).port p = f (s.port p) := by cases p <;> rfl
@[simp] theorem onPort_port (s : State) (p : PortId) (f : Port → Port) : (s.onPort p f).port p = f (s.port p) := by cases p <;> rfl
theorem onPort_port_ne (s : State) {p q : PortId} (f : Port → Port) (h : q ≠ p) : (s.onPort p f).port q = s.port q := by
  cases p <;> cases q <;> first | rfl | exact absurd rfl h
@[simp] theorem onPort_onPort (s : State) (p : PortId) (f g : Port → Port) : (s.onPort p f).onPort p g = s.onPort p fun x => g (f x) := by cases p <;> rfl

end Sys2Proof.Machine
end

