-- ==== Sys2Proof/WellFormed.lean ====
section
/-! DEFINITION. Well-formed commands: every operand fits the field the spec gives it (queue and command identifiers of 16
bits, die indices of R6, source numbers of R497, the SPI NOR of R576, and so on). What the spec answers with a status stays
well-formed here: the meaning gives the status. -/
namespace Sys2Proof

/-- A Dataset Management range list holds 1 to 256 ranges; LBA ranges fit 64 bits. -/
def IoOp.wf (o : IoOp) : Bool :=
  match o with
  | .read slba nlb | .verify slba nlb => decide (slba < 18446744073709551616) && decide (0 < nlb) && decide (nlb ≤ 65536)
  | .write slba nlb _ d => decide (slba < 18446744073709551616) && decide (0 < nlb) && decide (nlb ≤ 65536) && decide (∀ x ∈ d, x < 65536)
  | .writeZeroes slba nlb _ _ => decide (slba < 18446744073709551616) && decide (0 < nlb) && decide (nlb ≤ 65536)
  | .deallocate rs => decide (0 < rs.length) && decide (rs.length ≤ 256)
  | .dsmOther | .flush => true
  | .seal _ token _ => decide (token < 4294967296)
  | .unsupported op => decide (op < 256)

def IoEntry.wf (e : IoEntry) : Bool := decide (e.cid < 65536) && decide (e.nsid < 4294967296) && e.op.wf

/-- An address of the DRAM space of a channel, and byte offsets of a burst. -/
def DramReq.wf (r : DramReq) : Bool :=
  match r with
  | .read a => decide (a < 1099511627776)
  | .write a bs => decide (a < 1099511627776) && decide (∀ x ∈ bs, x.1 < 64)

def DescFetch.wf (d : DescFetch) : Bool :=
  match d with
  | .desc src dst len ctl next => decide (src < 2 ^ 64) && decide (dst < 2 ^ 64) && decide (len < 2 ^ 32) && decide (ctl < 2 ^ 32) && decide (next < 2 ^ 64)
  | .failed => true

/-- A descriptor fits the work of its general block, by the spaces it moves between (0 DRAM, 1 transfer buffers, 2 accumulators, 3
reconstruction buffers) and its crypt field (R23, R451, R453): DM4 encrypts host writes into flacons, DM5 decrypts staged data into the transfer
buffers, DM6 moves copies and parity, DM7 fills DRAM page buffers. On the host path of DM4 and DM5 it is no longer than 64 KiB (R516). -/
def DescFetch.fits (block : Nat) (d : DescFetch) : Bool :=
  match d with
  | .desc src dst len ctl _ =>
    let a := src / 2 ^ 56
    let b := dst / 2 ^ 56
    let crypt := ctl / 64 % 4
    match block with
    | 4 => decide (a = 1) && decide (b = 0) && decide (crypt = 1) && decide (len ≤ 65536)
    | 5 => decide (a = 0) && decide (b = 1) && decide (crypt = 2) && decide (len ≤ 65536)
    | 6 => decide ((a = 1 ∧ b = 0) ∨ (a = 2 ∧ b = 3)) && decide (crypt = 0)
    | 7 => decide (b = 0)
    | _ => true
  | .failed => true

/-- The bits of an outcome lie in the five devices, eight DQs and sixteen beats of a burst (R434). -/
def EccSeen.wf (e : EccSeen) : Bool := e.flips.all fun x => decide (x.1 < 5) && decide (x.2.1 < 8) && decide (x.2.2 < 16)

/-- A conversion of input i is of its kind, within the range of R472 and the reference of 1.2 V (R470, R472). -/
def TempReading.wf (r : TempReading) (i : Nat) : Bool :=
  match r with
  | .diode _ t => decide (i < 8) && decide (-640 ≤ t) && decide (t ≤ 2400)
  | .thermistor v => decide (8 ≤ i) && decide (i < 16) && decide (v ≤ 12000)
  | .onDie t => decide (16 ≤ i) && decide (-640 ≤ t) && decide (t ≤ 2400)

def JtagOp.wf (o : JtagOp) : Bool :=
  match o with
  | .programLifecycle _ => true
  | .programOtp a _ => decide (a < 2048)

def ownTieWf (t : Option OwnCmd) : Bool :=
  match t with
  | none => true
  | some (.claim cid token _ _ _) | some (.release cid token _) => decide (cid < 65536) && decide (token < 4294967296)

def StartEnv.wf (e : StartEnv) : Bool :=
  decide (∀ x ∈ e.badTargets, x.1 < 32 ∧ x.2 < 4) && decide (∀ x ∈ e.badLuns, x < 1024)
    && decide (∀ x ∈ e.untrained, x.1 < 32 ∧ x.2 < 4) && decide (∀ x ∈ e.checkerFail, x < 320) && decide (∀ x ∈ e.startC4, x < 320)

/-- The command is well-formed. -/
def Instr.wf (i : Instr) : Bool :=
  match i with
  | .suppliesValid env board => env.wf && decide (∀ x ∈ board, x.1 < 16777216)
  | .supplyFall => true
  | .vauxVio _ _ => true
  | .porNAssert => true
  | .porNRelease env board => env.wf && decide (∀ x ∈ board, x.1 < 16777216)
  | .pwrFailNAssert => true
  | .pwrFailNRelease env => env.wf
  | .perstAssert _ _ => true
  | .perstDeassert _ => true
  | .linkDown _ => true
  | .linkUp _ speed width _ _ => decide (speed < 8) && decide (width < 64)
  | .refclkLoss _ => true
  | .hotReset _ => true
  | .linkDisable _ => true
  | .functionLevelReset _ => true
  | .ccEnSet _ ams => decide (ams < 8)
  | .ccEnClear _ => true
  | .shutdownNotification _ => true
  | .shutdownComplete => true
  | .nvmSubsystemReset _ => true
  | .nssrStagingWritten env => env.wf
  | .cstsNssroClear _ => true
  | .submissionDoorbell _ qid tail entries => decide (qid < 65536) && decide (tail < 65536) && decide (∀ e ∈ entries, e.wf = true)
  | .completionDoorbell _ qid head => decide (qid < 65536) && decide (head < 65536)
  | .commandFetch _ => true
  | .mapAccept => true
  | .createIoSq a qid size cqid prio => decide (a.cid < 65536) && decide (qid < 65536) && decide (size ≤ 65536) && decide (cqid < 65536) && decide (prio < 4)
  | .createIoCq a qid size vector => decide (a.cid < 65536) && decide (qid < 65536) && decide (size ≤ 65536) && decide (vector < 65536)
  | .deleteIoSq a qid => decide (a.cid < 65536) && decide (qid < 65536)
  | .deleteIoCq a qid => decide (a.cid < 65536) && decide (qid < 65536)
  | .identify a cns nsid => decide (a.cid < 65536) && decide (cns < 256) && decide (nsid < 4294967296)
  | .getFeatures a fid => decide (a.cid < 65536) && decide (fid < 256)
  | .setFeatures a fid value => decide (a.cid < 65536) && decide (fid < 256) && decide (value < 4294967296)
  | .setFeaturesFdp a _ => decide (a.cid < 65536)
  | .setFeaturesPowerManagement a ps => decide (a.cid < 65536) && decide (ps < 32)
  | .setFeaturesVwc a _ => decide (a.cid < 65536)
  | .setFeaturesHctm a tmt1 tmt2 => decide (a.cid < 65536) && decide (tmt1 < 65536) && decide (tmt2 < 65536)
  | .setFeaturesAsyncEvent a _ => decide (a.cid < 65536)
  | .setFeaturesTimestamp a ms => decide (a.cid < 65536) && decide (ms < 281474976710656)
  | .getLogPage a lid r => decide (a.cid < 65536) && decide (lid < 256) && decide (r.offset < 18446744073709551616 ∧ r.len < 17179869184)
  | .getLogPageExtendedHealth a r => decide (a.cid < 65536) && decide (r.offset < 18446744073709551616 ∧ r.len < 17179869184)
  | .getLogPageLostIu a r => decide (a.cid < 65536) && decide (r.offset < 18446744073709551616 ∧ r.len < 17179869184)
  | .getLogPageSealHorizon a r => decide (a.cid < 65536) && decide (r.offset < 18446744073709551616 ∧ r.len < 17179869184)
  | .getLogPageFaultHistory a r => decide (a.cid < 65536) && decide (r.offset < 18446744073709551616 ∧ r.len < 17179869184)
  | .getLogPageThermalHistory a r => decide (a.cid < 65536) && decide (r.offset < 18446744073709551616 ∧ r.len < 17179869184)
  | .getLogPageDrydownCursor a r => decide (a.cid < 65536) && decide (r.offset < 18446744073709551616 ∧ r.len < 17179869184)
  | .getLogPageAccordStatus a r => decide (a.cid < 65536) && decide (r.offset < 18446744073709551616 ∧ r.len < 17179869184)
  | .abort a sqid tcid => decide (a.cid < 65536) && decide (sqid < 65536) && decide (tcid < 65536)
  | .asynchronousEventRequest a => decide (a.cid < 65536)
  | .keepAlive a => decide (a.cid < 65536)
  | .firmwareImageDownload a offset _ => decide (a.cid < 65536) && decide (offset < 18446744073709551616)
  | .firmwareCommit0 a fs => decide (a.cid < 65536) && decide (fs < 8)
  | .firmwareCommit1 a fs => decide (a.cid < 65536) && decide (fs < 8)
  | .firmwareCommit2 a fs => decide (a.cid < 65536) && decide (fs < 8)
  | .firmwareCommit3 a fs => decide (a.cid < 65536) && decide (fs < 8)
  | .commitSpiStepEnd _ => true
  | .activationDrainEnd => true
  | .activationTimeout => true
  | .namespaceCreate a nsze flbas handles => decide (a.cid < 65536) && decide (nsze < 18446744073709551616) && decide (flbas < 64) && decide (∀ h ∈ handles, h < 256)
  | .namespaceDelete a nsid => decide (a.cid < 65536) && decide (nsid < 4294967296)
  | .namespaceAttach a nsid ctrls => decide (a.cid < 65536) && decide (nsid < 4294967296) && decide (∀ c ∈ ctrls, c < 65536)
  | .namespaceDetach a nsid ctrls => decide (a.cid < 65536) && decide (nsid < 4294967296) && decide (∀ c ∈ ctrls, c < 65536)
  | .formatNvm a nsid ses lbaf => decide (a.cid < 65536) && decide (nsid < 4294967296) && decide (ses < 8) && decide (lbaf < 64)
  | .sanitizeCryptoErase a => decide (a.cid < 65536)
  | .sanitizeBlockErase a => decide (a.cid < 65536)
  | .sanitizeEraseEnd => true
  | .deviceSelfTest a stc => decide (a.cid < 65536) && decide (stc < 16)
  | .directiveSend a dtype => decide (a.cid < 65536) && decide (dtype < 256)
  | .directiveReceive a dtype => decide (a.cid < 65536) && decide (dtype < 256)
  | .ownershipClaim a token _ _ _ tie => decide (a.cid < 65536) && decide (token < 4294967296) && ownTieWf tie
  | .ownershipRelease a token _ tie => decide (a.cid < 65536) && decide (token < 4294967296) && ownTieWf tie
  | .handoverDrainEnd => true
  | .drydownControlStart a token _ => decide (a.cid < 65536) && decide (token < 4294967296)
  | .drydownControlStop a token _ => decide (a.cid < 65536) && decide (token < 4294967296)
  | .cursorReady => true
  | .diagnosticUnlockEnd a token _ => decide (a.cid < 65536) && decide (token < 4294967296)
  | .diagnosticUnlockChallenge a token scope _ => decide (a.cid < 65536) && decide (token < 4294967296) && decide (scope < 256)
  | .diagnosticUnlockResponse a token response _ => decide (a.cid < 65536) && decide (token < 4294967296) && decide (response.length = 160)
  | .read _ sq cid => decide (sq < 65536) && decide (cid < 65536)
  | .write _ sq cid => decide (sq < 65536) && decide (cid < 65536)
  | .writeZeroes _ sq cid => decide (sq < 65536) && decide (cid < 65536)
  | .datasetManagementDeallocate _ sq cid => decide (sq < 65536) && decide (cid < 65536)
  | .flush _ sq cid => decide (sq < 65536) && decide (cid < 65536)
  | .verify _ sq cid => decide (sq < 65536) && decide (cid < 65536)
  | .seal _ sq cid => decide (sq < 65536) && decide (cid < 65536)
  | .writeAdmission _ => true
  | .readWaitEnd _ sq cid => decide (sq < 65536) && decide (cid < 65536)
  | .flaconCommit flacon => decide (flacon < 4096)
  | .pack flacon => decide (flacon < 4096)
  | .sealPadDelayExpiry => true
  | .arrayOperationStart die => decide (die < 1024)
  | .dieActivityGrant => true
  | .senseComplete die errs => decide (die < 1024) && decide (errs.length ≤ 4)
  | .decodeComplete _ _ => true
  | .readRecoverBudgetExpiry _ => true
  | .reconstruction _ => true
  | .prefetch _ _ => true
  | .programPassComplete die => decide (die < 1024)
  | .versionApply _ _ => true
  | .flaconRelease flacon => decide (flacon < 4096)
  | .programFailure die => decide (die < 1024)
  | .eraseComplete die _ => decide (die < 1024)
  | .eraseFailure die => decide (die < 1024)
  | .eraseSuspend die => decide (die < 1024)
  | .eraseResume die => decide (die < 1024)
  | .superBlockFormation _ handle => decide (handle < 256)
  | .superBlockRelease _ => true
  | .ruActiveLimitExpiry _ => true
  | .idleEntry => true
  | .collectionStart => true
  | .copy _ => true
  | .wearMove => true
  | .scrubRead _ => true
  | .scrubSbRefresh _ => true
  | .scrubPeriodOverrun => true
  | .fold nsid iu => decide (nsid < 4294967296) && decide (iu < 1099511627776)
  | .slcFold _ => true
  | .rebuild => true
  | .refugeFlushEnd => true
  | .refugeSetRelease set => decide (set < 2)
  | .journalFlushExpiry => true
  | .checkpointSegmentStart => true
  | .seqReserve => true
  | .pfWaitEnd env => env.wf
  | .recovery _ => true
  | .recoveryTimeout _ => true
  | .takeoverHoldExpiry => true
  | .forceLockExpiry _ => true
  | .unlockRefusalExpiry _ => true
  | .unlockExpiry => true
  | .apst _ ps => decide (ps < 32)
  | .powerStateEntryEnd => true
  | .hkRoundStart => true
  | .hkRoundEnd d => decide (d.temps.length = 20) && ((List.range 20).zip d.temps).all fun x => x.2.wf x.1
  | .inputHoldExpiry input => decide (input < 20)
  | .throttleStep => true
  | .haltEntryEnd => true
  | .aliveEdge _ => true
  | .faultSourceFiring fs => decide (∀ f ∈ fs, f.source < 320)
  | .busyTimeout die => decide (die < 1024)
  | .decTimeout cluster => decide (cluster < 4)
  | .dTimeout block chan => decide (block < 8) && decide (chan < 8)
  | .coreWdog core => decide (core < 8)
  | .fabricTimeout => true
  | .cplTimeout _ sq cid => decide (sq < 65536) && decide (cid < 65536)
  | .hubSelfFault _ => true
  | .channelBlockResetEnd ch found => decide (ch < 32) && decide (∀ d ∈ found.notReady, d < 1024) && decide (∀ t ∈ found.untrained, t < 4)
  | .blockResetBoundExpiry ch => decide (ch < 32)
  | .unitResetEnd => true
  | .reactionWindowClose source => decide (source < 320)
  | .fhLogIntervalExpiry source => decide (source < 320)
  | .chainStart block chan _ => decide (block < 8) && decide (chan < 8)
  | .descriptorFetch block chan d => decide (block < 8) && decide (chan < 8) && d.wf && d.fits block
  | .paceTimer block chan => decide (block < 8) && decide (chan < 8)
  | .peripheralRequest ch => decide (ch < 64)
  | .burstGrant block ready => decide (block < 8) && decide (∀ m ∈ ready, m.chan < 8)
  | .writeResponse block chan => decide (block < 8) && decide (chan < 8)
  | .descriptorComplete block chan => decide (block < 8) && decide (chan < 8)
  | .dramRequest ch arrivals seen _ => decide (ch < 4) && decide (∀ q ∈ arrivals, q.wf = true) && seen.wf
  | .dramRefresh ch _ => decide (ch < 4)
  | .refreshWindowStart ch => decide (ch < 4)
  | .dramPatrolScrub ch seen => decide (ch < 4) && seen.wf
  | .eccCeRate ch => decide (ch < 4)
  | .alertNAssert ch => decide (ch < 4)
  | .alertNDeassert ch => decide (ch < 4)
  | .frequencyChange _ => true
  | .trainingStep ch _ => decide (ch < 4)
  | .miReadDataStructure dtype portId ctrlId => decide (dtype < 256) && decide (portId < 256) && decide (ctrlId < 65536)
  | .miSubsystemHealthPoll => true
  | .miControllerHealthPoll _ => true
  | .miConfigurationGet which => decide (which < 256)
  | .miConfigurationSet which value => decide (which < 256) && decide (value < 4294967296)
  | .miVpdRead offset len => decide (offset < 18446744073709551616) && decide (len < 65536)
  | .miReset => true
  | .miTunnelledAdmin _ opcode field nsid r => decide (opcode < 256) && decide (field < 4294967296) && decide (nsid < 4294967296) && decide (r.offset < 18446744073709551616 ∧ r.len < 17179869184)
  | .basicManagementCommand => true
  | .windowWrite _ addr width _ => decide (addr < 1048576) && decide (width < 64)
  | .windowReadLowWord _ addr width => decide (addr < 1048576) && decide (width < 64)
  | .windowWriteLowWord _ addr width _ => decide (addr < 1048576) && decide (width < 64)
  | .windowWriteHighWord _ addr width _ => decide (addr < 1048576) && decide (width < 64)
  | .fhFirstValidClear _ => true
  | .fhInjectArm _ _ => true
  | .fhLegArmWrite _ _ => true
  | .fhLegArmExpiry => true
  | .fhLegForceWrite _ k _ => decide (k < 10)
  | .refclkReturn _ => true
  | .vauxVioWindowReturn _ => true
  | .configurationRequest _ _ => true
  | .powerStateExitEnd => true
  | .clusterBlockResetEnd g => decide (g < 4)
  | .sanitizeTrimEnd => true
  | .jtagAccess op => op.wf
  | .hostDataCompletion _ sq cid flacon data _ => decide (sq < 65536) && decide (cid < 65536) && decide (flacon < 4096) && decide (data.length ≤ 16)

end Sys2Proof
end

