-- ==== Sys2Proof/Tests/Slice0.lean ====
section
/-! SUPPORT. The model's own tests: an ill-formed command for each kind of check, a small state that meets the hypotheses of every
statement, and results of single steps worked out by hand from the spec. -/
namespace Sys2Proof.Tests
open Sys2Proof.Machine

/-! ### States -/

/-- A port whose controller is ready, its link up. -/
def readyPort : Port := { ccEn := true, rdy := true, ltssm := .l0, perst := false }

/-- A policy of zeros, so that a test names every value it rests on. -/
def bare : Policy :=
  { takeoverHold := 0, handoverDrain := 0, fdpRuhCount := 0, rebuildPriority := 0, admitFloat := 0, sealPadDelay := 0,
    overlayFillLimit := 0, overlayFoldStart := 0, overlayFoldCount := 0, cacheMax := 0, cacheFraction := 0,
    eraseSuspendMax := 0, placeFloor := 0, eraseResumeMin := 0, eraseSuspendReads := 0, csResetLimit := 0,
    rltBatch := 0, rltThresh := 0, raFail := 0, raIters := 0, raDeltaT := 0, raQueueMax := 0, retrySteps := 0,
    readRecoverBudget := 0, readaheadDepth := 0, readaheadBuf := 0, scrubPeriod := 0, scrubRefreshIters := 0,
    gcUrgent := 0, gcBgTarget := 0, gcIdleMs := 0, wearSpread := 0, peRetire := 0, spareMin := 0, scrubSbRefresh := 0,
    journalFlushMs := 0, pfDeglitch := 0, holdupRatio := 0, refugeDies := 0, rhThreshold := 0, dramCeThresh := 0,
    dramScrubHours := 0, fhC3Limit := 0, dmHopLimit := 0, dmBusTimeout := 0, fhLogInterval := 0, hkRoundMs := 0,
    throttleStepMs := 0 }

/-- A running drive in dual x2 mode; port A owns it. -/
def live : State := { State.reset with
  run := .running, boot := { stage := 8, strapPort := true, romServes := false, configSet := true }
  portA := readyPort, portB := readyPort, copyInUse := 1, image := { policy := bare } }

/-- The same in SAFE. -/
def safe : State := { live with run := .safe, fh := { latch := true } }

/-- The same during a handover that port B claimed. -/
def handing : State := live.onOwn fun o => { o with phase := .handover, claimant := .B, claim := some ⟨.B, some 7, 1, 0, 0⟩ }

def aA : AdminId := { port := .A, cid := 5 }
def aB : AdminId := { port := .B, cid := 5 }

/-- An I/O command that has been fetched on port A, queue 1. -/
def out (op : IoOp) (stage : CmdStage) : OutCmd :=
  { port := .A, sq := 1, entry := { cid := 9, nsid := 1, op := op, ptr := .prp }, stage := stage }

/-- Namespace 1: 1,024 LBAs of 4,096 bytes, attached. -/
def ns1 : Namespace := { nsid := 1, nsze := 1024, flbas := 0, segs := [0], handles := [0], attached := true, key := 0 }

/-- A drive with namespace 1 and one outstanding command on port A. -/
def withCmd (c : OutCmd) : State :=
  { live with portA := { readyPort with cmds := [c] }, path := { spaces := [ns1] } }

/-- A part out of the factory, in lifecycle state PROVISION, where JTAG is open. -/
def provision : State := { live with sec := { otp := [⟨160, 1⟩, ⟨161, 1⟩, ⟨162, 1⟩], lifecycle := 1 } }

/-- Sub-unit 0 of IU 0, written by command 9 and placed. -/
def sub0 : FSub := { nsid := 1, iu := 0, sub := 0, seq := 1, kind := 0, data := 0, filled := true, writer := some (.A, 1, 9) }

/-- A drive whose flacon 0 holds that sub-unit. -/
def withFlacon (st : FlaconState) (x : FSub) : State :=
  { withCmd { out (.write 0 16 false none) .running with seq := some 1 } with
    path := { spaces := [ns1], flacons := [(0, { st := st, units := 16, subs := [x], place := some ⟨0, [0]⟩ })] } }

/-- An open SLC super-block of handle 254 on a drive of 18 channels with one die each. -/
def slc0 : SuperBlock := { num := 0, serial := 1, use := .slc, mode := 0, handle := 254, chans := List.range 18, blocks := List.replicate 18 0 }

def slcDrive (s : State) : State := { s with
  media := { sbs := [slc0] }
  image := { s.image with geo := { cellType := 1, targets := 1, diesPerTarget := 1, planes := 1, wordlines := 3, blocksPerDie := 8 } } }

/-- Number 1, Protected at 0, in a stripe that is not complete. -/
def padding (now : Nat) : State :=
  { slcDrive live with
    now := now
    path := { spaces := [ns1], nextSeq := 2, unsealed := [{ seq := 1, port := .A, protAt := some 0 }] }
    media := { sbs := [slc0], stripes := [{ sb := 0, k := 0, elems := [(0, some { kind := 0, entries := [1], data := [0] })] }] }
    image := { (slcDrive live).image with policy := { bare with sealPadDelay := 1000 } } }

/-- A drive whose die 0 is as given, its channel and cluster active. -/
def withDie (d : Die) : State := { live with media := { dies := [(0, d)], chans := [(0, { st := .active })], clusters := [(0, { st := .active })] } }

/-- An erase of block 3, and a host read queued behind it. -/
def eraseOp : DieOp := { kind := .erase 3 .hostRu false, cls := 7, queuedAt := 0 }
def readOp : DieOp := { kind := .sense 0 0 0 none, cls := 3, queuedAt := 0 }

/-- A codeword read for sub-unit 0 of a host read, at the given step. -/
def job0 (step : Nat) : CwJob :=
  { id := 4, purpose := .host .A 1 9 0 0, sb := 0, k := 0, member := 0, cw := 0, die := 0, block := 0, pos := 0, expect := none, cls := 3
    step := step, queued := decide (step = 1), failedAt := if step = 1 then none else some 0 }

def withJob (j : CwJob) : State :=
  { live with
    media := { dies := [(0, { busy := if j.step = 1 then some readOp else none })], chans := [(0, { st := .active })]
               clusters := [(0, { st := .active, hardDec := [⟨4, 0⟩] })] }
    path := { spaces := [ns1], jobs := [j] } }

/-- A closed super-block of native mode. -/
def host0 : SuperBlock := { slc0 with use := .hostRu, mode := 1, st := .closed }

def withSb (b : SuperBlock) (s : State) : State := { slcDrive s with media := { sbs := [b] } }

/-- A super-block that has lost its first member, with one valid unit in a channel of 18 good ones. -/
def degraded : State :=
  let b := { host0 with lost := [0] };
  let s := withSb b { live with upkeep := { rebuilding := true } };
  { s with path := { spaces := [ns1], map := [(0, { trimmed := false, valid := true })] }
           media := { sbs := [b], chans := (List.range 18).map fun c => (c, { st := .active }) }
           image := { s.image with board := { chanMask := 0x3FFFF }, policy := { bare with rebuildPriority := 1 } } }

/-- A running drive with an open chunk whose first record came at 0, and an open journal super-block. -/
def journalling (now : Nat) : State :=
  { slcDrive live with
    now := now
    journal := { chunksSince := 2, chunks := [{ serial := 4, openedMin := 0, recs := [.pad], firstAt := some 0 }] }
    media := { sbs := [{ slc0 with use := .journal }] }
    image := { geo := { cellType := 1, targets := 1, diesPerTarget := 1, planes := 1, wordlines := 600, blocksPerDie := 8 }
               policy := { bare with journalFlushMs := 1 } } }

def flush0 : Flush := { serial := 1, lastSeq := 0, horizon := 0, cause := 1, powerOn := 0, firstChunk := 0, index := [], tail := [] }

/-- A drive whose mover channel 9 (block 1, channel 1) is as given. -/
def withMover (m : Mover) : State := { live with movers := [(9, m)], image := { policy := { bare with dmHopLimit := 2 } } }

/-- A descriptor of 64 bytes within the transfer buffers, with the given control word. -/
def desc0 (ctl : Nat) : Desc := { src := 2 ^ 56, dst := 2 ^ 56, length := 64, control := ctl, next := 32 }

/-- A drive of one DRAM channel. -/
def withDc (d : Dc) : State :=
  { live with dcs := [(0, d)], image := { board := { dramChannels := 1 }, geo := { targets := 1, diesPerTarget := 1 } } }

/-- Port A has an unlock of window scope. -/
def unlocked : State := live.onSec fun x => { x with unlock := some ⟨.A, 1, 0⟩ }

/-- The state a command leaves. -/
def after (i : Instr) (s : State) : State := settled s (exec i s)

/-- The largest configuration: 32 channels of 32 QLC dies of 4 planes, 256 wordlines and 1,024 blocks. -/
def largest : State :=
  { live with image := { geo := { cellType := 2, targets := 4, diesPerTarget := 8, planes := 4, wordlines := 256, blocksPerDie := 1024 } } }

/-- A start-up that meets nothing bad. -/
def env0 : StartEnv :=
  { otpUncorrectable := false, checkerFail := none, sramBad := [], spiAnswersA := true, spiAnswersB := true, dramDensity := 0, train6400 := true
    train3200 := true, badTargets := [], badLuns := [], untrained := [], readDqsDelay := [], writeDqDelay := [], anchorAGood := true
    anchorBGood := true, keyStoreGood := true, startC4 := none, strapPort := false, strapSb := false, strapSpi := false, strapTest := false
    pwrFailLow := false, preMs := 0 }

/-- Port A holds a token for the request. -/
def holding (token opcode : Nat) (print : BitVec 32) (st : Status) (s : State := live) : State :=
  s.onPort .A fun p => { p with tokens := [⟨token, opcode, print, st, 1, 0⟩] }

/-- An entry waits in submission queue 1 of port A. -/
def queued : State :=
  { live with portA := { readyPort with
      sqs := [{ id := 1, size := 4, cqid := 1, prio := 0, tail := 1, entries := [⟨9, 1, .prp, .flush⟩] }]
      cqs := [{ id := 1, size := 4, vector := 0, head := 1, tail := 2 }] } }

/-! ### States that meet the hypotheses of the statements -/

theorem wit_StepRunsFrontCommand : ∃ (c : Instr) (rest : List Instr) (s : State), s.pending = c :: rest :=
  ⟨.supplyFall, [.porNAssert], { State.reset with pending := [.supplyFall, .porNAssert] }, rfl⟩

theorem wit_IdleStepIsOneMicrosecond : State.reset.pending = [] := rfl

theorem wit_AdminCompletionIsPosted : NoQueueZero live .A := by decide

theorem wit_SafeRefusesAdmin :
    (adminOf (.keepAlive aA) = some aA ∧ vendorOf (.keepAlive aA) = none ∧ tieOf (.keepAlive aA) = none ∧ reports (.keepAlive aA) = false ∧
      adminLive safe .A = true ∧ safe.fh.latch = true ∧ NoQueueZero safe .A) ∧
    (let tie : OwnCmd := .release 6 8 false;
      adminOf (.ownershipRelease aA 7 false (some tie)) = some aA ∧ tieOf (.ownershipRelease aA 7 false (some tie)) = some tie ∧
        adminLive safe PortId.A.other = true) := by decide

theorem wit_SafeRefusesAdmin_vendor : ∃ q, vendorOf (.ownershipRelease aA 7 false none) = some (aA, q) ∧
    tokenLook safe.portA q.token q.opcode q.print = .fresh ∧
    (let s := holding 7 0xC1 q.print .success safe;
      adminLive s .A = true ∧ s.fh.latch = true ∧ NoQueueZero s .A ∧ tokenLook s.portA q.token q.opcode q.print ≠ .fresh) := by
  refine ⟨_, rfl, rfl, by decide, rfl, fun _ h => (by cases h), ?_⟩
  simp [tokenLook, holding, State.onPort, vendorReq]

theorem wit_ObserverMayNotChangeDrive : changesDrive (.deviceSelfTest aB 1) = true ∧ adminOf (.deviceSelfTest aB 1) = some aB ∧
    AdminOpen live aB ∧ live.own.phase ≠ .handover ∧ live.own.owner ≠ .B ∧ driveFeature 0x04 = true := by decide

theorem wit_DriveCommandsAreHeldOrRefused :
    (changesDrive (.deviceSelfTest aA 1) = true ∧ adminOf (.deviceSelfTest aA 1) = some aA ∧ AdminOpen handing aA ∧
      handing.own.phase = .handover) ∧
    (let s := live.onSec fun x => { x with sanitize := .block };
      AdminOpen s aA ∧ s.own.phase ≠ .handover ∧ s.own.owner = .A ∧ s.sec.sanitize ≠ .none) ∧
    (let s := { live with run := .recovery };
      adminLive s .A = true ∧ s.fh.latch = false ∧ s.run = .recovery) := by decide

/-- Port A with completion queue 1 and, if asked, submission queue 128 on it. -/
def withQueues (sq : Bool) : State :=
  { live with portA := { readyPort with
      cqs := [{ id := 1, size := 2, vector := 0 }], sqs := if sq then [{ id := 128, size := 4096, cqid := 1, prio := 0 }] else [] } }

theorem wit_QueueCommandsComplete :
    (AdminOpen live aA ∧ (∀ q ∈ (live.port .A).cqs, q.id ≠ 1)) ∧ (∀ q ∈ (withQueues false).portA.cqs, q.id ≠ 128) ∧
    (AdminOpen (withQueues false) aA ∧ (∀ q ∈ (withQueues false).portA.sqs, q.id ≠ 128) ∧
      (∃ q ∈ (withQueues false).portA.cqs, q.id = 1) ∧ (∀ q ∈ (withQueues false).portA.sqs, q.cqid ≠ 1)) ∧
    (AdminOpen (withQueues true) aA ∧ (∃ q ∈ (withQueues true).portA.sqs, q.id = 128) ∧
      (∀ c ∈ (withQueues true).portA.cmds, c.sq ≠ 128)) := by decide

theorem wit_AbortEventAndKeepAlive :
    (AdminOpen live aA ∧ findCmd live .A 1 9 = none ∧ live.portA.aers = [] ∧ live.portA.kept = []) ∧
    (let c := out (.write 0 16 false none) .waiting;
      findCmd (withCmd c) .A 1 9 = some c ∧ AdminOpen (withCmd c) aA ∧ catchable (withCmd c) c = true) ∧
    (let c := out .flush .accepted;
      findCmd (withCmd c) .A 1 9 = some c ∧ AdminOpen (withCmd c) aA ∧ catchable (withCmd c) c = false) ∧
    (let s := live.onPort .A fun p => { p with kept := [0xC1, 0xC3] };
      AdminOpen s aA ∧ s.portA.aers = [] ∧ s.portA.kept = 0xC1 :: [0xC3] ∧ NoQueueZero s .A) ∧
    (let s := live.onPort .A fun p => { p with aers := [0, 1, 2, 3, 4, 5, 6, 7] };
      AdminOpen s aA ∧ 8 ≤ s.portA.aers.length) := by decide

theorem wit_SetFeaturesSets : OwnerOpen live aA ∧ AdminOpen live aB ∧ live.path.spaces = [] ∧ ownFeature 0x0C = true ∧
    driveFeature 0x04 = true ∧ (OwnerOpen { live with path := { spaces := [ns1] } } aA ∧ [ns1] ≠ []) := by decide

theorem wit_ReportsAnswer : AdminOpen live aA ∧ (∃ bs, identifyAnswer live .A 2 0 = .inl bs) ∧
    identifyAnswer live .A 0 0 = .inr .invalidNamespace ∧ featureDw0 live .A 0x7F = none := by
  refine ⟨by decide, ⟨_, rfl⟩, rfl, rfl⟩

theorem wit_LogPagesAnswer : AdminOpen live aA ∧ live.boot.romServes = false ∧
    (∃ s : State, AdminOpen s aA ∧ s.boot.romServes = false ∧ 512 = (s.port .A).c5Resume ∧ (s.port .A).c5Gen = s.upkeep.cursorGen) ∧
    (4 ≠ (live.port .A).c5Resume) :=
  ⟨by decide, rfl, ⟨live.onPort .A fun p => { p with c5Resume := 512 }, by decide⟩, by decide⟩

theorem wit_DriveCommandsAreHeldOrRefused_more :
    (∀ c ∈ [Instr.setFeatures aA 0x04 0, .setFeaturesFdp aA true, .drydownControlStart aA 1 false, .firmwareCommit0 aA 1],
      heldByHandover c = true ∧ adminOf c = some aA) ∧ AdminOpen handing aA ∧ handing.own.phase = .handover := by decide

theorem wit_QueueCommandsComplete_deleted :
    isWriteOp (out (.read 0 16) .running).entry.op = false ∧
    (∀ prot ∈ [true, false], let c := { out (.write 0 16 false none) .running with prot := prot, seq := some 1 };
      isWriteOp c.entry.op = true ∧ c.prot = prot ∧ whollyIn (withCmd c) c = true) ∧
    (let c := out (.write 0 16 false none) .waiting; isWriteOp c.entry.op = true ∧ c.prot = false ∧ whollyIn (withCmd c) c = false) := by decide

theorem wit_AbortEventAndKeepAlive_more :
    (let c := out (.read 0 16) .running; findCmd (withCmd c) .A 1 9 = some c ∧ AdminOpen (withCmd c) aA ∧ isWriteOp c.entry.op = false) ∧
    (let s := live.onPort .A fun p => { p with aers := [0, 1, 2, 3, 4, 5, 6] }; AdminOpen s aA ∧ s.portA.aers.length < 8 ∧ s.portA.kept = []) := by
  decide

theorem wit_SetFeaturesSets_more : live.portA.sqs = [] ∧ live.portA.cqs = [] ∧ 0x007F007F % 65536 ≠ 65535 ∧ 0x007F007F / 65536 ≠ 65535 ∧
    ownFeature 0x7F = false ∧ driveFeature 0x7F = false ∧ 0x7F ∉ [0x02, 0x06, 0x0B, 0x0E, 0x10, 0x1D] := by decide

theorem wit_ReportsAnswer_more : featureDw0 live .A 0x0C = some 0 ∧ featureDw0 live .A 0x04 ≠ none ∧ ownFeature 0x0C = true := by decide

theorem wit_LogPagesAnswer_more : 4 % 4 = 0 ∧ 4 ≠ 0 ∧ 2 % 4 ≠ 0 ∧ 4 ≠ live.portA.c5Resume ∧ vendorPage live 0xFF = none ∧
    stdPieces live .A 0xFF = none := ⟨rfl, by decide, by decide, by decide, rfl, rfl⟩

theorem wit_DownloadAndCommitBegin : OwnerOpen live aA ∧ live.commit = none ∧ live.activation = none ∧ (2 ≤ 2 ∧ 2 ≠ live.copyInUse) ∧
    (let s := { live with activation := some ⟨.A, some 1, 2, 0⟩ };
      OwnerOpen s aA ∧ s.activation.isSome = true) ∧
    (let s := { live with commit := some ⟨.A, some 1, 0, 2, 2, 0⟩ };
      OwnerOpen s aA ∧ s.commit.isSome = true) := by decide

theorem wit_CommitStepsAndActivates :
    (∀ step ∈ [2, 3, 4, 5], ∀ action ∈ [0, 1, 2, 3], let s := { live with commit := some ⟨.A, some 1, action, 2, step, 0⟩ };
      s.commit = some ⟨.A, some 1, action, 2, step, 0⟩ ∧ spiRuns s = true) ∧
    (let s := { live with activation := some ⟨.A, some 1, 2, 0⟩, now := 50000 };
      s.activation = some ⟨.A, some 1, 2, 0⟩ ∧ s.run = .running ∧ s.portA.cmds = [] ∧ s.portB.cmds = [] ∧ 0 + 50000 ≤ s.now) := by decide

theorem wit_NamespaceCreateCompletes :
    let s := { live with image := { live.image with policy := { bare with fdpRuhCount := 2 }, ident := { userCapacity := 1073741824 } } };
    OwnerOpen s aA ∧ (∀ h ∈ [1], h < s.policy.fdpRuhCount) ∧
      (List.range 33).filter (fun i => decide (0 < i) && (findNs s i).isNone) = 1 :: (List.range 31).map (· + 2) ∧
      segsFor 1024 0 ≤ (freeSegs s).length := by decide

theorem wit_NamespaceCommandsComplete :
    let s := { live with path := { spaces := [ns1] } };
    let t := { live with path := { spaces := [{ ns1 with attached := false }] } };
    (OwnerOpen s aA ∧ findNs s 1 = some ns1) ∧ (OwnerOpen t aA ∧ findNs t 1 = some { ns1 with attached := false }) ∧
      everyCtrl s [1, 2] = true ∧ everyCtrl s [] = false :=
  ⟨⟨by decide, rfl⟩, ⟨by decide, rfl⟩, by decide, by decide⟩

theorem wit_SanitizeRuns : OwnerOpen live aA ∧
    (∀ k ∈ [SanState.crypto, SanState.block], ∀ n ∈ [3, 4],
      let s := live.onSec fun x => { x with sanitize := k, sanStep := n };
      s.sec.sanStep = n ∧ s.sec.sanitize = k) := by decide

theorem wit_SelfTestAndDirectives : OwnerOpen live aA ∧ AdminOpen live aB := by decide

theorem wit_ClaimAndRelease :
    (AdminOpen live aA ∧ live.own.phase = .held ∧ live.own.owner = .A ∧
      tokenLook live.portA 1 0xC0 (vendorReq 1 0xC0 0 0 false []).print = .fresh ∧
      tokenLook live.portA 1 0xC1 (vendorReq 1 0xC1 0 0 false []).print = .fresh ∧ live.boot.strapPort = true) ∧
    (let s := live.onBoot fun b => { b with strapPort := false };
      AdminOpen s aA ∧ s.own.phase = .held ∧ s.own.owner = .A ∧ s.boot.strapPort = false) ∧
    (AdminOpen live aB ∧ tokenLook live.portB 1 0xC0 (vendorReq 1 0xC0 0 0 false []).print = .fresh ∧ live.own.owner ≠ .B) ∧
    (∀ ph ∈ [Phase.released, Phase.lapsed], let s := live.onOwn fun o => { o with phase := ph };
      AdminOpen s aB ∧ (s.own.phase = .released ∨ s.own.phase = .lapsed) ∧ s.own.owner ≠ .B) :=
  ⟨⟨by decide, rfl, rfl, rfl, rfl, rfl⟩, by decide, ⟨by decide, rfl, by decide⟩, by decide⟩

theorem wit_TokensAreNotExecutedTwice :
    (∃ q, vendorOf (.ownershipRelease aA 7 false none) = some (aA, q) ∧ AdminOpen (holding 7 0xC1 q.print .success) aA ∧
      tokenLook (holding 7 0xC1 q.print .success).portA q.token q.opcode q.print = .stored ⟨7, 0xC1, q.print, .success, 1, 0⟩ ∧
      tokenLook (holding 7 0xC2 q.print .success).portA q.token q.opcode q.print = .conflict) ∧
    (∃ q, vendorOf (.diagnosticUnlockChallenge aA 7 1 false) = some (aA, q) ∧
      tokenLook (holding 7 0xC3 q.print .success).portA q.token q.opcode q.print = .stored ⟨7, 0xC3, q.print, .success, 1, 0⟩ ∧
      tokenLook (holding 7 0xC2 q.print .success).portA q.token q.opcode q.print = .conflict ∧ q.opcode = 0xC3) ∧
    (let c := out (.seal true 7 false) .accepted;
      findCmd (withCmd c) .A 1 9 = some c ∧ c.stage = .accepted) := by
  refine ⟨⟨_, rfl, by decide, ?_, ?_⟩, ⟨_, rfl, ?_, ?_, rfl⟩, by decide⟩ <;>
    simp [tokenLook, holding, State.onPort, State.port, vendorReq]

theorem wit_HandoverSwitchesOwner :
    (handing.own.claim = some ⟨.B, some 7, 1, 0, 0⟩ ∧ handing.own.phase = .handover ∧ handing.fh.latch = false ∧
      stillTransfers handing = false ∧ 0 + handing.policy.handoverDrain * 1000 ≤ handing.now) ∧
    (let c := out (.write 0 16 false none) .running;
      let s := { withCmd c with own := handing.own, image := { live.image with policy := { bare with handoverDrain := 20 } }, now := 19999 };
      s.now < 0 + s.policy.handoverDrain * 1000 ∧ stillTransfers s = true) := by decide

theorem wit_OwnershipTimers :
    (∀ now ∈ [4999, 5000], let s := { live.onOwn (fun o => { o with phase := .linkDown, downSince := some 0 }) with
        image := { live.image with policy := { bare with takeoverHold := 5 } }, now := now };
      s.own.downSince = some 0 ∧ s.own.phase = .linkDown ∧
        (0 + s.policy.takeoverHold * 1000 ≤ s.now ∨ s.now < 0 + s.policy.takeoverHold * 1000)) ∧
    (let s := { live.onPort .A (fun p => { p with forceLock := some 10, chLock := some 10 }) with now := 10 };
      s.portA.forceLock = some 10 ∧ s.portA.chLock = some 10 ∧ 10 ≤ s.now) ∧
    (live.onPort .A fun p => { p with forceLock := some 10 }).now < 10 ∧
    (∀ now ∈ [3599999999, 3600000000], let s := { live.onSec (fun x => { x with unlock := some ⟨.A, 1, 0⟩ }) with now := now };
      s.sec.unlock = some ⟨.A, 1, 0⟩ ∧ (0 + 3600000000 ≤ s.now ∨ s.now < 0 + 3600000000)) := by decide

theorem wit_DrydownControl :
    (AdminOpen live aA ∧ live.own.phase ≠ .handover ∧ live.own.owner = .A ∧ live.sec.sanitize = .none ∧ live.mediaMode = 0 ∧
      tokenLook live.portA 1 0xC2 (vendorReq 1 0xC2 1 0 false []).print = .fresh ∧
      tokenLook live.portA 1 0xC2 (vendorReq 1 0xC2 2 0 false []).print = .fresh) ∧
    (live.onSec fun x => { x with sanitize := .crypto }).sec.sanitize ≠ .none ∧
    (let s := { live with mediaMode := 2 };
      AdminOpen s aA ∧ s.mediaMode = 2 ∧ s.policy.drydownAuto ≠ 1) :=
  ⟨⟨by decide, by decide, rfl, rfl, rfl, rfl, rfl⟩, by decide, by decide⟩

theorem wit_DiagnosticUnlock :
    AdminOpen live aA ∧ live.own.owner = .A ∧ live.portA.chLock = none ∧
    tokenLook live.portA 1 0xC3 (vendorReq 1 0xC3 1 7 false []).print = .fresh ∧
    (live.onPort .A fun p => { p with challenge := some [1] }).portA.challenge = some [1] :=
  ⟨by decide, rfl, rfl, rfl, rfl⟩

theorem wit_JtagPrograms : debugPortOpen State.reset 1 = false ∧ debugPortOpen provision 1 = true ∧ memWf 0 provision.sec.otp = true ∧
    otpMayProgram provision.sec.otp 64 = true := by decide

theorem wit_CursorBecomesReady :
    let s := { live with mediaMode := 2, upkeep := { drydownEntry := true } };
    s.mediaMode = 2 ∧ s.upkeep.drydownEntry = true ∧ s.upkeep.cursorRepeat = false ∧ s.hk.halt = false ∧ s.path.unsealed = [] ∧
      s.path.copies = [] ∧ s.path.horizon = s.path.nextSeq - 1 := by decide

theorem wit_DownloadAndCommitBegin_slots : OwnerOpen live aA ∧ live.copyInUse = 1 ∧ 1 ≠ 0 ∧ 2 < 3 ∧
    (4096 % 4096 = 0 ∧ 4190208 + (List.replicate 4096 (0 : BitVec 8)).length ≤ 4194304 ∧ 4096 % 4096 ≠ 1) := by
  refine ⟨by decide, rfl, by decide, by decide, rfl, ?_, by decide⟩
  rw [List.length_replicate]

theorem wit_CommitStepsAndActivates_waits :
    (∀ now ∈ [49999, 50000], let c := out .flush .running;
      let s := { withCmd c with activation := some ⟨.A, some 1, 2, 0⟩, now := now };
      s.activation = some ⟨.A, some 1, 2, 0⟩ ∧ s.run = .running ∧ s.portA.cmds ≠ [] ∧ (0 + 50000 ≤ s.now ∨ s.now < 0 + 50000)) ∧
    (let s := { live with activation := some ⟨.A, some 1, 2, 0⟩, upkeep := { idleSince := 50001 }, now := 50002 };
      s.portA.cmds = [] ∧ s.portB.cmds = [] ∧ ¬s.upkeep.idleSince ≤ 0 + 50000 ∧ 0 + 50000 ≤ s.now) := by decide

/-- A drive with all 32 namespaces. -/
def full : State := { live with path := { spaces := (List.range 32).map fun i => { ns1 with nsid := i + 1, segs := [] } } }

theorem wit_NamespaceCreateCompletes_refused : OwnerOpen full aA ∧
    ((List.range 33).filter fun i => decide (0 < i) && (findNs full i).isNone) = [] ∧
    (OwnerOpen live aA ∧ ((List.range 33).filter fun i => decide (0 < i) && (findNs live i).isNone) ≠ [] ∧
      (freeSegs live).length < segsFor 1024 0) ∧ [0, 1].Nodup ∧ ¬([0, 0] : List Nat).Nodup := by decide

theorem wit_NamespaceCommandsComplete_all : let s := { live with path := { spaces := [ns1] } };
    OwnerOpen s aA ∧ s.path.spaces ≠ [] ∧ 1 ≠ 0xFFFFFFFF := by decide

theorem wit_SanitizeRuns_idle : live.sec.sanStep ≠ 3 ∧ live.sec.sanStep ≠ 4 := by decide

theorem wit_ClaimAndRelease_more :
    (∀ ph ∈ [Phase.held, .released, .linkDown, .lapsed, .handover], let s := live.onOwn fun o => { o with phase := ph };
      AdminOpen s aA ∧ AdminOpen s aB ∧ s.own.phase = ph ∧ s.own.owner = .A ∧ s.own.claim = none) ∧
    (∀ now ∈ [9, 10], let s := { live.onPort .B fun p => { p with forceLock := some 10 } with now := now };
      AdminOpen s aB ∧ s.own.phase ≠ .handover ∧ s.own.owner ≠ .B ∧ forceLocked s .B = decide (now = 9)) ∧
    keyHashOk live 0 = false ∧
    (let tie : OwnCmd := .release 6 8 false; let c : Instr := .ownershipRelease aB 7 false (some tie);
      adminOf c = some aB ∧ asOwn c = some (.release 5 7 false) ∧ tieOf c = some tie ∧ adminLive live .A = true ∧ adminLive live .B = true ∧
        aB.port ≠ (if live.policy.ownTie = 1 then .B else .A) ∧ aA.port = (if live.policy.ownTie = 1 then .B else .A)) := by decide

theorem wit_ClaimAndRelease_fresh (force bad : Bool) : let q := vendorReq 1 0xC0 (b2n force) 0 bad (if force then leBytes 32 0 else []);
    claimRepeats live .B q = false ∧ tokenLook live.portB 1 0xC0 q.print = .fresh := ⟨rfl, rfl⟩

theorem wit_TokensAreNotExecutedTwice_more :
    vendorOf (.ownershipClaim aA 7 false 0 false none) = some (aA, vendorReq 7 0xC0 0 0 false []) ∧
    claimRepeats live .A (vendorReq 7 0xC0 0 0 false []) = false ∧ asksChallenge (.diagnosticUnlockChallenge aA 7 1 false) = true ∧
    live.own.phase ≠ .handover ∧ live.own.owner = .A ∧ live.own.owner ≠ .B := ⟨rfl, rfl, rfl, by decide, rfl, by decide⟩

theorem wit_HandoverSwitchesOwner_more : live.own.claim = none ∧
    (let c := out (.write 0 16 false none) .waiting; underWay c = true ∧ linkIsDown ((withCmd c).port c.port) = false ∧ whollyIn (withCmd c) c = false) ∧
    linkIsDown (handing.port .B) = false ∧ linkIsDown ((handing.onPort .B fun p => { p with ltssm := .detect }).port .B) = true := by decide

theorem wit_OwnershipTimers_none : live.own.downSince = none ∧ live.portA.forceLock = none ∧ live.portA.chLock = none ∧ live.sec.unlock = none := by
  decide

/-- A drive with 18 good channels of one die each, on which no condition of R358 holds. -/
def sound : State := { live with
  media := { chans := (List.range 18).map fun c => (c, { st := .active }) }
  image := { board := { chanMask := 0x3FFFF }, geo := { targets := 1, diesPerTarget := 1, planes := 1, wordlines := 3, blocksPerDie := 8 }
             policy := { bare with drydownAuto := 1 } } }

theorem wit_DrydownControl_more : preserveCond sound = false ∧ preserveCond { live with image := { policy := { bare with drydownAuto := 1 } } } = true ∧
    (∀ m ∈ [1, 2], let s := { sound with mediaMode := m }; AdminOpen s aA ∧ s.own.phase ≠ .handover ∧ s.own.owner = .A ∧ s.mediaMode = m) ∧
    (let s := { live with mediaMode := 2, image := { policy := { bare with drydownAuto := 1 } } };
      AdminOpen s aA ∧ preserveCond s = true ∧ s.policy.drydownAuto = 1) := by decide

theorem wit_DiagnosticUnlock_more :
    (∀ now ∈ [9, 10], let s := { live.onPort .A fun p => { p with chLock := some 10 } with now := now };
      AdminOpen s aA ∧ s.own.owner = .A ∧ challengeLocked s .A = decide (now = 9)) ∧
    live.portA.challenge = none ∧ 7 < 8 ∧
    (let c : Instr := .diagnosticUnlockChallenge aB 7 7 false;
      vendorOf c = some (aB, vendorReq 7 0xC3 1 7 false []) ∧ wellFields c = true ∧ AdminOpen live aB ∧ live.own.owner ≠ .B) :=
  ⟨by decide, rfl, by decide, rfl, rfl, by decide, by decide⟩

theorem wit_JtagPrograms_more : otpMayProgram provision.sec.otp 3 = false ∧ otpMayProgram provision.sec.otp 167 = false ∧
    otpMayProgram provision.sec.otp 168 = true ∧ otpMayProgram provision.sec.otp 335 = true ∧ otpMayProgram provision.sec.otp 336 = false := by decide

theorem wit_CursorBecomesReady_waits :
    let s := { live with mediaMode := 2, upkeep := { drydownEntry := true }, path := { nextSeq := 2, unsealed := [{ seq := 1, port := .A }] } };
    s.mediaMode = 2 ∧ s.upkeep.drydownEntry = true ∧ s.hk.halt = false ∧ (advanceHorizon (drydownSeal s)).path.unsealed ≠ [] := by decide

theorem wit_FetchKeepsPortOrder : mayFetch queued .A = true ∧ slotFree queued .A = true ∧
    (∃ q pt, chooseSq queued.portA = some (q, pt) ∧ q.entries = ⟨9, 1, .prp, .flush⟩ :: []) ∧ queued.run = .running ∧
    queued.sec.sanRerun = false ∧ queued.misc.drivePs < 3 ∧ (∀ k, IoOp.flush ≠ .unsupported k) :=
  ⟨by decide, by decide, ⟨_, _, rfl, rfl⟩, rfl, rfl, by decide, fun _ h => by cases h⟩

theorem wit_MapAcceptsInOrder :
    (let c := out (.read 0 16) .fetched;
      readyForMap (withCmd c) .A = some c ∧ (withCmd c).own.owner = .A ∧ isWriteOp c.entry.op = false) ∧
    (let c := out (.write 0 16 false none) .admitted;
      let s := (withCmd c).onPath fun p => { p with ceiling := 1 };
      readyForMap s .A = some c ∧ isWriteOp c.entry.op = true) ∧
    (let c := { out (.read 0 16) .fetched with port := .B };
      let s := { live with portB := { readyPort with cmds := [c] } };
      readyForMap s .A = none ∧ readyForMap s .B = some c) := by decide

theorem wit_ReadAndVerifyRun :
    (let c := out (.read 1023 1) .accepted; findCmd (withCmd c) .A 1 9 = some c) ∧
    (let c := out (.verify 1023 1) .accepted; findCmd (withCmd c) .A 1 9 = some c) ∧
    (let c := out (.verify 1023 2) .accepted;
      findCmd (withCmd c) .A 1 9 = some c ∧ rangeCheck (withCmd c) c.entry = .inr .lbaOutOfRange) := by
  refine ⟨by decide, by decide, by decide, rfl⟩

theorem wit_WritesAreRefusedOrHeld :
    let c := out (.write 0 16 false none) .fetched;
    let s := { withCmd c with mediaMode := 1 };
    (findCmd s .A 1 9 = some c ∧ s.own.phase ≠ .handover ∧ s.mediaMode ≠ 0) ∧
    (let t := (withCmd c).onOwn fun o => { o with owner := .B }; findCmd t .A 1 9 = some c ∧ t.own.owner ≠ .A) ∧
    (let t := (withCmd c).onOwn fun o => { o with phase := .handover }; findCmd t .A 1 9 = some c ∧ t.own.phase = .handover) := by
  decide

theorem wit_WritesAreDecided :
    (let c := out (.write 0 16 false none) .fetched;
      let s := withCmd c;
      findCmd s .A 1 9 = some c ∧ s.own.phase ≠ .handover ∧ s.own.owner = .A ∧ s.mediaMode = 0 ∧
      rangeCheck s c.entry = .inl ns1 ∧ handleOf s ns1 c.entry.op = some 254 ∧
      ∃ u pls, decideAll ns1 true (modCmd s .A 1 9 fun x => { x with fua := false || s.path.vwcOff || !s.hk.holdupReady })
        (coverOf s ns1 (rangesOf c.entry.op)) = some (u, pls)) ∧
    (let c := out (.writeZeroes 0 16 true false) .fetched; findCmd (withCmd c) .A 1 9 = some c) ∧
    (let c := out (.deallocate [(0, 16)]) .fetched; findCmd (withCmd c) .A 1 9 = some c) :=
  ⟨⟨by decide, by decide, rfl, rfl, rfl, rfl, _, _, rfl⟩, by decide, by decide⟩

theorem wit_AdmissionTakesCredits :
    let c := out (.deallocate [(0, 16)]) .waiting;
    let v := checkUrgent (withCmd c);
    nextInOrder (withCmd c) .A = some c ∧ rangeCheck v c.entry = .inl ns1 ∧ handleOf v ns1 c.entry.op = some 254 ∧
    (∃ u pls, decideAll ns1 false v (coverOf v ns1 (rangesOf c.entry.op)) = some (u, pls) ∧
      needOf v false pls (coverOf v ns1 (rangesOf c.entry.op)) ≤ admitAvail v ∧
      v.path.flacons.length + flaconsNeeded v 254 ((pls.zip (coverOf v ns1 (rangesOf c.entry.op))).map fun x =>
        stageIu v ns1 (.A, 1, 9) false x.1 x.2.2) ≤ 4096) := by
  refine ⟨by decide, rfl, rfl, _, _, rfl, by decide, by decide⟩

theorem wit_HostDataIsPlaced : ∃ c, findCmd (withFlacon .filling sub0) .A 1 9 = some c ∧ c.stage = .running ∧
    hasData c.entry.op = true ∧ c.prot = false := ⟨_, rfl, by decide⟩

theorem wit_FlaconCommitProtects : let s := withFlacon .filling sub0;
    ((getFlacon s 0).subs.filterMap (·.writer)).dedup = [(PortId.A, 1, 9)] ∧
    (∃ c, findCmd s .A 1 9 = some c ∧ c.stage = .running ∧ c.seq = some 1 ∧ c.prot = false ∧ c.fua = false) ∧
    allCommitted (commitParts s 0) (.A, 1, 9) = true ∧ trimsLeft (commitParts s 0) (some 1) = false :=
  ⟨by decide, ⟨_, rfl, by decide⟩, by decide, by decide⟩

theorem wit_PackPlacesFlacon : let s := slcDrive (withFlacon .ready sub0); let f := getFlacon s 0; let n := flaconSlots s f;
    f.st = .ready ∧ f.subs ≠ [] ∧ mediaLive s = true ∧ n = 1 ∧
    ∃ b, placeFor (makePlace s f.handle n) f.handle n = some b ∧
      ∃ u slots, packFlaconSlots b.num f (subsPerIu s) n (notePlace (makePlace s f.handle n) b f.handle) [] = some (u, slots) :=
  ⟨by decide, by decide, by decide, by decide, _, rfl, _, _, rfl⟩

theorem wit_PackPlacesFlacon_waits :
    (let s := withFlacon .ready sub0; let f := getFlacon s 0;
      f.st = .ready ∧ f.subs ≠ [] ∧ mediaLive s = true ∧ placeFor (makePlace s f.handle (flaconSlots s f)) f.handle (flaconSlots s f) = none) ∧
    (getFlacon (withFlacon .safe sub0) 0).st ≠ .ready ∧
    (sbWithRoom (slcDrive live) .slc 254 1 = some slc0 ∧
      (let b := { host0 with st := .isOpen };
        sbWithRoom (withSb b live) .slc 254 1 = none ∧ sbWithRoom (withSb b live) .hostRu 254 1 = some b) ∧
      sbWithRoom live .slc 254 1 = none ∧ sbWithRoom live .hostRu 254 1 = none ∧ formationAllowed live .hostRu = false) :=
  ⟨by decide, by decide, by decide⟩

theorem wit_VersionsApplyAndRelease :
    (let s := withFlacon .safe { sub0 with comm := true, prot := true };
      (getFlacon s 0).place = some ⟨0, [0]⟩ ∧ (getFlacon s 0).st = .safe ∧ ringReady s (2 * (getFlacon s 0).subs.length) = true ∧
        selecting s = false ∧ mediaLive s = true ∧ rateHeld s false 0 = false) ∧
    (let t : TrimVer := { id := 3, seq := 1, nsid := 1, iu := 0, subs := [0], whole := false };
      let s := { live with path := { spaces := [ns1], trims := [t] } };
      s.path.trims.find? (fun t => t.id = 3) = some t ∧ cmdOfSeq (trimNow s t) t.seq = none ∧
        ringReady s (2 * t.subs.length + 1) = true ∧ selecting s = false ∧ mediaLive s = true ∧ rateHeld s true 3 = false ∧
        (∀ e ∈ s.path.flacons, ∀ x ∈ e.2.subs, x.seq = t.seq → x.comm = true)) ∧
    (let s := withFlacon .safe { sub0 with applied := true };
      (getFlacon s 0).st = .safe ∧ (getFlacon s 0).pins = 0 ∧ (∀ x ∈ (getFlacon s 0).subs, x.applied = true ∨ x.stale = true)) :=
  ⟨by decide, by decide, by decide⟩

theorem wit_FlushAndSeal :
    (let c := out .flush .accepted; findCmd (withCmd c) .A 1 9 = some c) ∧
    (∀ bad ∈ [false, true], let c := out (.seal true 0xFFFFFFFF bad) .accepted;
      findCmd (withCmd c) .A 1 9 = some c ∧
        tokenLook (withCmd c).portA 0xFFFFFFFF 0x81 (tokenPrint [0xFFFFFFFF, 1, 0, b2n bad, 0, 0] []) = .fresh) := by
  refine ⟨by decide, fun bad h => ?_⟩
  fin_cases h <;> exact ⟨by decide, rfl⟩

theorem wit_ReadWaitsAndPadDelay :
    (let c := out (.read 0 16) .running;
      findCmd (withCmd c) .A 1 9 = some c ∧ findNs (withCmd c) 1 = some ns1 ∧ isWriteOp c.entry.op = false) ∧
    (dropSealed (padding 1000) (padding 1000).path.unsealed = [{ seq := 1, port := .A, protAt := some 0 }] ∧
      stripeIncomplete (padding 1000) 1 = true ∧ 0 + (padding 1000).policy.sealPadDelay ≤ (padding 1000).now) ∧
    (dropSealed (padding 999) (padding 999).path.unsealed = [{ seq := 1, port := .A, protAt := some 0 }] ∧
      (padding 999).now < 0 + (padding 999).policy.sealPadDelay) :=
  ⟨⟨by decide, rfl, rfl⟩, by decide, by decide⟩

theorem wit_DoorbellsMoveQueues :
    (let q : Sq := { id := 1, size := 4, cqid := 1, prio := 0, tail := 1, entries := [⟨9, 1, .prp, .flush⟩] };
      queued.portA.sqs.find? (fun q => q.id = 1) = some q ∧ 3 < q.size ∧
        q.entries.length + (3 + q.size - q.tail) % q.size < q.size ∧ [1, 2].length = (3 + q.size - q.tail) % q.size) ∧
    (let q : Cq := { id := 1, size := 4, vector := 0, head := 1, tail := 2 };
      queued.portA.cqs.find? (fun q => q.id = 1) = some q ∧ 2 < q.size ∧
        (2 + q.size - q.head) % q.size ≤ (q.tail + q.size - q.head) % q.size) ∧
    (∀ q ∈ queued.portA.sqs, q.id ≠ 2) ∧ (∀ q ∈ queued.portA.cqs, q.id ≠ 2) := by decide

/-- A drive in recovery, or in PS3, with the entry waiting in submission queue 1 of port A. -/
def queuedWith (e : IoEntry) (f : State → State) : State :=
  f { queued with portA := { queued.portA with sqs := [{ id := 1, size := 4, cqid := 1, prio := 0, tail := 1, entries := [e] }] } }

theorem wit_FetchKeepsPortOrder_more :
    (∀ e ∈ [IoEntry.mk 9 1 .sglOther .flush, ⟨9, 1, .prp, .unsupported 0x7F⟩, ⟨9, 1, .prp, .dsmOther⟩],
      let s := queuedWith e id; mayFetch s .A = true ∧ slotFree s .A = true ∧ ((chooseSq s.portA).map fun x => x.1.entries) = some [e] ∧
        s.misc.drivePs < 3 ∧ notReady s = false) ∧
    (let s := queuedWith ⟨9, 1, .prp, .flush⟩ fun s => { s with run := .recovery };
      mayFetch s .A = true ∧ slotFree s .A = true ∧ notReady s = true) ∧
    (let s := queuedWith ⟨9, 1, .prp, .flush⟩ fun s => s.onMisc fun m => { m with drivePs := 3 }; mayFetch s .A = true ∧ 3 ≤ s.misc.drivePs) ∧
    chooseSq live.portA = none ∧ mayFetch State.reset .A = false := by decide

theorem wit_MapAcceptsInOrder_more :
    (let c := out (.write 0 16 false none) .admitted;
      let s := { withCmd c with path := { ceiling := 1 } };
      readyForMap s s.own.owner = some c ∧ isWriteOp c.entry.op = true ∧ findNs s c.entry.nsid = none) ∧
    (readyForMap live live.own.owner = none ∧ readyForMap live live.own.owner.other = none) := by decide

theorem wit_ReadAndVerifyRun_more :
    (let c := out (.read 1023 2) .accepted; findCmd (withCmd c) .A 1 9 = some c ∧ c.stage = .accepted ∧
      rangeCheck (trackStream (withCmd c) .A 1 1023 2) c.entry = .inr .lbaOutOfRange) ∧
    (let c := out (.read 0 1) .running; findCmd (withCmd c) .A 1 9 = some c ∧ c.stage ≠ .accepted) ∧ findCmd live .A 1 9 = none :=
  ⟨⟨by decide, by decide, rfl⟩, by decide, by decide⟩

theorem wit_WritesAreRefusedOrHeld_more :
    (let c := out (.writeZeroes 0 16 true false) .fetched; findCmd { withCmd c with mediaMode := 1 } .A 1 9 = some c) ∧
    (let c := out (.deallocate [(0, 16)]) .fetched; findCmd ((withCmd c).onOwn fun o => { o with phase := .handover }) .A 1 9 = some c) := by decide

/-- A map entry that reads as poisoned, and a probe without room. -/
def crowded (op : IoOp) (more : List OutCmd) : State :=
  { live with
    portA := { readyPort with cmds := more ++ [out op .fetched] }
    path := { spaces := [ns1], map := [(0, { poisoned := true, trimmed := false, valid := true })],
              ovl := (List.range 64).map fun i =>
                { bucket := 24278581 + i / 4, place := i % 4, seqLow := 1, psub := 0, pa := 0, trimmed := false, sub := 16, mapIndex := 0 } } }

theorem wit_WritesAreDecided_more :
    (let c := out (.write 1023 2 false none) .fetched; rangeCheck (withCmd c) c.entry = .inr .lbaOutOfRange ∧ (withCmd c).own.phase ≠ .handover) ∧
    (let c := out (.write 0 16 false (some 1)) .fetched; let s := (withCmd c).onPath fun p => { p with fdp := true };
      rangeCheck s c.entry = .inl ns1 ∧ handleOf s ns1 c.entry.op = none) ∧
    (let c := out (.deallocate [(0, 16)]) .waiting; let s := withCmd c;
      findCmd s .A 1 9 = some c ∧ c.stage = .waiting ∧ c.need = 0 ∧ isTurn s c = true ∧ ({ c with need := 1 }).need ≠ 0) :=
  ⟨⟨rfl, by decide⟩, ⟨rfl, rfl⟩, by decide⟩

set_option maxRecDepth 10000 in
theorem wit_WritesAreDecided_fault (more : List OutCmd) (h : more = [] ∨ more = [{ out .flush .fetched with sq := 2 }]) :
    let c := out (.write 0 1 false none) .fetched; let s := crowded c.entry.op more;
    c.stage = .fetched ∧ s.own.phase ≠ .handover ∧ s.own.owner = c.port ∧ s.mediaMode = 0 ∧
    rangeCheck s c.entry = .inl ns1 ∧ handleOf s ns1 c.entry.op = some 254 ∧
    decideAll ns1 true s (coverOf s ns1 (rangesOf c.entry.op)) = none ∧ isTurn s c = decide (more = []) := by
  obtain rfl | rfl := h <;> exact ⟨rfl, by decide, rfl, rfl, rfl, rfl, rfl, rfl⟩

theorem wit_AdmissionTakesCredits_waits :
    let c := out (.write 0 16 false none) .waiting;
    let v := checkUrgent (withCmd c);
    nextInOrder (withCmd c) .A = some c ∧ rangeCheck v c.entry = .inl ns1 ∧ handleOf v ns1 c.entry.op = some 254 ∧
    (∃ u pls, decideAll ns1 true v (coverOf v ns1 (rangesOf c.entry.op)) = some (u, pls) ∧
      0 < needOf v true pls (coverOf v ns1 (rangesOf c.entry.op)) ∧ admitAvail v < needOf v true pls (coverOf v ns1 (rangesOf c.entry.op))) ∧
    nextInOrder live .A = none := by
  refine ⟨by decide, rfl, rfl, ⟨_, _, rfl, by decide, by decide⟩, by decide⟩

theorem wit_HostDataIsPlaced_more : let c := { out (.write 0 16 false none) .running with prot := true };
    findCmd (withCmd c) .A 1 9 = some c ∧ c.prot = true ∧ hasData (out (.deallocate []) .running).entry.op = false := by decide

theorem wit_FlaconCommitProtects_more :
    (let c := { out (.write 0 16 true none) .running with seq := some 1, fua := true };
      let s := { withFlacon .filling sub0 with portA := { readyPort with cmds := [c] } };
      findCmd s .A 1 9 = some c ∧ c.fua = true ∧ allCommitted (commitParts s 0) (.A, 1, 9) = true) ∧
    (let s := withFlacon .filling { sub0 with filled := false };
      ((getFlacon s 0).subs.filterMap (·.writer)).dedup = [(PortId.A, 1, 9)] ∧ allCommitted (commitParts s 0) (.A, 1, 9) = false) := by decide

theorem wit_VersionsApplyAndRelease_more :
    (let s := (withFlacon .safe { sub0 with comm := true, prot := true }).onJournal fun j => { j with windowBytes := 2000000 };
      (getFlacon s 0).place = some ⟨0, [0]⟩ ∧ rateHeld s false 0 = true ∧ reselects s 1 0 = false) ∧
    (getFlacon (withFlacon .programmed sub0) 0).st ≠ .safe ∧ (getFlacon (withFlacon .programmed sub0) 0).place = some ⟨0, [0]⟩ ∧
    (let t : TrimVer := { id := 3, seq := 1, nsid := 1, iu := 0, subs := [0], whole := false };
      let s := { live with path := { spaces := [ns1], trims := [t] } };
      reselects s t.nsid t.iu = false ∧ rateHeld (s.onJournal fun j => { j with windowBytes := 2000000 }) true 3 = true) ∧
    (let t : TrimVer := { id := 3, seq := 1, nsid := 1, iu := 0, subs := [1], whole := false };
      let s := (withFlacon .filling sub0).onPath fun p => { p with trims := [t] };
      s.path.trims.find? (fun t => t.id = 3) = some t ∧ rateHeld s true 3 = false ∧ ringReady s (2 * t.subs.length + 1) = true ∧
        selecting s = false ∧ reselects s t.nsid t.iu = false ∧ mediaLive s = true ∧ ∃ e ∈ s.path.flacons, ∃ x ∈ e.2.subs, x.seq = t.seq ∧ x.comm = false) ∧
    (let c := { out (.write 0 1 false none) .running with seq := some 1 };
      let t : TrimVer := { id := 3, seq := 1, nsid := 1, iu := 0, subs := [0], whole := false };
      let s := (withCmd c).onPath fun p => { p with trims := [t] };
      cmdOfSeq (trimNow s t) t.seq = some c ∧ s.path.flacons = []) ∧
    (let s := withFlacon .safe sub0; (getFlacon s 0).st = .safe ∧ ∃ x ∈ (getFlacon s 0).subs, x.applied = false ∧ x.stale = false) := by decide

theorem wit_FlushAndSeal_more : (let c := out .flush .fetched; findCmd (withCmd c) .A 1 9 = some c ∧ c.stage ≠ .accepted) ∧
    (let c := out (.seal false 0 false) .fetched; findCmd (withCmd c) .A 1 9 = some c ∧ c.stage ≠ .accepted) := by decide

theorem wit_ReadWaitsAndPadDelay_more :
    (let s := withFlacon .filling { sub0 with waits := some 0 }; isWriteOp (out (.write 0 16 false none) .running).entry.op = true ∧
      (findCmd s .A 1 9).isSome = true ∧ findNs s 1 = some ns1) ∧
    (let c := out (.read 0 16) .accepted; findCmd (withCmd c) .A 1 9 = some c ∧ c.stage ≠ .running) ∧
    (let s := { padding 1000 with media := {} }; stripeIncomplete s 1 = false) ∧
    (let r : SeqRec := { seq := 1, port := .A };
      let s := { live with path := { nextSeq := 2, unsealed := [r] } }; dropSealed s s.path.unsealed = [r] ∧ r.protAt = none) ∧
    dropSealed live live.path.unsealed = [] :=
  ⟨⟨rfl, by decide, rfl⟩, by decide, by decide, by decide, rfl⟩

theorem wit_DoorbellsMoveQueues_more :
    (queued.port .A).refclk = true ∧
    (let q : Sq := { id := 1, size := 4, cqid := 1, prio := 0, tail := 1, entries := [⟨9, 1, .prp, .flush⟩] };
      queued.portA.sqs.find? (fun q => q.id = 1) = some q ∧ q.size ≤ 4 ∧ q.size ≤ q.entries.length + (0 + q.size - q.tail) % q.size) ∧
    (let q : Cq := { id := 1, size := 4, vector := 0, head := 1, tail := 2 };
      queued.portA.cqs.find? (fun q => q.id = 1) = some q ∧ (q.tail + q.size - q.head) % q.size < (3 + q.size - q.head) % q.size ∧ q.size ≤ 4) ∧
    (queued.onPort .A fun p => { p with refclk := false }).portA.refclk = false := by decide

theorem wit_DieOperationsStart :
    (let s := withDie { queue := [{ eraseOp with granted := true }] };
      nextOp s (getDie s 0) = some { eraseOp with granted := true } ∧ canStart s 0 { eraseOp with granted := true } = true) ∧
    (let s := withDie { queue := [eraseOp] };
      nextOp s (getDie s 0) = some eraseOp ∧ canStart s 0 eraseOp = true ∧ eraseOp.cls ≠ 1 ∧ 0 ∉ s.hk.waiting) ∧
    (nextOp (withDie {}) (getDie (withDie {}) 0) = none) ∧
    (let s := withDie { busy := some eraseOp, queue := [readOp] };
      nextOp s (getDie s 0) = some readOp ∧ canStart s 0 readOp = false) ∧
    (let s := { withDie { queue := [eraseOp] } with hk := { waiting := [0] }, image := { timing := { pDieErase := 100 }, policy := { bare with nandPowerBudget := 100 } } };
      nextGrant s = some (0, eraseOp) ∧ grantFits s eraseOp = true) ∧
    (let s := { withDie { queue := [eraseOp] } with hk := { waiting := [0], inUse := 1 }, image := { timing := { pDieErase := 100 }, policy := { bare with nandPowerBudget := 100 } } };
      nextGrant s = some (0, eraseOp) ∧ grantFits s eraseOp = false) := by decide

theorem wit_ProgramsAndErasesRun :
    (∀ k ∈ [OpKind.coarse 0 0, .fine 0 0, .program 0 0, .erase 3 .hostRu false, .marginCheck 3 .hostRu false, .marginCheck 3 .hostRu true],
      let o : DieOp := { kind := k, cls := 7, queuedAt := 0, granted := true };
      (getDie (withDie { busy := some o }) 0).busy = some o ∧ o.granted = true) ∧
    (getDie (withDie {}) 0).busy = none ∧
    (let s := { withDie { busy := some eraseOp, queue := [readOp] } with image := { policy := { bare with eraseSuspendMax := 1 } } };
      (getDie s 0).busy = some eraseOp ∧ hostReadQueued (getDie s 0) = true ∧ suspendable s (getDie s 0) = true ∧
        (getBlock s 0 3).unclean = false) ∧
    (let s := withDie { busy := some eraseOp, queue := [readOp] };
      (getDie s 0).busy = some eraseOp ∧ hostReadQueued (getDie s 0) = true ∧ suspendable s (getDie s 0) = false) ∧
    hostReadQueued (getDie (withDie { busy := some eraseOp }) 0) = false ∧
    (let s := { withDie { susp := some eraseOp } with image := { policy := { bare with nandPowerBudget := 1 } } };
      (getDie s 0).susp = some eraseOp ∧ (getDie s 0).busy = none ∧ resumeDue s (getDie s 0) = true ∧
        (getDie s 0).queue.any (·.ahead) = false ∧ pauseOver s 0 2 = true ∧ grantFits s eraseOp = true) ∧
    (let s := withDie { susp := some eraseOp, busy := some readOp }; (getDie s 0).susp = some eraseOp ∧ (getDie s 0).busy ≠ none) ∧
    (getDie (withDie {}) 0).susp = none := by decide

theorem wit_ReadPathRuns_senses :
    (∀ ra ∈ [false, true], let j := { job0 1 with queued := false, offsets := [0], runAhead := ra }; let s := withJob j;
      (getDie s 0).busy = some readOp ∧ readOp.kind = .sense 0 0 0 none ∧ budgetOver (finishOp s 0 readOp) j = false ∧
        ((finishOp s 0 readOp).path.jobs.filter (wantsHard 0 0 0 none)).any (·.runAhead) = ra) ∧
    (let o : DieOp := { kind := .sense 0 0 1 none, cls := 3, queuedAt := 0, ahead := true };
      let s := withDie { busy := some o };
      (getDie s 0).busy = some o ∧ o.ahead = true ∧ (finishOp s 0 o).path.jobs.filter (wantsSoft 0 0 0 1) = []) ∧
    (let o : DieOp := { kind := .sense 0 0 1 none, cls := 3, queuedAt := 0 };
      let j := { job0 2 with sensed := some 0, failedAt := none };
      let s := { withDie { busy := some o } with path := { spaces := [ns1], jobs := [j] } };
      (getDie s 0).busy = some o ∧ (finishOp s 0 o).path.jobs.filter (wantsSoft 0 0 0 1) ≠ []) := by decide

theorem wit_ReadPathRuns_decodes :
    (let s := withJob (job0 1);
      findJob s 4 = some (job0 1) ∧ inDecoder s (job0 1) = true ∧
        (∀ v, decodeChecks (leaveDecoder s (job0 1)) (job0 1) ⟨v, 0⟩ = true ∧ decodeChecks (leaveDecoder s (job0 1)) (job0 1) ⟨v, 1⟩ = false) ∧
        (∀ v, entryExpected (job0 1).expect v = true) ∧ entryExpected (some ⟨1, 0, 0, 0⟩) 0 = false ∧ cwEntry 0 = 0) ∧
    (let s := withDie {}; inDecoder { s with path := { jobs := [job0 1] } } (job0 1) = false) :=
  ⟨⟨rfl, by decide, fun v => ⟨rfl, rfl⟩, fun _ => rfl, rfl, by simp [cwEntry]⟩, by decide⟩

theorem wit_ReadPathRuns :
    (let s := withJob (job0 2);
      findJob s 4 = some (job0 2) ∧ budgetOver s (job0 2) = true ∧ (getDie s 0).busy = none) ∧
    (let s := withJob { job0 2 with failedAt := none }; budgetOver s { job0 2 with failedAt := none } = false) ∧
    (let s := withJob (job0 5); findJob s 4 = some (job0 5) ∧ (job0 5).step = 5 ∧ (job0 5).hasBuf = false ∧ (job0 1).step ≠ 5) ∧
    (let j := { job0 5 with hasBuf := true };
      let s := { withJob j with media := { sbs := [host0] } };
      findJob s 4 = some j ∧ findSb s j.sb = some host0 ∧ ∃ ms, memberPlan (columnDown s host0 j) = some ms ∧ ∃ m ∈ ms, ∀ g ∈ j.got, g.1 ≠ m) ∧
    (let j := { job0 5 with hasBuf := true, got := ((List.range 17).map fun i => (i + 1, 0, 0)) };
      let s := { withJob j with media := { sbs := [host0] } };
      findJob s 4 = some j ∧ ∃ ms, memberPlan (columnDown s host0 j) = some ms ∧ ∀ m ∈ ms, ∃ g ∈ j.got, g.1 = m) := by
  refine ⟨⟨rfl, by decide, by decide⟩, by decide, ⟨rfl, rfl, rfl, by decide⟩, ⟨rfl, rfl, _, rfl, 1, by decide, fun g hg => by cases hg⟩, rfl, _, rfl, ?_⟩
  intro m hm
  have : m = 1 ∨ 2 ≤ m ∧ m ≤ 16 := by revert m; decide
  exact ⟨(m, 0, 0), List.mem_map.mpr ⟨m - 1, List.mem_range.mpr (by omega), by rw [Nat.sub_add_cancel (by omega)]⟩, rfl⟩

theorem wit_ReadPathRuns_prefetch :
    let t : Stream := { nsid := 1, lastLba := 15, extensions := 2, usedAt := 0, nextIu := 1 };
    let s := { live with portA := { readyPort with streams := [t] }, path := { spaces := [ns1] }, image := { policy := { bare with readaheadDepth := 1 } } };
    let u := { s with path := { spaces := [ns1], map := [(1, { trimmed := false, valid := true })] } };
    (s.portA.streams[0]? = some t ∧ findNs s 1 = some ns1 ∧ t.nextIu = t.lastLba / lbasPerIu s ns1 + 1 ∧ 1 ≤ s.policy.readaheadDepth ∧
      t.nextIu < ns1.nsze / lbasPerIu s ns1 ∧ (∀ d, demandReads s d < 2) ∧ (getMap s (mapIndex s ns1 1)).valid = false) ∧
    ((getMap u (mapIndex u ns1 1)).valid = true ∧ ∀ sub, stagedSubs u 1 1 sub = [] ∧ stagedTrims u 1 1 sub = []) ∧
    ({ t with extensions := 1 }).extensions < 2 :=
  ⟨⟨rfl, rfl, by decide, by decide, by decide, fun _ => Nat.zero_lt_two, by decide⟩, ⟨by decide, fun _ => ⟨rfl, rfl⟩⟩, by decide⟩

theorem wit_ReadPathRuns_staged : stagedSubs (withFlacon .ready { sub0 with iu := 1 }) 1 1 0 ≠ [] ∧ 0 < subsPerIu (withFlacon .ready sub0) := by decide

theorem wit_SuperBlocksFormAndRelease :
    (let s := withSb host0 live;
      findSb s 0 = some host0 ∧ host0.use ≠ .journal ∧ host0.valid = 0 ∧ host0.pins = 0 ∧ sbReferenced s host0 = false) ∧
    (let b := { host0 with pins := 1 }; findSb (withSb b live) 0 = some b ∧ b.pins ≠ 0) ∧
    (let b := { host0 with use := .journal };
      let s := withSb b live;
      findSb s 0 = some b ∧ b.st = .closed ∧ sbReferenced s b = false ∧ journalSpent s b = true) ∧
    (let b := { host0 with st := .isOpen };
      let s := { withSb b live with image := { policy := { bare with ruActiveLimit := 1 } }, now := 3600000000 };
      findSb s 0 = some b ∧ b.use = .hostRu ∧ s.policy.ruActiveLimit ≠ 0 ∧
        elapsed s b.openedAt (s.policy.ruActiveLimit * 3600000000) = true) := by decide

theorem wit_SuperBlocksFormAndRelease_due :
    (sbWithRoom live .collection 0xFF 1 = none ∧ sbWithRoom live .rebuildDest 0xFF 1 = none ∧ openOf (closeFullJournal live) .journal 0xFF = [] ∧
      packWaits live 0 = false ∧ groupWaits live (.hostRu, 0) = false ∧ openOf live .hostRu 0 = [] ∧ chansGood live < 18) ∧
    (∀ u ∈ [SbUse.collection, .rebuildDest], let s := withSb { host0 with use := u, st := .isOpen, handle := 0xFF } (slcDrive live);
      sbWithRoom s u 0xFF 1 ≠ none) ∧
    (let s := { live with media := { sbs := [{ slc0 with use := .journal, handle := 0xFF }] },
                          image := { geo := { targets := 1, diesPerTarget := 1, planes := 1, wordlines := 256 } } };
      openOf (closeFullJournal s) .journal 0xFF ≠ []) ∧
    (let s := { (live.onPath fun p => { p with flacons := [(0, { st := .ready, handle := 0 })] }) with
        image := { (slcDrive live).image with policy := { bare with cacheMax := 1, cacheFraction := 256 }, board := { chanMask := 0xFFFFFFFF } } };
      packWaits s 0 = true ∧ openOf s .hostRu 0 = [] ∧ openOf s .slc 0 = [] ∧ slcCount s < slcCacheSize s ∧ slcAllowed s = true) ∧
    (let b := { host0 with st := .isOpen, handle := 0, nextSlot := 1000000 };
      openOf (withSb b (slcDrive live)) .hostRu 0 = [b] ∧ sbRoom (slcDrive live) b * 8 < ruUnits (slcDrive live)) ∧
    (let b := { host0 with st := .isOpen, handle := 0 };
      openOf (withSb b (slcDrive live)) .hostRu 0 = [b] ∧ ruUnits (slcDrive live) ≤ sbRoom (slcDrive live) b * 8) := by decide

theorem wit_SuperBlocksFormAndRelease_two (room : Bool) :
    let a := { host0 with st := .isOpen, handle := 0, nextSlot := if room then 0 else 1000000 };
    let s := { (live.onPath fun p => { p with flacons := [(0, { st := .ready, handle := 0 })] }) with
      image := (slcDrive live).image, media := { sbs := [a, { a with num := 1, serial := 2 }] } };
    openOf s .hostRu 0 = a :: { a with num := 1, serial := 2 } :: [] ∧ packWaits s 0 = true ∧
      ((sbWithRoom s .hostRu 0 1 = none) = (room = false)) := by
  cases room <;> decide

theorem wit_CollectionAndRebuildWork :
    (noIo live = true ∧ elapsed live live.upkeep.idleSince (live.policy.gcIdleMs * 1000) = true) ∧
    (let s := { withSb host0 live with image := { (slcDrive live).image with policy := { bare with gcUrgent := 2000 } } };
      upkeepRuns (checkUrgent s) = true ∧ victims (checkUrgent s) < victimLimit (checkUrgent s) ∧ nextVictim (checkUrgent s) = some host0) ∧
    (let b := { host0 with victim := true };
      let s := (withSb b { live with upkeep := { idle := true } }).onPath fun p => { p with spaces := [ns1], map := [(0, { trimmed := false, valid := true })] };
      let s := { s with image := { s.image with policy := { bare with gcBgTarget := 2000 } } };
      findSb s 0 = some b ∧ upkeepRuns s = true ∧ copyKindOf s b = some .collect ∧
        minBy unitKey ((sbUnits s 0).filter fun x => !inCopy s x) = some ⟨0, 0, 0, none⟩) ∧
    (let s := { withSb host0 live with media := { sbs := [host0], blocks := [(0, { erases := 5, pool := .inUse }), (1, { pool := .erased })] } };
      let s := { s with image := { s.image with board := { chanMask := 1 } } };
      upkeepRuns s = true ∧ s.mediaMode = 0 ∧ gcUrgentNow s = false ∧ s.upkeep.wearing = none ∧ s.policy.wearSpread < eraseSpread s ∧
        minBy (fun b => sbErases s b * 4294967296 + b.serial) (s.media.sbs.filter (collectable s)) = some host0) := by decide

theorem wit_CollectionAndRebuildWork_folds :
    (let o : OvlEntry := { bucket := 0, place := 0, seqLow := 1, psub := 0, pa := 0, trimmed := true, sub := 0, mapIndex := 0 };
      let s := { live with path := { spaces := [ns1], ovl := [o] } };
      findNs s 1 = some ns1 ∧ upkeepRuns s = true ∧ foldDue s (mapIndex s ns1 0) = true ∧ (∀ c ∈ s.path.copies, c.kind ≠ .fold) ∧
        (getMap s (mapIndex s ns1 0)).poisoned = false ∧ copyRoom s (subsPerIu s) = true) ∧
    (let b := { slc0 with st := .closed };
      let s := withSb b { live with upkeep := { idle := true } };
      findSb s 0 = some b ∧ upkeepRuns s = true ∧ s.upkeep.idle = true) ∧
    (let s := live.onUpkeep fun u => { u with rebuilding := true }; rebuildUnits s = [] ∧ s.upkeep.rebuilding = true) :=
  ⟨⟨rfl, by decide, by decide, by decide, by decide, by decide⟩, by decide, by decide⟩

theorem wit_CollectionAndRebuildWork_rebuild : degraded.upkeep.rebuilding = true ∧ rebuildRuns degraded = true ∧
    ∃ x, minBy (rebuildKey degraded) ((rebuildUnits degraded).filter fun y => !inCopy degraded y.2) = some x := ⟨rfl, by decide, _, rfl⟩

theorem wit_PatrolScrubRuns :
    (∀ at' ∈ [0, 1, 53], let s := withSb host0 { live with upkeep := { scrubAt := at' } };
      scrubRuns s = true ∧ minBy (·.num) (scrubSbs s) = some host0 ∧ scrubWaits s host0 (at' / 18) (at' % 18) = false ∧
        (at' + 1 < sbPages s host0 ∨ sbPages s host0 ≤ at' + 1)) ∧
    (let s := { withSb host0 live with media := { sbs := [host0], chans := (List.range 18).map fun c => (c, { st := .reset }) } };
      scrubRuns s = true ∧ minBy (·.num) (scrubSbs s) = some host0 ∧ scrubWaits s host0 0 0 = true) ∧
    (scrubRuns live = true ∧ scrubSbs live = [] ∧ (scrubSystem live)[live.upkeep.scrubSys]? = none) ∧
    scrubRuns { live with mediaMode := 2 } = false ∧ 1 ≠ live.upkeep.scrubPages ∧
    (∀ lim ∈ [7, 8], let b := { host0 with relocated := 7 };
      let s := { withSb b live with image := { policy := { bare with scrubSbRefresh := lim } } };
      findSb s 0 = some b ∧ (s.policy.scrubSbRefresh ≤ b.relocated ∨ b.relocated < s.policy.scrubSbRefresh)) ∧
    (∀ p ∈ [0, 1], let s := { live with image := { policy := { bare with scrubPeriod := p } } };
      s.upkeep.overrunCounted = false ∧
        (s.upkeep.scrubStart + s.policy.scrubPeriod * 1440 ≤ powerOnMin s ∨ powerOnMin s < s.upkeep.scrubStart + s.policy.scrubPeriod * 1440)) := by
  decide

theorem wit_PatrolScrubRuns_system :
    (∀ at' ∈ [0, 71], ∀ st ∈ [CsState.active, .reset],
      let b := { host0 with use := .journal };
      let c : Chunk := { serial := 4, openedMin := 0, closed := true, inDelta := true, place := some (0, 0) };
      let s := { withSb b { live with upkeep := { scrubAt := at' }, journal := { chunks := [c] } } with
        media := { sbs := [b], chans := (List.range 18).map fun c => (c, { st := st }) } };
      scrubRuns s = true ∧ scrubSbs s = [] ∧ (scrubSystem s)[s.upkeep.scrubSys]? = some (false, 4) ∧ systemPlace s (false, 4) = some (0, 0) ∧
        findSb s 0 = some b ∧ scrubWaits s b (0 + at' / 18) (at' % 18) = decide (st = .reset) ∧
        (at' + 1 < systemPages (false, 4) ∨ systemPages (false, 4) ≤ at' + 1)) ∧
    (let s := { live with journal := { chunks := [{ serial := 4, openedMin := 0, closed := true, inDelta := true }] } };
      (scrubSystem s)[s.upkeep.scrubSys]? = some (false, 4) ∧ systemPlace s (false, 4) = none) := by decide

theorem wit_PatrolScrubRuns_outcomes : let r : ScrubRead := { id := 0, sb := 0, k := 0, member := 3, system := none };
    r.system = none ∧ (∃ o ∈ [(0, 5, 0)], 5 ≤ o.2.1) ∧ (∃ o ∈ [(0, 1, 7)], o.2.1 < 5 ∧ (2 ≤ o.2.1 ∨ 7 ≤ o.2.2)) ∧
    (∀ o ∈ [(0, 1, 6)], o.2.1 < 2 ∧ o.2.2 < 7) := by decide

theorem queueSense_path (s : State) (die block pos soft : Nat) (retry : Option Nat) (cls : Nat) :
    (queueSense s die block pos soft retry cls).path = s.path := by
  unfold queueSense; dsimp only; split
  · rfl
  · split <;> rfl

/-- A read leaves the number of the next copy. -/
theorem readAt_copyNext (s : State) (pa psub : Nat) (u : Purpose) (e : Option Expect) (cls : Nat) :
    (readAt s pa psub u e cls).1.path.copyNext = s.path.copyNext := by
  unfold readAt; split
  · rfl
  · unfold issueRead; dsimp only; split
    · rfl
    · rw [queueSense_path]; rfl

theorem startCopy_copyNext (s : State) (kind : CopyKind) (cls : Nat) (u : SrcUnit) (n : Namespace) (iu : Nat) (h : mapOwner s u.mi = some (n, iu))
    (hs : u.sub = none) (hr : copyRoom s (subsPerIu s) = true) : (startCopy s kind cls u).path.copyNext = s.path.copyNext + 1 := by
  have fold : ∀ (l : List Nat) (f : State → Nat → State) (t : State), (∀ t i, (f t i).path.copyNext = t.path.copyNext) →
      (l.foldl f t).path.copyNext = t.path.copyNext := by
    intro l f t hf
    induction l generalizing t with
    | nil => rfl
    | cons i l ih => rw [List.foldl_cons, ih, hf]
  simp only [startCopy, h, hs, List.length_range, hr, Bool.not_true, Bool.false_eq_true, if_false]
  rw [fold _ _ _ fun t i => readAt_copyNext ..]; rfl

theorem wit_CollectionAndRebuildWork_more :
    (let b := host0;
      let s := withSb b { live with upkeep := { relocate := [(0, 0, 18)] } };
      let s := s.onPath fun p => { p with spaces := [ns1], map := [(0, { trimmed := false, valid := true })] };
      findSb s 0 = some b ∧ upkeepRuns s = true ∧ copyKindOf s b = some .scrub ∧
        minBy unitKey (((sbUnits s 0).filter fun x => !inCopy s x).filter (toRelocate s 0)) = some ⟨0, 0, 0, none⟩ ∧
        (startCopy s .scrub 7 ⟨0, 0, 0, none⟩).path.copyNext ≠ s.path.copyNext) ∧
    (copyKindOf (withSb host0 live) host0 = none ∧ noIo (withCmd (out .flush .running)) = false ∧ nextVictim live = none ∧
      foldDue live 0 = false ∧ live.upkeep.rebuilding = false ∧ live.upkeep.degraded = false ∧ rebuildUnits live = []) ∧
    (let s := { degraded with upkeep := { rebuilding := true }, image := { degraded.image with policy := bare } };
      rebuildUnits s ≠ [] ∧ rebuildRuns { s with portA := { readyPort with cmds := [out .flush .running] } } = false) := by
  refine ⟨⟨rfl, by decide, by decide, rfl, ?_⟩, ⟨by decide, by decide, by decide, by decide, rfl, rfl, rfl⟩, List.cons_ne_nil _ _, rfl⟩
  rw [startCopy_copyNext _ _ _ _ ns1 0 rfl rfl (by decide)]; exact Nat.succ_ne_self _

theorem wit_JournalAndRecoveryWork :
    (Running live ∧ live.path.ceiling < live.path.nextSeq) ∧
    (let s := live.onPath fun p => { p with ceiling := 1 }; Running s ∧ s.path.nextSeq ≤ s.path.ceiling) ∧
    (∀ now ∈ [999, 1000], let s := journalling now; let c : Chunk := { serial := 4, openedMin := 0, recs := [.pad], firstAt := some 0 };
      s.journal.chunks.find? (fun c => !c.closed) = some c ∧ c.firstAt = some 0 ∧ mediaLive s = true ∧
        (elapsed s 0 (s.policy.journalFlushMs * 1000) = true ∨ elapsed s 0 (s.policy.journalFlushMs * 1000) = false)) ∧
    (let s := journalling 0; let b := { slc0 with use := .journal };
      Running s ∧ s.journal.anchor.clean = false ∧ s.upkeep.segAgain = [] ∧ 2 ≤ s.journal.chunksSince ∧
        s.media.sbs.find? (fun b => decide (b.use = .journal) && decide (b.st = .isOpen)) = some b ∧ b.nextSlot + 513 ≤ stripesIn s 0 * 4) ∧
    (let s := live.onJournal fun j => { j with setA := { st := .inUse, flush := some flush0 } };
      Running s ∧ s.journal.setA.flush = some flush0 ∧ s.journal.setA.st = .inUse ∧ stagedFrom s flush0.serial = false) ∧
    (let s := { live with run := .recovery, boot := { stage := 7 }, journal := { anchor := { clean := true } } };
      s.run = .recovery ∧ s.fh.latch = false ∧ s.boot.stage = 7 ∧ s.journal.anchor.clean = true) ∧
    live.run ≠ .recovery ∧
    (∀ now ∈ [24999999, 25000000], let s := { live with run := .recovery, now := now, portA := { readyPort with rdy := false } };
      s.run = .recovery ∧ s.portA.ccEn = true ∧ s.portA.rdy = false ∧
        (elapsed s s.portA.ccEnAt 25000000 = true ∨ elapsed s s.portA.ccEnAt 25000000 = false)) := by decide

theorem wit_PowerFailsAndReturns :
    (State.reset.run = .inReset ∧ State.reset.boot.porLow = false) ∧
    ({ State.reset with boot := { porLow := true } }).boot.porLow = true ∧
    (∀ pls ∈ [0, 1], ∀ clean ∈ [true, false], let s := { live with journal := { pls := pls, anchor := { clean := clean } } };
      s.run = .running ∧ s.fh.latch = false ∧ s.boot.porLow = false ∧
        ((s.journal.pls = 1 ∧ s.journal.anchor.clean = false) ∨ s.journal.pls ≠ 1 ∨ s.journal.anchor.clean = true)) ∧
    (∀ after ∈ [true, false], let s := { live with run := .flushing, journal := { pls := 2, porAfter := after } };
      s.run = .flushing ∧ s.journal.pls = 2 ∧ s.fh.latch = false ∧ s.journal.porAfter = after) ∧
    (∀ r ∈ [RunState.idle, .porHeld, .pfWait], ({ live with run := r }).run = r) := by decide

theorem wit_ShutdownResetAndPowerStates :
    (hfeRuns live .A = true ∧ live.portA.ccEn = true ∧ live.own.owner = .A ∧ live.own.owner ≠ .B ∧ hfeRuns live .B = true) ∧
    (let s := live.onPort .A fun p => { p with shst := 1 };
      Running s ∧ (s.port s.own.owner).shst = 1 ∧ allSealed s = true ∧
        allSealed (s.onPath fun p => { p with nextSeq := 2, unsealed := [{ seq := 1, port := .A }] }) = false) ∧
    (live.run = .running ∧ live.journal.pls ≠ 2 ∧ live.fh.latch = false ∧ live.boot.stage = 8) ∧
    (let s := { live with run := .subsystemReset }; s.run = .subsystemReset ∧ s.boot.stage = 8 ∧ allSealed s = true) ∧
    (let s := live.onPort .A fun p => { p with features := [(0x0C, 1)] };
      tget 0 (s.port .A).features 0x0C % 2 = 1 ∧ (s.port .A).cmds = [] ∧ adminLive s .A = true) ∧
    (∀ n ∈ [3, 4], let s := live.onMisc fun m => { m with psEntering := some n };
      s.misc.psEntering = some n ∧ (∀ e ∈ s.media.dies, e.2.busy = none ∧ e.2.susp = none) ∧ allSealed s = true) ∧
    (live.onMisc fun m => { m with psExiting := some 0 }).misc.psExiting = some 0 := by decide

theorem wit_LinksAndControllersAnswer :
    (hfeRuns live .A = true ∧ linkIsDown live.portA = false ∧ linkUp live.portA = true) ∧
    (live.onPort .A fun p => { p with perst := true }).portA.perst = true ∧
    (live.portA.perst = false ∧ live.portA.refclk = true ∧ trains live 6 2 true = true ∧ trains live 6 2 false = false ∧ trains live 1 4 true = false) ∧
    (let s := live.onPort .A fun p => { p with ccEn := false }; hfeRuns s .A = true ∧ s.portA.ccEn = false ∧ s.portA.resetHeld = false) ∧
    configIdentity live = none ∧
    (let s := live.onBoot fun b => { b with cfgIdentity := some {} }; configIdentity s = some {} ∧ hfeRuns s .A = true) ∧
    sizeOk 128 1024 1024 = true ∧ sizeOk 128 4096 4096 = true := by decide

theorem wit_JournalAndRecoveryWork_segments :
    (let s := journalling 0; let b := { slc0 with use := .journal };
      segmentDue s = true ∧ journalSb s = some b ∧ b.nextSlot + 516 ≤ stripesIn s 0 * 4 ∧ s.upkeep.segAgain = []) ∧
    (let s := (journalling 0).onUpkeep fun u => { u with segAgain := [3, 5] }; segmentDue s = true ∧ s.upkeep.segAgain = 3 :: [5]) ∧
    segmentDue live = false ∧ journalSb live = none ∧
    (let b := { slc0 with use := .journal, nextSlot := 100000 };
      let s := { journalling 0 with media := { sbs := [b] } }; journalSb s = some b ∧ stripesIn s 0 * 4 < b.nextSlot + 516) ∧
    (let s := live.onJournal fun j => { j with setB := { st := .erased, flush := some flush0 } };
      s.journal.setB.flush = some flush0 ∧ s.journal.setB.st ≠ .inUse) ∧
    (let s := { live with run := .running }; s.run ≠ .recovery ∧ s.boot.stage ≠ 7) := by decide

theorem wit_PowerFailsAndReturns_flush :
    (∀ after ∈ [true, false], ∀ r ∈ [RunState.flushing, .safe],
      let s := { live with run := r, journal := { pls := 2, porAfter := after } };
      s.journal.pls = 2 ∧ (endFlush s).journal.porAfter = after ∧ (endFlush s).run = r ∧ (endFlush s).fh.latch = false) ∧
    live.journal.pls ≠ 2 ∧ live.run ≠ .idle ∧ live.run ≠ .pfWait ∧ live.run ≠ .porHeld ∧ live.run ≠ .inReset ∧
    (let s := { safe with journal := { pls := 2 } }; s.boot.porLow = false ∧ s.run ≠ .inReset ∧ s.run ≠ .porHeld ∧ s.journal.pls = 2) ∧
    (safe.journal.pls ≠ 2 ∧ safe.fh.latch = true ∧ safe.boot.porLow = false) := by
  refine ⟨?_, by decide⟩
  intro a ha r hr
  fin_cases ha <;> fin_cases hr <;> exact ⟨rfl, rfl, rfl, rfl⟩

theorem wit_ShutdownResetAndPowerStates_more :
    (hfeRuns safe .B = true ∧ safe.portB.ccEn = true ∧ safe.fh.latch = true) ∧ hfeRuns State.reset .A = false ∧
    (let s := { live with run := .subsystemReset, boot := { live.boot with stage := 7 } }; s.run = .subsystemReset ∧ s.boot.stage ≠ 8) ∧
    (let s := { live with run := .subsystemReset, path := { nextSeq := 2, unsealed := [{ seq := 1, port := .A }] } }; allSealed s = false) ∧
    (let s := { withDie { busy := some eraseOp } with misc := { psEntering := some 3 } };
      s.misc.psEntering = some 3 ∧ ¬∀ e ∈ s.media.dies, e.2.busy = none ∧ e.2.susp = none) ∧
    live.misc.psEntering = none ∧ live.misc.psExiting = none ∧ tget 0 live.portA.features 0x0C % 2 ≠ 1 := by decide

/-- After a fatal boot without an image's identity the host still sees one (R572); before step 3 it sees none (R561). -/
theorem test_fatal_boot_identity :
    configIdentity (live.onBoot fun b => { b with fatal := 2 }) ≠ none ∧ configIdentity live = none := by
  constructor
  · simp [configIdentity, live, State.onBoot]
  · decide

theorem wit_LinksAndControllersAnswer_more :
    (1000 ≤ 1000 ∧ 100 ≤ 100 ∧ 100 < 101 ∧ 999 < 1000) ∧ hfePowered live .A = true ∧ hfePowered State.reset .A = false ∧
    hfeRuns State.reset .A = false ∧ linkUp State.reset.portA = false ∧
    (let s := { live with boot := { live.boot with cfgIdentity := some {} }, portA := { readyPort with inL2 := true, ltssm := .l2 } };
      configIdentity s = some {} ∧ hfeRuns s .A = true ∧ (s.port .A).inL2 = true ∧ linkUp (s.port .A) = false) ∧
    (let s := live.onPort .A fun p => { p with ccEn := false, resetHeld := true }; s.portA.resetHeld = true) ∧
    sizeOk 128 1024 2048 = false ∧ (live.onPort .A fun p => { p with refclk := false }).portA.refclk = false ∧
    (let s := live.onPort .A fun p => { p with perst := true }; s.portA.perst ≠ false) := by decide

theorem wit_HousekeepingRuns :
    (∀ running ∈ [false, true], ∀ late ∈ [false, true],
      let s := { live with hk := { roundAt := some 0, inRound := running, late := late }, image := { policy := { bare with hkRoundMs := 1 } }, now := 1000 };
      s.hk.roundAt = some 0 ∧ hkRuns s = true ∧ elapsed s 0 (roundUs s) = true ∧ s.hk.inRound = running ∧ s.hk.late = late) ∧
    (∀ now ∈ [59999999, 60000000], let s := { live with hk := { inputs := [{ held := true, heldAt := some 0 }] }, now := now };
      (nth ({} : TempIn) s.hk.inputs 0).heldAt = some 0 ∧ (0 + 60000000 ≤ s.now ∨ s.now < 0 + 60000000)) ∧
    (∀ now ∈ [999, 1000], let s := { live with hk := { anyRound := true }, image := { policy := { bare with throttleStepMs := 1 } }, now := now };
      hkRuns s = true ∧ s.hk.anyRound = true ∧ (elapsed s s.hk.lastStep (1000 * s.policy.throttleStepMs) = true ∨
        elapsed s s.hk.lastStep (1000 * s.policy.throttleStepMs) = false)) ∧
    (let s := { live with hk := { halt := true, haltEntry := true } };
      s.hk.halt = true ∧ s.hk.haltEntry = true ∧ ∀ e ∈ s.media.dies, e.2.busy = none ∧ e.2.susp = none) ∧
    (let s := { withDie { busy := some eraseOp } with hk := { halt := true, haltEntry := true } };
      ∃ e ∈ s.media.dies, e.2.busy.isSome = true ∨ e.2.susp.isSome = true) ∧
    (live.hk.vioOut ≠ 2 ∧ live.hk.vioOut ≠ 1 ∧ live.hk.vauxOut ≠ 2 ∧ (live.onHk fun h => { h with vioOut := 2 }).hk.vioOut = 2) := by decide

theorem wit_SourcesFire :
    (let fs : List Firing := [{ source := 3, detail := 0, injected := true }];
      let s := live.onFh fun h => { h with injSource := 3, injArmed := true };
      (∃ f ∈ fs, f.injected = true ∧ f.source = s.fh.injSource) ∧ (∀ f ∈ fs, f.injected = true → f.source ≠ live.fh.injSource)) ∧
    (∀ now ∈ [1, 2], let s := { withDie { busy := some eraseOp } with now := now };
      let s := { s with image := { timing := { tErase := 1 } } };
      (getDie s 0).busy = some eraseOp ∧ (elapsed s (getDie s 0).runFrom (2 * opMaxUs s 0 eraseOp.kind) = true ∨
        elapsed s (getDie s 0).runFrom (2 * opMaxUs s 0 eraseOp.kind) = false)) ∧
    (∀ tr ∈ [1, 2], let s := { live with media := { chans := [(0, { st := .reset, resetAt := some 0 })] }, now := 3 };
      let s := { s with image := { timing := { tRst := tr } } };
      (getDie s 0).busy = none ∧ (getChan s 0).st = .reset ∧ (getChan s 0).resetAt = some 0 ∧ elapsed s 0 (2 * s.image.timing.tRst) = decide (tr = 1)) ∧
    (∀ now ∈ [1, 2], let s := { live with media := { clusters := [(0, { st := .active, hardDec := [⟨4, 0⟩] })] }, now := now };
      (getCluster s 0).st ≠ .reset ∧ (getCluster s 0).softDec = [] ∧
        ∀ d ∈ (getCluster s 0).hardDec, decide (2 * decodeMaxNs s 0 false ≤ 1000 * (s.now - d.since)) = decide (now = 2)) ∧
    (let s := { live with media := { clusters := [(0, { st := .active, softDec := [⟨4, 0⟩] })] }, now := 1 };
      (getCluster s 0).st ≠ .reset ∧ ∃ d ∈ (getCluster s 0).softDec, 2 * decodeMaxNs s 0 true ≤ 1000 * (s.now - d.since)) ∧
    findCmd live .A 1 9 = none ∧ State.reset.run = .inReset ∧
    (∀ prot ∈ [true, false], let c := { out (.write 0 16 false none) .running with prot := prot }; findCmd (withCmd c) .A 1 9 = some c) ∧
    (let c := out (.read 0 16) .running; findCmd (withCmd c) .A 1 9 = some c ∧ isWriteOp c.entry.op = false) ∧
    (live.run ≠ .inReset ∧ live.run ≠ .porHeld ∧ live.fh.latch = false ∧ safe.fh.latch = true ∧ safe.run ≠ .inReset) := by decide

theorem wit_ReactionsEnd :
    (∀ now ∈ [516, 517, 518], let s := { withDie {} with
        media := { dies := [(0, {})], chans := [(0, { st := .reset, resetAt := some 0, resetStarts := [0] })] }
        image := { board := { chanMask := 1 }, geo := { targets := 1, diesPerTarget := 1 }, policy := { bare with csResetLimit := 2 } }, now := now };
      (getChan s 0).st = .reset ∧ (getChan s 0).resetAt = some 0 ∧ (getChan s 0).failAtEnd = false ∧ (getChan s 0).cut = [] ∧
        (getChan s 0).pendingSecond = 0 ∧ (recent s 60000000 (getChan s 0).resetStarts).length < s.policy.csResetLimit ∧
        (∃ d ∈ diesOf s 0, (getDie s d).isFailed = false) ∧
        (elapsed s 0 (2 * s.image.timing.tRst + 517) = true ∨ elapsed s 0 (2 * s.image.timing.tRst + 517) = false)) ∧
    (let s := { live with media := { clusters := [(0, { st := .reset })] } }; (getCluster s 0).st = .reset ∧ (getCluster s 1).st ≠ .reset) ∧
    (∀ a ∈ [true, false], ∀ b ∈ [true, false],
      let s := { live with fh := { unitReset := some ⟨[300], [.A, .B]⟩ }, portA := { readyPort with resetHeld := a }, portB := { readyPort with resetHeld := b } };
      s.fh.unitReset = some ⟨[300], [.A, .B]⟩ ∧ (∀ n ∈ [300], n < 128 ∨ 248 ≤ n) ∧ s.portA.resetHeld = a ∧ s.portB.resetHeld = b) ∧
    (let s := { live with fh := { counted := [(7, 1)], recordedAt := [(7, 1)] }, now := 0 };
      0 < tget 0 s.fh.counted 7 ∧ elapsed s (tget 0 s.fh.recordedAt 7 - 1) (1000 * s.policy.fhLogInterval) = true ∧ tget 0 s.fh.counted 8 = 0) ∧
    (live.fh.aliveDriving = false ∧ (live.onFh fun h => { h with aliveDriving := true }).fh.aliveDriving = true) := by decide

theorem wit_ReactionsEnd_channels :
    (∀ c ∈ [({ st := .reset, resetAt := some 0, failAtEnd := true } : Channel), { st := .reset, resetAt := some 0, resetStarts := [0], pendingSecond := 1 }],
      let s := { withDie {} with
        media := { dies := [(0, {})], chans := [(0, c)] }
        image := { board := { chanMask := 1 }, geo := { targets := 1, diesPerTarget := 1 }, policy := { bare with csResetLimit := 2 } } };
      (getChan s 0).st = .reset ∧ (getChan s 0).resetAt = some 0 ∧
        ((getChan s 0).failAtEnd = true ∨
          s.policy.csResetLimit ≤ (recent s 60000000 ((getChan s 0).resetStarts ++ List.replicate (getChan s 0).pendingSecond s.now)).length)) ∧
    (let s := { live with
        media := { chans := [(0, { st := .reset, resetAt := some 0, resetStarts := [0] })] }
        image := { board := { chanMask := 1 }, geo := { targets := 1, diesPerTarget := 2 }, policy := { bare with csResetLimit := 2 } } };
      (getChan s 0).failAtEnd = false ∧ (diesOf s 0).filter (fun d => decide (d ∈ [1]) || decide (d % 32 / 8 ∈ ([] : List Nat))) = [1] ∧
        ∃ d ∈ diesOf s 0, d ∉ [1] ∧ (getDie s d).isFailed = false) ∧
    ((getChan live 0).st ≠ .reset ∧ live.fh.unitReset = none) := by decide

theorem wit_ReactionsEnd_held : let s := { live with portA := { readyPort with resetHeld := true }, portB := { readyPort with resetHeld := true } };
    (resetPortNow (s.onFh fun h => { h with unitReset := none }) .A).portB.resetHeld = true := rfl

theorem wit_MoversRunChains :
    (∀ st ∈ [MvState.idle, .fetch, .disabled, .move, .resp],
      (getMover (withMover { st := st }) (8 * 1 + 1)).st = st ∧ timerStands (withMover { st := st }) (getMover (withMover { st := st }) 9) = false) ∧
    (descInvalid (withMover { st := .fetch }) 9 { desc0 0 with length := 0 } = true ∧ descInvalid (withMover { st := .fetch }) 9 (desc0 0) = false) ∧
    (∀ cr ∈ [0, 1], let s := withMover { st := .wait, desc := some (desc0 0x0C000100), credits := cr };
      (getMover s 9).desc = some (desc0 0x0C000100) ∧ (getMover s 9).st = .wait ∧ (getMover s 9).paced = false ∧
        paceMet s (getMover s 9) (desc0 0x0C000100) = decide (cr = 1)) ∧
    (let s := withMover { st := .wait, desc := some (desc0 0x04000000), remain := 64 };
      (getMover s 9).desc = some (desc0 0x04000000) ∧ (getMover s 9).st = .wait ∧ ctlPace (desc0 0x04000000) = 1 ∧ 0 < (getMover s 9).remain) ∧
    (let s := withMover { st := .move, desc := some (desc0 0), remain := 64 };
      let w : MoverReady := { chan := 1, portRequest := false, poisoned := false };
      minBy (fun r => (r.chan + 8 - (getMoverBlock s 1).pointer) % 8) ([w].filter (requests s 1)) = some w ∧
        (∀ r ∈ ([] : List MoverReady), requests s 1 r = false)) ∧
    (∀ ctl ∈ [0, 0x80000000], ∀ hops ∈ [0, 1], let s := withMover { st := .move, desc := some (desc0 ctl), hops := hops };
      (getMover s 9).desc = some (desc0 ctl) ∧ (getMover s 9).st = .move ∧ (getMover s 9).remain = 0 ∧ ctlWresp (desc0 ctl) = false ∧
        ctlNotify (desc0 ctl) = false ∧ ctlLast (desc0 ctl) = decide (ctl ≠ 0) ∧
        ((getMover s 9).hops + 1 < s.policy.dmHopLimit ∨ s.policy.dmHopLimit ≤ (getMover s 9).hops + 1)) := by decide

theorem wit_DramControllersRun :
    (∀ r ∈ [DramReq.read 0, .write 0 []],
      let s := withDc { st := .active };
      dcOn s 0 = true ∧ (getDc s 0).st = .active ∧
        (getDc (modDc s 0 fun d => { d with queue := (d.queue ++ [r]).take 64 }) 0).queue = r :: []) ∧
    (let s := withDc { st := .active };
      (getDc s 0).scrubPos + 1 < chanBursts s ∧ burstSeen (tget {} (getDc s 0).mem (getDc s 0).scrubPos) {} = .clean) ∧
    (let s := { withDc { st := .active } with hk := { want3200 := true } };
      dcOn s 0 = true ∧ (∀ n, n ≠ 0 → n < 4 → dcOn s n = false) ∧ (getDc s 0).point3200 ≠ wantedPoint s ∧ (getDc s 0).unusable3200 = false) := by
  refine ⟨by decide, ⟨by decide, by decide⟩, by decide, fun n h _ => ?_, by decide, by decide⟩
  simp [dcOn, withDc]; omega

theorem wit_SidebandAnswers :
    (sidebandUp live = true ∧ live.fh.latch = false ∧ PortId.A ∈ ports live ∧ live.boot.strapSb = false ∧ live.boot.romServes = false ∧
      0 + 0 ≤ live.image.ident.vpdLength) ∧
    (sidebandUp safe = true ∧ safe.fh.latch = true) ∧ (∃ bs, identifyAnswer live .A 2 0 = .inl bs) ∧
    (∃ bs, miStructure live 0 0 0 = some bs) := ⟨by decide, by decide, ⟨_, rfl⟩, _, rfl⟩

theorem wit_WindowAccesses :
    (mayWrite unlocked .A = true ∧ mayWrite live .A = false ∧ mayWrite unlocked .B = false) ∧
    (∀ a hi, (live.port .A).latch = some (a, hi) → a + 4 ≠ 0) ∧
    (let s := live.onPort .A fun p => { p with latch := some (0x10008, 5) };
      (s.port .A).latch = some (0x10008, 5) ∧ isLow64 (0x10008 + 4) = false ∧ 0x10008 % 4 = 0) ∧
    (isLow64 0x10008 = true ∧ isHigh64 0x1000C = true ∧ isLow64 0x8FFFC = false ∧ isHigh64 0x8FFFC = false) ∧
    (let s := unlocked.onPort .A fun p => { p with wbuf := some (0x10008, 1) };
      (s.port .A).wbuf = some (0x1000C - 4, 1) ∧ mayWrite s .A = true) ∧
    (∀ w, (unlocked.port .A).wbuf ≠ some (0x1000C - 4, w)) ∧
    (let s := unlocked.onFh fun h => { h with legArm := 0xC3A5, legArmAt := some 0 };
      s.fh.legArm = 0x0000C3A5 ∧ mayWrite s .A = true ∧ s.fh.legArmAt = some 0 ∧ s.now < 0 + 1000000) ∧
    (unlocked.fh.legArm ≠ 0x0000C3A5 ∧ (0x80000001 : BitVec 32).getLsbD 31 = true) :=
  ⟨by decide, fun _ _ h => (by cases h), by decide, by decide, by decide, fun _ h => (by cases h), by decide, by decide⟩

theorem wit_RegistersResetAsTabled : 0x8FFFC % 4 = 0 ∧ 0x8FFFC < 0x90000 := by decide

theorem wit_OtpBitsNeverReturn : memWf 0 provision.sec.otp = true ∧ (memGet 0 provision.sec.otp 160).getLsbD 0 = true ∧
    ∃ t, step provision = .next t := ⟨by decide, by decide, _, rfl⟩

theorem wit_UnlockStaysWithOwner : unlockOwned unlocked = true ∧ ∃ t, step unlocked = .next t := ⟨by decide, _, rfl⟩

theorem wit_StepsTakeOneCommandAndNumbersRise : memWf 0xFF State.reset.spi = true := by decide

theorem wit_HousekeepingRuns_more : live.hk.roundAt = none ∧ (live.onHk fun h => { h with inRound := true }).hk.inRound = true ∧
    hkRuns (live.onHk fun h => { h with inRound := true }) = true ∧ hkRuns State.reset = false ∧
    (let s := { live with hk := { roundAt := some 0 }, image := { policy := { bare with hkRoundMs := 1 } }, now := 999 }; elapsed s 0 (roundUs s) = false) ∧
    live.hk.inputs.all (fun x => x.heldAt.isNone) = true := by decide

theorem wit_MoversRunChains_more :
    (∀ st ∈ [MvState.fetch, .move, .resp], ∀ now ∈ [9, 10],
      let s := { withMover { st := st } with now := now, image := { policy := { bare with dmBusTimeout := 10 } } };
      (getMover s 9).st = st ∧ timerStands s (getMover s 9) = false ∧ elapsed s (getMover s 9).issuedAt s.policy.dmBusTimeout = decide (now = 10)) ∧
    (let s := { withMover { st := .fetch } with image := { board := { dramChannels := 1 } }, dcs := [(0, { st := .selfRefresh })] }; timerStands s (getMover s 9) = true) ∧
    (getMover (withMover {}) 9).desc = none ∧ (getMover (withMover { st := .idle }) 9).st ≠ .fetch ∧
    (let s := withMover { st := .move, desc := some (desc0 0), remain := 64 };
      (getMover s 9).desc = some (desc0 0) ∧ (getMover s 9).remain ≠ 0 ∧ ctlPace (desc0 0) ≠ 1) ∧
    (let s := withMover { st := .resp, desc := some (desc0 0x40000000), owed := 1 };
      (getMover s 9).remain = 0 ∧ (ctlWresp (desc0 0x40000000) = true ∨ ctlWresp (desc0 0x40000000) = false)) := by decide

theorem wit_DramControllersRun_more :
    (getDc (withDc { st := .selfRefresh }) 0).st ≠ .active ∧ (getDc (withDc { st := .active }) 0).queue = [] ∧
    (let s := withDc { st := .replay }; (getDc s 0).st = .replay ∧ (getDc s 0).alerting = false) ∧
    refreshDue live (getDc (withDc { st := .active }) 0) = true ∧
    (let d : Dc := { st := .active, refreshAt := some 0 };
      let s := { withDc d with image := { board := { dramChannels := 1 }, dram := { tRefw := 10, set6400 := List.replicate 16 1600 } } };
      refreshDue s (getDc s 0) = false ∧ rhWindowOver s (getDc s 0) = false ∧ rhWindowOver { s with now := 10000 } (getDc s 0) = true) ∧
    (let s := withDc { st := .active, mem := [(0, { flaw := 1 })] };
      (getDc s 0).st = .active ∧ burstSeen (tget {} (getDc s 0).mem (getDc s 0).scrubPos) {} = .corrected 1 ∧
        burstSeen { flaw := 2 } {} = .uncorrectable) ∧
    (∀ n ∈ [0, 1], let s := { withDc { st := .active, ceTimes := List.replicate n 0 } with image := { policy := { bare with dramCeThresh := 1 } } };
      s.policy.dramCeThresh ≤ ((getDc s 0).ceTimes.filter fun t => decide (s.now < t + 1000000)).length ∨
        ((getDc s 0).ceTimes.filter fun t => decide (s.now < t + 1000000)).length < s.policy.dramCeThresh) ∧
    (∀ al ∈ [true, false], ∀ run ∈ [1, 2], let s := withDc { st := .replay, alerting := al, run := run };
      (getDc s 0).st = .replay ∧ (getDc s 0).alerting = al ∧ ((getDc s 0).run < 2 ∨ 2 ≤ (getDc s 0).run)) ∧
    ((getDc (withDc { st := .training }) 0).st ≠ .active ∧ (getDc (withDc { st := .training }) 0).st ≠ .replay) ∧
    (let s := { withDc { st := .active } with hk := { want3200 := true } };
      let on := (List.range 4).filter fun n => dcOn s n && decide ((getDc s n).st = .active);
      on = [0] ∧ (on.filter fun n => decide (n ∈ [0]) && wantedPoint s && !(getDc s n).trained3200) = [0] ∧
        (on.filter fun n => decide (n ∈ []) && wantedPoint s && !(getDc s n).trained3200) = []) ∧
    (∀ n ∈ [0], (getDc (withDc { st := .active }) n).point3200 = wantedPoint (withDc { st := .active })) := by decide

theorem wit_SidebandAnswers_more : (live.boot.strapPort = true ∧ PortId.B ∈ ports live ∧ PortId.B ∉ ports { live with boot := { live.boot with strapPort := false } }) ∧
    (1 ≤ 3 ∧ 64 ≤ 64 ∧ 65535 < 65536) ∧ ({ live with boot := { live.boot with strapSb := true } }).boot.strapSb = true ∧
    ({ live with boot := { live.boot with romServes := true } }).boot.romServes = true ∧ sidebandUp State.reset = false ∧
    featureDw0 live .A 0x7F = none ∧ featureDw0 live .A 0x02 = some 0 ∧ live.image.ident.vpdLength < 0 + 65535 := by decide

theorem wit_SidebandAnswers_pages : (∃ st, identifyAnswer live .A 0 0 = .inr st) ∧ (∃ st, miLogPage live .A 0xFF ⟨0, 0, false⟩ = .inr st) ∧
    (∃ bs, miLogPage live .A 0xC2 ⟨0, 4, false⟩ = .inl bs) ∧ miStructure live 0xFF 0 0 = none := ⟨⟨_, rfl⟩, ⟨_, rfl⟩, ⟨_, rfl⟩, rfl⟩

theorem wit_WindowAccesses_more : (live.port .A).refclk = true ∧ (unlocked.port .A).refclk = true ∧ ¬(8 = 4 ∧ 0x20 % 4 = 0) ∧ ¬(4 = 4 ∧ 0x22 % 4 = 0) ∧
    (0x8FFFC ≠ 0x100D0 ∧ 0x8FFFC ≠ 0x18000 ∧ 0x18038 ≤ 0x8FFFC) ∧
    (let s := (live.onPort .A fun p => { p with refclk := false }); (s.port .A).refclk = false) ∧
    (∃ u, exec (.fhLegArmWrite .A 5) unlocked = .next u) ∧ (9 < 10 ∧ 0x18034 = 0x18010 + 4 * 9) ∧
    (let s := { live with fh := { legArmAt := some 0 }, now := 1000000 }; s.fh.legArmAt = some 0 ∧ 0 + 1000000 ≤ s.now) :=
  ⟨rfl, rfl, by decide, by decide, by decide, rfl, ⟨_, rfl⟩, by decide, by decide⟩

/-! ### Results worked out by hand from the spec -/

/-- The worked example after R175. -/
theorem test_map_example : 1234567890 / slotsS largest = 2354 ∧ 1234567890 % slotsS largest = 393938 ∧
    393938 / iusPerStripe largest = 98484 ∧ 393938 % iusPerStripe largest * elemsPerIu largest = 8 ∧ 98484 % diesPerChan largest = 20 ∧
    98484 / diesPerChan largest = 3077 ∧ positions largest 2 = 4096 := by decide

/-- The worked example after R237: plane 3, wordline 1, page 1. -/
theorem test_position_example : positionParts largest 2 3077 = (3, 1, 1) := by decide

/-- The worked example after R275: 3 steps. -/
theorem test_offset_example : senseOffset { refs := [{ tc := -2 }], rltZone := [1], vrefMin := -100, vrefMax := 100 }
    { off := [-3], progTemp := some 70 } (some 30) 0 0 = 3 := by decide

set_option maxRecDepth 10000 in
/-- CRC-32C of the ASCII digits 1 to 9, the check value of the standard. -/
theorem test_crc32c : crc32c [0x31, 0x32, 0x33, 0x34, 0x35, 0x36, 0x37, 0x38, 0x39] = 0xE3069283 := by decide

/-- R74, R643: Keep Alive completes with success, Do Not Retry 0 and DW0 0. -/
theorem test_keepAlive : (after (.keepAlive aA) live).portA.cqes = [⟨0, 5, .success, false, 0, 0⟩] := by decide

/-- R525, R643: in SAFE it completes with Command Sequence Error and Do Not Retry 1. -/
theorem test_keepAlive_safe : (after (.keepAlive aA) safe).portA.cqes = [⟨0, 5, .commandSequenceError, true, 0, 0⟩] := by decide

/-- R112: a Claim without Force from the observer in HELD is refused with FFFFFFFFh. -/
theorem test_claim_refused : (after (.ownershipClaim aB 0 false 0 false none) live).portB.cqes =
    [⟨0, 5, .takeoverRefused, false, 0xFFFFFFFF, 0⟩] := by decide

/-- R106, R616: a Release moves HELD to RELEASED. -/
theorem test_release : (after (.ownershipRelease aA 0 false none) live).own.phase = .released := by decide

/-- R117, R114: the claimant of a handover becomes the owner under the next generation. -/
theorem test_handover : (after .handoverDrainEnd handing).own.owner = .B ∧ (after .handoverDrainEnd handing).own.generation = 1 := by decide

/-- R75, R394: the first command that changes the map receives number 1, once the ceiling is raised to 2^20. -/
theorem test_first_seq : (after .seqReserve live).path.ceiling = 1048576 ∧
    (after .mapAccept ((withCmd (out (.deallocate [(0, 1)]) .admitted)).onPath fun p => { p with ceiling := 1048576 })).path.nextSeq = 2 := by
  decide

/-- R99: a Write from the observer completes with Namespace Is Write Protected, Do Not Retry 0. -/
theorem test_write_observer : ((after (.write .A 1 9)
    ((withCmd (out (.write 0 16 false none) .fetched)).onOwn fun o => { o with owner := .B })).portA.cqes.map fun c => (c.status, c.dnr)) =
    [(.nsWriteProtected, false)] := by decide

/-- R67: nsze 1,024; LBA 1,024 is beyond the end. -/
theorem test_range : rangeCheck (withCmd (out (.read 1023 2) .accepted)) (out (.read 1023 2) .accepted).entry = .inr .lbaOutOfRange := rfl

/-- R71: a tail doorbell beyond the queue fires QUEUE_ERR of front end A, source 252 (248 + 4, R497). -/
theorem test_doorbell_beyond : (after (.submissionDoorbell .A 2 1 []) live).fh.status = [252] := by decide

/-- R15: a read that is not 32 bits wide returns FFFFFFFFh; R51: ID_PART reads 46000000h. -/
theorem test_window_reads : (after (.windowReadLowWord .A 0x20 8) live).portA.windowData = 0xFFFFFFFF ∧
    regRead State.reset 0x20 = 0x46000000 := by decide

/-- R518: without an unlock FH_INJECT ignores the write. -/
theorem test_inject_locked : (after (.fhInjectArm .A 0x80000001) live).fh = live.fh := by decide

/-- R640: an unlock ends 3,600 s after it took effect. -/
theorem test_unlock_ends : (after .unlockExpiry { unlocked with now := 3600000000 }).sec.unlock = none ∧
    (after .unlockExpiry { unlocked with now := 3599999999 }).sec.unlock = some ⟨.A, 1, 0⟩ := by decide

/-- R620, R625: programming bit 1 of the lifecycle copies takes PROVISION (01h) to DEPLOYED (03h). -/
theorem test_lifecycle : (after (.jtagAccess (.programLifecycle 2)) provision).sec.lifecycle = 3 := by decide

/-- R523, R531: a fault of the hub's own sets the latch and captures source 1FFh. -/
theorem test_hub_self : (after (.hubSelfFault .logic) live).fh.latch = true ∧
    (after (.hubSelfFault .logic) live).fh.safe.source = 0x1FF := by decide

/-- R427: ALERT_n puts the controller into REPLAY. -/
theorem test_alert : (getDc (after (.alertNAssert 0) (withDc { st := .active })) 0).st = .replay := by decide

/-- R456: a chain is taken by an idle channel, which fetches its head. -/
theorem test_chain : (getMover (after (.chainStart 1 1 64) (withMover { st := .idle })) 9).st = .fetch ∧
    (getMover (after (.chainStart 1 1 64) (withMover { st := .idle })) 9).descAddr = 64 := by decide

/-- R545: a supply that falls leaves the controller in internal reset. -/
theorem test_supply_falls : (after .supplyFall live).run = .inReset := by decide

/-! ### Ill-formed commands -/

theorem test_wf_ports : ∀ i ∈ [Instr.linkUp .A 8 4 false false, .ccEnSet .A 8, .submissionDoorbell .A 65536 0 [], .submissionDoorbell .A 1 65536 [],
    .submissionDoorbell .A 1 1 [⟨65536, 1, .prp, .flush⟩], .submissionDoorbell .A 1 1 [⟨0, 1, .prp, .read 0 0⟩],
    .submissionDoorbell .A 1 1 [⟨0, 1, .prp, .deallocate []⟩], .completionDoorbell .A 65536 0, .completionDoorbell .A 1 65536, .apst .A 32,
    .read .A 65536 0, .write .A 0 65536, .writeZeroes .A 65536 0, .datasetManagementDeallocate .A 65536 0,
    .flush .A 65536 0, .verify .A 65536 0, .seal .A 65536 0, .readWaitEnd .A 65536 0, .cplTimeout .A 0 65536,
    .hostDataCompletion .A 1 1 4096 [] false], i.wf = false := by decide

theorem test_wf_admin : ∀ i ∈ [Instr.createIoSq ⟨.A, 65536, .prp⟩ 1 2 1 0, .createIoSq aA 1 2 1 4, .createIoCq aA 65536 2 0, .deleteIoSq aA 65536,
    .deleteIoCq aA 65536, .identify aA 256 0, .getFeatures aA 256, .setFeatures aA 0 4294967296, .setFeaturesFdp ⟨.A, 65536, .prp⟩ true,
    .setFeaturesPowerManagement aA 32, .setFeaturesVwc ⟨.A, 65536, .prp⟩ true, .setFeaturesHctm aA 65536 0, .setFeaturesAsyncEvent ⟨.A, 65536, .prp⟩ 0,
    .setFeaturesTimestamp aA 281474976710656, .abort aA 65536 0, .asynchronousEventRequest ⟨.A, 65536, .prp⟩, .keepAlive ⟨.A, 65536, .prp⟩,
    .firmwareImageDownload aA 18446744073709551616 [], .firmwareCommit0 aA 8, .firmwareCommit1 aA 8, .firmwareCommit2 aA 8,
    .firmwareCommit3 aA 8, .namespaceCreate aA 1 64 [], .namespaceDelete aA 4294967296, .namespaceAttach aA 1 [65536],
    .namespaceDetach aA 1 [65536], .formatNvm aA 1 8 0, .sanitizeCryptoErase ⟨.A, 65536, .prp⟩, .sanitizeBlockErase ⟨.A, 65536, .prp⟩,
    .deviceSelfTest aA 16, .directiveSend aA 256, .directiveReceive aA 256, .ownershipClaim aA 4294967296 false 0 false none,
    .ownershipClaim aA 0 false 0 false (some (.release 65536 0 false)), .ownershipRelease aA 4294967296 false none,
    .drydownControlStart aA 4294967296 false, .drydownControlStop aA 4294967296 false, .diagnosticUnlockEnd aA 4294967296 false,
    .diagnosticUnlockChallenge aA 0 256 false, .diagnosticUnlockResponse aA 0 [] false], i.wf = false := by decide

theorem test_wf_units : ∀ i ∈ [Instr.flaconCommit 4096, .pack 4096, .flaconRelease 4096, .arrayOperationStart 1024, .senseComplete 1024 [],
    .programPassComplete 1024, .programFailure 1024, .eraseComplete 1024 false, .eraseFailure 1024, .eraseSuspend 1024, .eraseResume 1024,
    .superBlockFormation .slc 256, .fold 4294967296 0, .refugeSetRelease 2, .inputHoldExpiry 20, .busyTimeout 1024, .decTimeout 4,
    .dTimeout 8 0, .coreWdog 8, .channelBlockResetEnd 32 {}, .blockResetBoundExpiry 32, .reactionWindowClose 320, .fhLogIntervalExpiry 320,
    .chainStart 8 0 0, .descriptorFetch 0 8 .failed, .paceTimer 8 0, .peripheralRequest 64, .burstGrant 8 [], .writeResponse 8 0,
    .descriptorComplete 8 0, .dramRequest 4 [] {} false, .dramRequest 0 [.read 1099511627776] {} false, .dramRefresh 4 false,
    .refreshWindowStart 4, .dramPatrolScrub 4 {}, .eccCeRate 4, .alertNAssert 4, .alertNDeassert 4, .trainingStep 4 true,
    .clusterBlockResetEnd 4], i.wf = false := by decide

theorem test_wf_others : ∀ i ∈ [Instr.miReadDataStructure 256 0 0, .miConfigurationGet 256, .miConfigurationSet 256 0, .miVpdRead 0 65536,
    .miTunnelledAdmin .A 256 0 0 ⟨0, 0, false⟩, .windowWrite .A 1048576 4 0, .windowReadLowWord .A 0 64, .windowWriteLowWord .A 1048576 4 0,
    .windowWriteHighWord .A 1048576 4 0, .fhLegForceWrite .A 10 0, .jtagAccess (.programOtp 2048 0),
    .descriptorFetch 4 0 (.desc (2 ^ 56) 0 65537 64 0), .dramPatrolScrub 0 { flips := [(5, 0, 0)] }], i.wf = false := by decide

theorem test_wf_env : ∀ i ∈ [Instr.pwrFailNRelease { env0 with badTargets := [(32, 0)] }, .nssrStagingWritten { env0 with badLuns := [1024] },
    .pfWaitEnd { env0 with untrained := [(0, 4)] }, .porNRelease { env0 with checkerFail := some 320 } [],
    .suppliesValid { env0 with startC4 := some 320 } [], .suppliesValid env0 [(16777216, 0)], .porNRelease env0 [(16777216, 0)],
    .faultSourceFiring [{ source := 320, detail := 0, injected := false }]], i.wf = false := by decide

theorem test_wf_accepts : (Instr.suppliesValid env0 []).wf = true ∧  (Instr.submissionDoorbell .A 1 1 [⟨9, 1, .prp, .write 0 65536 true (some 65535)⟩]).wf = true ∧
    (Instr.windowWrite .A 0xFFFFC 4 1).wf = true ∧ (Instr.descriptorFetch 4 0 (.desc (2 ^ 56) 0 65536 64 0)).wf = true ∧ (Instr.arrayOperationStart 1023).wf = true ∧ (Instr.fhLegForceWrite .B 9 0).wf = true := by
  decide

end Sys2Proof.Tests
end

section
/-! What a whole step leaves true: `Keeps` of every command, and of the step that takes it from the front of the queue. -/
namespace Sys2Proof.Machine

/-- One arm for each command: the law of its meaning. -/
theorem exec_keeps : ∀ (i : Instr) {s t : State}, exec i s = .next t → Keeps s t
  | .suppliesValid .., _, _, e => execSuppliesValid_keeps e
  | .supplyFall, _, _, e => execSupplyFall_keeps e
  | .vauxVio .., _, _, e => execVauxVio_keeps e
  | .porNAssert, _, _, e => execPorNAssert_keeps e
  | .porNRelease .., _, _, e => execPorNRelease_keeps e
  | .pwrFailNAssert, _, _, e => execPwrFailNAssert_keeps e
  | .pwrFailNRelease .., _, _, e => execPwrFailNRelease_keeps e
  | .perstAssert .., _, _, e => execPerstAssert_keeps e
  | .perstDeassert .., _, _, e => execPerstDeassert_keeps e
  | .linkDown .., _, _, e => execLinkDown_keeps e
  | .linkUp .., _, _, e => execLinkUp_keeps e
  | .refclkLoss .., _, _, e => execRefclkLoss_keeps e
  | .hotReset .., _, _, e => execHotReset_keeps e
  | .linkDisable .., _, _, e => execLinkDisable_keeps e
  | .functionLevelReset .., _, _, e => execFunctionLevelReset_keeps e
  | .ccEnSet .., _, _, e => execCcEnSet_keeps e
  | .ccEnClear .., _, _, e => execCcEnClear_keeps e
  | .shutdownNotification .., _, _, e => execShutdownNotification_keeps e
  | .shutdownComplete, _, _, e => execShutdownComplete_keeps e
  | .nvmSubsystemReset .., _, _, e => execNvmSubsystemReset_keeps e
  | .nssrStagingWritten .., _, _, e => execNssrStagingWritten_keeps e
  | .cstsNssroClear .., _, _, e => execCstsNssroClear_keeps e
  | .submissionDoorbell .., _, _, e => execSubmissionDoorbell_keeps e
  | .completionDoorbell .., _, _, e => execCompletionDoorbell_keeps e
  | .commandFetch .., _, _, e => execCommandFetch_keeps e
  | .mapAccept, _, _, e => execMapAccept_keeps e
  | .createIoSq .., _, _, e => execCreateIoSq_keeps e
  | .createIoCq .., _, _, e => execCreateIoCq_keeps e
  | .deleteIoSq .., _, _, e => execDeleteIoSq_keeps e
  | .deleteIoCq .., _, _, e => execDeleteIoCq_keeps e
  | .identify .., _, _, e => execIdentify_keeps e
  | .getFeatures .., _, _, e => execGetFeatures_keeps e
  | .setFeatures .., _, _, e => execSetFeatures_keeps e
  | .setFeaturesFdp .., _, _, e => execSetFeaturesFdp_keeps e
  | .setFeaturesPowerManagement .., _, _, e => execSetFeaturesPowerManagement_keeps e
  | .setFeaturesVwc .., _, _, e => execSetFeaturesVwc_keeps e
  | .setFeaturesHctm .., _, _, e => execSetFeaturesHctm_keeps e
  | .setFeaturesAsyncEvent .., _, _, e => execSetFeaturesAsyncEvent_keeps e
  | .setFeaturesTimestamp .., _, _, e => execSetFeaturesTimestamp_keeps e
  | .getLogPage .., _, _, e => execGetLogPage_keeps e
  | .getLogPageExtendedHealth .., _, _, e => execGetLogPageExtendedHealth_keeps e
  | .getLogPageLostIu .., _, _, e => execGetLogPageLostIu_keeps e
  | .getLogPageSealHorizon .., _, _, e => execGetLogPageSealHorizon_keeps e
  | .getLogPageFaultHistory .., _, _, e => execGetLogPageFaultHistory_keeps e
  | .getLogPageThermalHistory .., _, _, e => execGetLogPageThermalHistory_keeps e
  | .getLogPageDrydownCursor .., _, _, e => execGetLogPageDrydownCursor_keeps e
  | .getLogPageAccordStatus .., _, _, e => execGetLogPageAccordStatus_keeps e
  | .abort .., _, _, e => execAbort_keeps e
  | .asynchronousEventRequest .., _, _, e => execAsynchronousEventRequest_keeps e
  | .keepAlive .., _, _, e => execKeepAlive_keeps e
  | .firmwareImageDownload .., _, _, e => execFirmwareImageDownload_keeps e
  | .firmwareCommit0 .., _, _, e => execFirmwareCommit0_keeps e
  | .firmwareCommit1 .., _, _, e => execFirmwareCommit1_keeps e
  | .firmwareCommit2 .., _, _, e => execFirmwareCommit2_keeps e
  | .firmwareCommit3 .., _, _, e => execFirmwareCommit3_keeps e
  | .commitSpiStepEnd .., _, _, e => execCommitSpiStepEnd_keeps e
  | .activationDrainEnd, _, _, e => execActivationDrainEnd_keeps e
  | .activationTimeout, _, _, e => execActivationTimeout_keeps e
  | .namespaceCreate .., _, _, e => execNamespaceCreate_keeps e
  | .namespaceDelete .., _, _, e => execNamespaceDelete_keeps e
  | .namespaceAttach .., _, _, e => execNamespaceAttach_keeps e
  | .namespaceDetach .., _, _, e => execNamespaceDetach_keeps e
  | .formatNvm .., _, _, e => execFormatNvm_keeps e
  | .sanitizeCryptoErase .., _, _, e => execSanitizeCryptoErase_keeps e
  | .sanitizeBlockErase .., _, _, e => execSanitizeBlockErase_keeps e
  | .sanitizeEraseEnd, _, _, e => execSanitizeEraseEnd_keeps e
  | .deviceSelfTest .., _, _, e => execDeviceSelfTest_keeps e
  | .directiveSend .., _, _, e => execDirectiveSend_keeps e
  | .directiveReceive .., _, _, e => execDirectiveReceive_keeps e
  | .ownershipClaim .., _, _, e => execOwnershipClaim_keeps e
  | .ownershipRelease .., _, _, e => execOwnershipRelease_keeps e
  | .handoverDrainEnd, _, _, e => execHandoverDrainEnd_keeps e
  | .drydownControlStart .., _, _, e => execDrydownControlStart_keeps e
  | .drydownControlStop .., _, _, e => execDrydownControlStop_keeps e
  | .cursorReady, _, _, e => execCursorReady_keeps e
  | .diagnosticUnlockEnd .., _, _, e => execDiagnosticUnlockEnd_keeps e
  | .diagnosticUnlockChallenge .., _, _, e => execDiagnosticUnlockChallenge_keeps e
  | .diagnosticUnlockResponse .., _, _, e => execDiagnosticUnlockResponse_keeps e
  | .read .., _, _, e => execRead_keeps e
  | .write .., _, _, e => execWrite_keeps e
  | .writeZeroes .., _, _, e => execWriteZeroes_keeps e
  | .datasetManagementDeallocate .., _, _, e => execDatasetManagementDeallocate_keeps e
  | .flush .., _, _, e => execFlush_keeps e
  | .verify .., _, _, e => execVerify_keeps e
  | .seal .., _, _, e => execSeal_keeps e
  | .writeAdmission .., _, _, e => execWriteAdmission_keeps e
  | .readWaitEnd .., _, _, e => execReadWaitEnd_keeps e
  | .flaconCommit .., _, _, e => execFlaconCommit_keeps e
  | .pack .., _, _, e => execPack_keeps e
  | .sealPadDelayExpiry, _, _, e => execSealPadDelayExpiry_keeps e
  | .arrayOperationStart .., _, _, e => execArrayOperationStart_keeps e
  | .dieActivityGrant, _, _, e => execDieActivityGrant_keeps e
  | .senseComplete .., _, _, e => execSenseComplete_keeps e
  | .decodeComplete .., _, _, e => execDecodeComplete_keeps e
  | .readRecoverBudgetExpiry .., _, _, e => execReadRecoverBudgetExpiry_keeps e
  | .reconstruction .., _, _, e => execReconstruction_keeps e
  | .prefetch .., _, _, e => execPrefetch_keeps e
  | .programPassComplete .., _, _, e => execProgramPassComplete_keeps e
  | .versionApply .., _, _, e => execVersionApply_keeps e
  | .flaconRelease .., _, _, e => execFlaconRelease_keeps e
  | .programFailure .., _, _, e => execProgramFailure_keeps e
  | .eraseComplete .., _, _, e => execEraseComplete_keeps e
  | .eraseFailure .., _, _, e => execEraseFailure_keeps e
  | .eraseSuspend .., _, _, e => execEraseSuspend_keeps e
  | .eraseResume .., _, _, e => execEraseResume_keeps e
  | .superBlockFormation .., _, _, e => execSuperBlockFormation_keeps e
  | .superBlockRelease .., _, _, e => execSuperBlockRelease_keeps e
  | .ruActiveLimitExpiry .., _, _, e => execRuActiveLimitExpiry_keeps e
  | .idleEntry, _, _, e => execIdleEntry_keeps e
  | .collectionStart, _, _, e => execCollectionStart_keeps e
  | .copy .., _, _, e => execCopy_keeps e
  | .wearMove, _, _, e => execWearMove_keeps e
  | .scrubRead .., _, _, e => execScrubRead_keeps e
  | .scrubSbRefresh .., _, _, e => execScrubSbRefresh_keeps e
  | .scrubPeriodOverrun, _, _, e => execScrubPeriodOverrun_keeps e
  | .fold .., _, _, e => execFold_keeps e
  | .slcFold .., _, _, e => execSlcFold_keeps e
  | .rebuild, _, _, e => execRebuild_keeps e
  | .refugeFlushEnd, _, _, e => execRefugeFlushEnd_keeps e
  | .refugeSetRelease .., _, _, e => execRefugeSetRelease_keeps e
  | .journalFlushExpiry, _, _, e => execJournalFlushExpiry_keeps e
  | .checkpointSegmentStart, _, _, e => execCheckpointSegmentStart_keeps e
  | .seqReserve, _, _, e => execSeqReserve_keeps e
  | .pfWaitEnd .., _, _, e => execPfWaitEnd_keeps e
  | .recovery .., _, _, e => execRecovery_keeps e
  | .recoveryTimeout .., _, _, e => execRecoveryTimeout_keeps e
  | .takeoverHoldExpiry, _, _, e => execTakeoverHoldExpiry_keeps e
  | .forceLockExpiry .., _, _, e => execForceLockExpiry_keeps e
  | .unlockRefusalExpiry .., _, _, e => execUnlockRefusalExpiry_keeps e
  | .unlockExpiry, _, _, e => execUnlockExpiry_keeps e
  | .apst .., _, _, e => execApst_keeps e
  | .powerStateEntryEnd, _, _, e => execPowerStateEntryEnd_keeps e
  | .hkRoundStart, _, _, e => execHkRoundStart_keeps e
  | .hkRoundEnd .., _, _, e => execHkRoundEnd_keeps e
  | .inputHoldExpiry .., _, _, e => execInputHoldExpiry_keeps e
  | .throttleStep, _, _, e => execThrottleStep_keeps e
  | .haltEntryEnd, _, _, e => execHaltEntryEnd_keeps e
  | .aliveEdge .., _, _, e => execAliveEdge_keeps e
  | .faultSourceFiring .., _, _, e => execFaultSourceFiring_keeps e
  | .busyTimeout .., _, _, e => execBusyTimeout_keeps e
  | .decTimeout .., _, _, e => execDecTimeout_keeps e
  | .dTimeout .., _, _, e => execDTimeout_keeps e
  | .coreWdog core, _, _, e => execCoreWdog_keeps (_core := core) e
  | .fabricTimeout, _, _, e => execFabricTimeout_keeps e
  | .cplTimeout .., _, _, e => execCplTimeout_keeps e
  | .hubSelfFault .., _, _, e => execHubSelfFault_keeps e
  | .channelBlockResetEnd .., _, _, e => execChannelBlockResetEnd_keeps e
  | .blockResetBoundExpiry .., _, _, e => execBlockResetBoundExpiry_keeps e
  | .unitResetEnd, _, _, e => execUnitResetEnd_keeps e
  | .reactionWindowClose .., _, _, e => execReactionWindowClose_keeps e
  | .fhLogIntervalExpiry .., _, _, e => execFhLogIntervalExpiry_keeps e
  | .chainStart .., _, _, e => execChainStart_keeps e
  | .descriptorFetch .., _, _, e => execDescriptorFetch_keeps e
  | .paceTimer .., _, _, e => execPaceTimer_keeps e
  | .peripheralRequest .., _, _, e => execPeripheralRequest_keeps e
  | .burstGrant .., _, _, e => execBurstGrant_keeps e
  | .writeResponse .., _, _, e => execWriteResponse_keeps e
  | .descriptorComplete .., _, _, e => execDescriptorComplete_keeps e
  | .dramRequest .., _, _, e => execDramRequest_keeps e
  | .dramRefresh .., _, _, e => execDramRefresh_keeps e
  | .refreshWindowStart .., _, _, e => execRefreshWindowStart_keeps e
  | .dramPatrolScrub .., _, _, e => execDramPatrolScrub_keeps e
  | .eccCeRate .., _, _, e => execEccCeRate_keeps e
  | .alertNAssert .., _, _, e => execAlertNAssert_keeps e
  | .alertNDeassert .., _, _, e => execAlertNDeassert_keeps e
  | .frequencyChange .., _, _, e => execFrequencyChange_keeps e
  | .trainingStep .., _, _, e => execTrainingStep_keeps e
  | .miReadDataStructure .., _, _, e => execMiReadDataStructure_keeps e
  | .miSubsystemHealthPoll, _, _, e => execMiSubsystemHealthPoll_keeps e
  | .miControllerHealthPoll .., _, _, e => execMiControllerHealthPoll_keeps e
  | .miConfigurationGet .., _, _, e => execMiConfigurationGet_keeps e
  | .miConfigurationSet .., _, _, e => execMiConfigurationSet_keeps e
  | .miVpdRead .., _, _, e => execMiVpdRead_keeps e
  | .miReset, _, _, e => execMiReset_keeps e
  | .miTunnelledAdmin .., _, _, e => execMiTunnelledAdmin_keeps e
  | .basicManagementCommand, _, _, e => execBasicManagementCommand_keeps e
  | .windowWrite .., _, _, e => execWindowWrite_keeps e
  | .windowReadLowWord .., _, _, e => execWindowReadLowWord_keeps e
  | .windowWriteLowWord .., _, _, e => execWindowWriteLowWord_keeps e
  | .windowWriteHighWord .., _, _, e => execWindowWriteHighWord_keeps e
  | .fhFirstValidClear .., _, _, e => execFhFirstValidClear_keeps e
  | .fhInjectArm .., _, _, e => execFhInjectArm_keeps e
  | .fhLegArmWrite .., _, _, e => execFhLegArmWrite_keeps e
  | .fhLegArmExpiry, _, _, e => execFhLegArmExpiry_keeps e
  | .fhLegForceWrite .., _, _, e => execFhLegForceWrite_keeps e
  | .refclkReturn .., _, _, e => execRefclkReturn_keeps e
  | .vauxVioWindowReturn .., _, _, e => execVauxVioWindowReturn_keeps e
  | .configurationRequest .., _, _, e => execConfigurationRequest_keeps e
  | .powerStateExitEnd, _, _, e => execPowerStateExitEnd_keeps e
  | .clusterBlockResetEnd .., _, _, e => execClusterBlockResetEnd_keeps e
  | .sanitizeTrimEnd, _, _, e => execSanitizeTrimEnd_keeps e
  | .jtagAccess .., _, _, e => execJtagAccess_keeps e
  | .hostDataCompletion .., _, _, e => execHostDataCompletion_keeps e

/-- The queue is the one part that `Keeps` holds fixed and a step changes, so the law starts from the state whose command is taken. -/
theorem step_keeps {s t : State} (e : step s = .next t) : Keeps { s with pending := s.pending.tail } t := by
  unfold step at e
  cases hp : s.pending with
  | nil =>
    rw [hp] at e
    cases e
    have same : { s with pending := [] } = s := by rw [← hp]
    rw [List.tail_nil, same]
    exact idleTick_keeps s
  | cons c rest =>
    rw [hp] at e
    exact exec_keeps c e

theorem unlockOwned_withPending (s : State) (l : List Instr) : unlockOwned { s with pending := l } = unlockOwned s := rfl

/-- Settles O59: each part of each command keeps the unlock the owner's (`Keeps.unlock`), and taking a command from the queue
touches neither the unlock nor the owner. -/
theorem unlockStaysWithOwner : Obligations.UnlockStaysWithOwner := by
  intro s t owned e
  exact (step_keeps e).unlock ((unlockOwned_withPending s _).trans owned)

end Sys2Proof.Machine
end

section
/-! The diagnostic window (R12 to R20, R30): what each access does, case by case. -/
namespace Sys2Proof.Machine

/-! ### The parts of an access -/

/-- An update of a port is judged by what it does to that port alone. -/
theorem onPort_congr {s : State} {p : PortId} {f g : Port → Port} (h : f (s.port p) = g (s.port p)) : s.onPort p f = s.onPort p g := by
  cases p with
  | A => exact congrArg (fun x => { s with portA := x }) h
  | B => exact congrArg (fun x => { s with portB := x }) h

theorem aligned32_iff (addr width : Nat) : aligned32 addr width = true ↔ width = 4 ∧ addr % 4 = 0 := by simp [aligned32]

theorem aligned32_eq_false_iff (addr width : Nat) : aligned32 addr width = false ↔ ¬(width = 4 ∧ addr % 4 = 0) := by
  rw [← aligned32_iff, Bool.not_eq_true]

theorem mayWrite_iff (p : PortId) (s : State) :
    mayWrite s p = true ↔ ∃ u, s.sec.unlock = some u ∧ u.port = p ∧ u.scope.getLsbD 0 = true := by
  unfold mayWrite
  cases s.sec.unlock with
  | none => simp
  | some u => simp

theorem keptLow_none {x : Port} (h : x.wbuf = none) (addr : Nat) : keptLow x addr = none := by rw [keptLow, h]; rfl

theorem keptLow_some {x : Port} {a : Nat} {w : BitVec 32} (h : x.wbuf = some (a, w)) (addr : Nat) :
    keptLow x addr = if addr = a ∨ addr = a + 4 then some (a, w) else none := by
  simp [keptLow, h, Option.filter]

/-- No word is both halves of a 64-bit register: the low words of two registers are never 4 bytes apart. -/
theorem isLow64_of_isHigh64 {a : Nat} (h : isHigh64 a = true) : isLow64 a = false := by
  simp [isHigh64, isLow64] at h ⊢
  omega

theorem four_le_of_isHigh64 {a : Nat} (h : isHigh64 a = true) : 4 ≤ a := by
  simp only [isHigh64, Bool.and_eq_true, decide_eq_true_eq] at h
  exact h.1

/-- The registers with rows of their own are 32-bit ones. -/
theorem not_word64_of_hub {a : Nat} (h : a = 0x100D0 ∨ 0x18000 ≤ a ∧ a < 0x18038) : isLow64 a = false ∧ isHigh64 a = false := by
  simp [isHigh64, isLow64]
  omega

/-! ### Reads (R15, R16) -/

theorem readWindow_of_refclk {s : State} {p : PortId} (hr : (s.port p).refclk = true) (addr width : Nat) :
    readWindow s p addr width = s.onPort p fun x => { x with
      windowData := windowValue s p addr width
      latch := if aligned32 addr width && isLow64 addr then some (addr, regRead s (addr + 4)) else none
      wbuf := keptLow x addr } := by
  simp [readWindow, hr]

theorem readWindow_without_refclk {s : State} {p : PortId} (hr : (s.port p).refclk = false) (addr width : Nat) :
    readWindow s p addr width = s := by
  simp [readWindow, hr]

theorem windowValue_misaligned {addr width : Nat} (h : aligned32 addr width = false) (s : State) (p : PortId) :
    windowValue s p addr width = 0xFFFFFFFF := by
  simp [windowValue, h]

theorem windowValue_latched {s : State} {p : PortId} {addr width a : Nat} {hi : BitVec 32} (h : aligned32 addr width = true)
    (hl : (s.port p).latch = some (a, hi)) (ha : a + 4 = addr) : windowValue s p addr width = hi := by
  simp [windowValue, h, hl, ha]

theorem windowValue_register {s : State} {p : PortId} {addr width : Nat} (h : aligned32 addr width = true)
    (hl : ∀ a hi, (s.port p).latch = some (a, hi) → a + 4 ≠ addr) : windowValue s p addr width = regRead s addr := by
  unfold windowValue
  rw [h]
  cases e : (s.port p).latch with
  | none => simp
  | some b => simp [hl b.1 b.2 e]

theorem exec_windowReadLowWord {s : State} {p : PortId} {addr width : Nat} {value : BitVec 32} {latched kept : Option (Nat × BitVec 32)}
    (hr : (s.port p).refclk = true) (hv : windowValue s p addr width = value)
    (hl : (if aligned32 addr width && isLow64 addr then some (addr, regRead s (addr + 4)) else none) = latched)
    (hk : keptLow (s.port p) addr = kept) : exec (.windowReadLowWord p addr width) s =
      .next (s.onPort p fun x => { x with windowData := value, latch := latched, wbuf := kept }) := by
  refine congrArg _ ((readWindow_of_refclk hr addr width).trans (onPort_congr ?_))
  rw [hv, hl, hk]

/-! ### Writes (R13, R15, R17) -/

theorem writeAny_without_refclk {s : State} {p : PortId} (hr : (s.port p).refclk = false) (addr width : Nat) (v : BitVec 32) :
    writeAny s p addr width v = s := by
  simp [writeAny, hr]

theorem writeAny_ignored {s : State} {p : PortId} {addr width : Nat} (hr : (s.port p).refclk = true)
    (h : aligned32 addr width = false ∨ mayWrite s p = false) (v : BitVec 32) :
    writeAny s p addr width v = passWindow s p addr := by
  rcases h with h | h <;> simp [writeAny, hr, h]

theorem passWindow_of_kept {s : State} {p : PortId} {addr : Nat} {kept : Option (Nat × BitVec 32)}
    (hk : keptLow (s.port p) addr = kept) : passWindow s p addr = s.onPort p fun x => { x with latch := none, wbuf := kept } :=
  onPort_congr (by rw [hk])

/-- A write that the window takes goes by the kind of word it names. -/
theorem writeAny_taken {s : State} {p : PortId} {addr width : Nat} (hr : (s.port p).refclk = true) (hm : mayWrite s p = true)
    (ha : aligned32 addr width = true) (v : BitVec 32) :
    writeAny s p addr width v =
      if isLow64 addr then bufferLow s p addr v else if isHigh64 addr then applyHigh s p addr v else applyWord s p addr v := by
  simp [writeAny, hr, hm, ha]

theorem writeAny_low {s : State} {p : PortId} {addr width : Nat} (hr : (s.port p).refclk = true) (hm : mayWrite s p = true)
    (ha : aligned32 addr width = true) (hl : isLow64 addr = true) (v : BitVec 32) :
    writeAny s p addr width v = bufferLow s p addr v := by
  rw [writeAny_taken hr hm ha, if_pos hl]

theorem writeAny_high {s : State} {p : PortId} {addr width : Nat} (hr : (s.port p).refclk = true) (hm : mayWrite s p = true)
    (ha : aligned32 addr width = true) (hh : isHigh64 addr = true) (v : BitVec 32) :
    writeAny s p addr width v = applyHigh s p addr v := by
  rw [writeAny_taken hr hm ha, isLow64_of_isHigh64 hh, if_neg Bool.false_ne_true, if_pos hh]

theorem writeAny_word {s : State} {p : PortId} {addr width : Nat} (hr : (s.port p).refclk = true) (hm : mayWrite s p = true)
    (ha : aligned32 addr width = true) (h : isLow64 addr = false ∧ isHigh64 addr = false) (v : BitVec 32) :
    writeAny s p addr width v = applyWord s p addr v := by
  rw [writeAny_taken hr hm ha, h.1, h.2, if_neg Bool.false_ne_true, if_neg Bool.false_ne_true]

/-- The row of a low word's write differs from the row of any write in name only. -/
theorem writeLow_eq_writeAny (s : State) (p : PortId) (addr width : Nat) (v : BitVec 32) :
    writeLow s p addr width v = writeAny s p addr width v := by
  unfold writeLow
  split
  · next h =>
    simp only [Bool.and_eq_true] at h
    obtain ⟨⟨⟨hl, ha⟩, hm⟩, hr⟩ := h
    exact (writeAny_low hr hm ha hl v).symm
  · rfl

/-- So does the row of a high word's write, as no high word is a low word too. -/
theorem writeHigh_eq_writeAny (s : State) (p : PortId) (addr width : Nat) (v : BitVec 32) :
    writeHigh s p addr width v = writeAny s p addr width v := by
  unfold writeHigh
  split
  · next h =>
    simp only [Bool.and_eq_true] at h
    obtain ⟨⟨⟨hh, ha⟩, hm⟩, hr⟩ := h
    exact (writeAny_high hr hm ha hh v).symm
  · rfl

theorem exec_windowWrites {s u : State} {p : PortId} {addr width : Nat} {v : BitVec 32} (h : writeAny s p addr width v = u) :
    exec (.windowWrite p addr width v) s = .next u ∧ exec (.windowWriteLowWord p addr width v) s = .next u ∧
      exec (.windowWriteHighWord p addr width v) s = .next u :=
  ⟨congrArg _ h, congrArg _ ((writeLow_eq_writeAny ..).trans h), congrArg _ ((writeHigh_eq_writeAny ..).trans h)⟩

theorem applyHigh_buffered {s : State} {p : PortId} {addr : Nat} {w : BitVec 32} (h4 : 4 ≤ addr)
    (hb : (s.port p).wbuf = some (addr - 4, w)) (v : BitVec 32) :
    applyHigh s p addr v = regWrite64 (touchWindow s p) (addr - 4) (some w) v := by
  simp [applyHigh, hb, Nat.sub_add_cancel h4]

theorem applyHigh_alone {s : State} {p : PortId} {addr : Nat} (hb : ∀ w, (s.port p).wbuf ≠ some (addr - 4, w)) (v : BitVec 32) :
    applyHigh s p addr v = regWrite64 (touchWindow s p) (addr - 4) none v := by
  unfold applyHigh
  cases e : (s.port p).wbuf with
  | none => rfl
  | some b =>
    have other : b.1 + 4 ≠ addr := fun h => hb b.2 (by rw [e, ← h, Nat.add_sub_cancel])
    simp [other]

theorem applyWord_plain {addr : Nat} (hi : addr ≠ 0x100D0) (ha : addr ≠ 0x18000) (hf : addr < 0x18010 ∨ 0x18038 ≤ addr)
    (s : State) (p : PortId) (v : BitVec 32) : applyWord s p addr v = regWrite (touchWindow s p) addr v := by
  have notForce : ¬(0x18010 ≤ addr ∧ addr < 0x18038) := by omega
  simp only [applyWord, if_neg hi, if_neg ha, if_neg notForce]

theorem applyWord_inject (s : State) (p : PortId) (v : BitVec 32) : applyWord s p 0x100D0 v = writeInject s p v := rfl

theorem applyWord_legArm (s : State) (p : PortId) (v : BitVec 32) : applyWord s p 0x18000 v = writeLegArm s p v := rfl

theorem applyWord_legForce {k : Nat} (hk : k < 10) (s : State) (p : PortId) (v : BitVec 32) :
    applyWord s p (0x18010 + 4 * k) v = forceSources s p k v := by
  have force : 0x18010 ≤ 0x18010 + 4 * k ∧ 0x18010 + 4 * k < 0x18038 := by omega
  have index : (0x18010 + 4 * k - 0x18010) / 4 = k := by omega
  simp only [applyWord, if_neg (show 0x18010 + 4 * k ≠ 0x100D0 by omega), if_neg (show 0x18010 + 4 * k ≠ 0x18000 by omega),
    if_pos force, index]

/-! ### The hub's registers with rows of their own (R506, R518 to R520) -/

section
variable {s : State} {p : PortId}

theorem exec_fhFirstValidClear (hr : (s.port p).refclk = true) : exec (.fhFirstValidClear p) s = .next (clearFirst s p) := by
  simp [exec, execFhFirstValidClear, hr]

theorem exec_fhInjectArm (hr : (s.port p).refclk = true) (v : BitVec 32) :
    exec (.fhInjectArm p v) s = .next (writeInject s p v) := by
  simp [exec, execFhInjectArm, hr]

theorem exec_fhLegArmWrite (hr : (s.port p).refclk = true) (v : BitVec 32) :
    exec (.fhLegArmWrite p v) s = .next (writeLegArm s p v) := by
  simp [exec, execFhLegArmWrite, hr]

theorem exec_fhLegForceWrite (hr : (s.port p).refclk = true) (k : Nat) (v : BitVec 32) :
    exec (.fhLegForceWrite p k v) s = .next (forceSources s p k v) := by
  simp [exec, execFhLegForceWrite, hr]

/-- Without REFCLK the port's link carries none of the four (R30). -/
theorem exec_hubWrites_without_refclk (hr : (s.port p).refclk = false) :
    exec (.fhFirstValidClear p) s = .next s ∧ ∀ v, exec (.fhInjectArm p v) s = .next s ∧ exec (.fhLegArmWrite p v) s = .next s ∧
      ∀ k, exec (.fhLegForceWrite p k v) s = .next s := by
  simp [exec, execFhFirstValidClear, execFhInjectArm, execFhLegArmWrite, execFhLegForceWrite, hr]

/-- Without the unlock each of the four is an access and nothing more (R13). -/
theorem hubWrites_locked (hm : mayWrite s p = false) (v : BitVec 32) :
    writeInject s p v = touchWindow s p ∧ clearFirst s p = touchWindow s p ∧ writeLegArm s p v = touchWindow s p ∧
      ∀ k, forceSources s p k v = touchWindow s p := by
  simp [writeInject, clearFirst, writeLegArm, forceSources, hm]

theorem clearFirst_open (hm : mayWrite s p = true) :
    clearFirst s p = (touchWindow s p).onFh fun h => { h with first := { h.first with valid := false } } := by
  simp [clearFirst, hm]

theorem writeLegArm_open (hm : mayWrite s p = true) (v : BitVec 32) :
    writeLegArm s p v = (touchWindow s p).onFh fun h => { h with legArm := v, legArmAt := some s.now } := by
  simp [writeLegArm, hm]

theorem writeInject_open (hm : mayWrite s p = true) (v : BitVec 32) :
    writeInject s p v = (touchWindow s p).onFh fun h => { h with
      injSource := v.toNat % 512, injMode := v.toNat / 16777216 % 4, injAddrEn := v.getLsbD 29
      injArmed := v.getLsbD 31 && injectable (v.toNat % 512)
      injRefused := if v.getLsbD 31 then !injectable (v.toNat % 512) else h.injRefused } := by
  simp [writeInject, field, hm]

theorem forceSources_armed {k : Nat} (hm : mayWrite s p = true) (hk : k < 10) (ha : s.fh.legArm = 0x0000C3A5) (v : BitVec 32) :
    forceSources s p k v = fireAll (touchWindow s p)
      (((List.range 32).filter fun i => v.getLsbD i).map fun i => { source := 32 * k + i, detail := 0, injected := true }) := by
  simp [forceSources, hm, hk, ha]

theorem forceSources_unarmed {k : Nat} (h : 10 ≤ k ∨ s.fh.legArm ≠ 0x0000C3A5) (v : BitVec 32) :
    forceSources s p k v = touchWindow s p := by
  rcases h with h | h
  · simp [forceSources, Nat.not_lt.mpr h]
  · simp only [forceSources, decide_eq_false h, Bool.and_false, Bool.false_and, if_neg Bool.false_ne_true]

theorem exec_fhLegArmExpiry_over {t : Nat} (h : s.fh.legArmAt = some t) (ht : t + 1000000 ≤ s.now) :
    exec .fhLegArmExpiry s = .next (s.onFh fun h => { h with legArm := 0, legArmAt := none }) := by
  simp [exec, execFhLegArmExpiry, legArmOver, h, elapsed, ht]

theorem exec_fhLegArmExpiry_early (h : ∀ t, s.fh.legArmAt = some t → s.now < t + 1000000) : exec .fhLegArmExpiry s = .next s := by
  simp only [exec, execFhLegArmExpiry, legArmOver]
  cases e : s.fh.legArmAt with
  | none => rfl
  | some t => simp [elapsed, Nat.not_le.mpr (h t e)]

end

/-! ### The whole window -/

/-- Settles O55. The three rows of a window write are one (`exec_windowWrites`), so each clause is a single fact about a read, a write,
or a register of the hub. -/
theorem windowAccesses : Obligations.WindowAccesses := by
  refine ⟨mayWrite_iff, ?_, ?_, ?_, ?_, fun s => ⟨fun t => exec_fhLegArmExpiry_over, exec_fhLegArmExpiry_early⟩⟩
  · intro p addr width s hr kept ok
    have hk : keptLow (s.port p) addr = kept := by
      cases hb : (s.port p).wbuf with
      | none => simp only [kept, hb, keptLow_none hb]
      | some b => simp only [kept, hb, keptLow_some hb]
    refine ⟨fun al hl => ?_, fun a hi al hl ha => ?_, fun al => ?_, fun v h => ?_⟩
    · have al := (aligned32_iff addr width).2 al
      exact exec_windowReadLowWord hr (windowValue_register al hl) (by rw [al, Bool.true_and]) hk
    · have al := (aligned32_iff addr width).2 al
      exact exec_windowReadLowWord hr (windowValue_latched al hl ha) (by rw [al, Bool.true_and]) hk
    · have al := (aligned32_eq_false_iff addr width).2 al
      exact exec_windowReadLowWord hr (windowValue_misaligned al s p) (by rw [al]; rfl) hk
    · have h := h.imp_left (aligned32_eq_false_iff addr width).2
      exact exec_windowWrites ((writeAny_ignored hr h v).trans (passWindow_of_kept hk))
  · intro p addr v s hr hm h4 t all
    have al := (aligned32_iff addr 4).2 ⟨rfl, h4⟩
    have high := fun hh => writeAny_high hr hm al hh v
    have word := fun h => writeAny_word hr hm al h v
    refine ⟨fun hl _ => ?_, fun w _ hh hb => ?_, fun _ hh hb => ?_, fun hl hh hi ha hf => ?_, fun u ha e => ?_, fun u ha e => ?_,
      fun k u hk ha e => ?_⟩
    · exact exec_windowWrites (writeAny_low hr hm al hl v)
    · exact exec_windowWrites ((high hh).trans (applyHigh_buffered (four_le_of_isHigh64 hh) hb v))
    · exact exec_windowWrites ((high hh).trans (applyHigh_alone hb v))
    · exact exec_windowWrites ((word ⟨hl, hh⟩).trans (applyWord_plain hi ha hf s p v))
    · cases (exec_fhInjectArm hr v).symm.trans e
      exact exec_windowWrites ((word (not_word64_of_hub (.inl ha))).trans (ha ▸ applyWord_inject s p v))
    · cases (exec_fhLegArmWrite hr v).symm.trans e
      exact exec_windowWrites ((word (not_word64_of_hub (by omega))).trans (ha ▸ applyWord_legArm s p v))
    · cases (exec_fhLegForceWrite hr k v).symm.trans e
      exact exec_windowWrites ((word (not_word64_of_hub (by omega))).trans (ha ▸ applyWord_legForce hk s p v))
  · intro p v s hr t
    refine ⟨fun hm => ?_, fun hm => ⟨?_, ?_, fun n hn => ?_, fun k hk ha => ?_, fun k h => ?_⟩⟩
    · obtain ⟨inject, first, arm, force⟩ := hubWrites_locked hm v
      exact ⟨(exec_fhInjectArm hr v).trans (congrArg _ inject), (exec_fhFirstValidClear hr).trans (congrArg _ first),
        (exec_fhLegArmWrite hr v).trans (congrArg _ arm), fun k => (exec_fhLegForceWrite hr k v).trans (congrArg _ (force k))⟩
    · exact (exec_fhFirstValidClear hr).trans (congrArg _ (clearFirst_open hm))
    · exact (exec_fhLegArmWrite hr v).trans (congrArg _ (writeLegArm_open hm v))
    · subst hn
      exact (exec_fhInjectArm hr v).trans (congrArg _ (writeInject_open hm v))
    · exact (exec_fhLegForceWrite hr k v).trans (congrArg _ (forceSources_armed hm hk ha v))
    · exact (exec_fhLegForceWrite hr k v).trans (congrArg _ (forceSources_unarmed h v))
  · intro p s hr
    obtain ⟨first, hub⟩ := exec_hubWrites_without_refclk hr
    exact ⟨fun a w => congrArg _ (readWindow_without_refclk hr a w),
      fun a w v => exec_windowWrites (writeAny_without_refclk hr a w v), first, hub⟩

end Sys2Proof.Machine
end

section
/-! Abort (R155 to R158), Asynchronous Event Request (R355, R645) and Keep Alive (R78): what each answers, case by case. -/
namespace Sys2Proof.Machine

/-! ### Admission and completion -/

/-- A controller that takes admin commands runs one that neither a handover nor the ownership restricts (R99, R117). -/
theorem adminCmd_of_open {s : State} {a : AdminId} (ha : AdminOpen s a) {k : AdminClass} (hd : k ≠ .drive) (hs : k ≠ .driveSet)
    (i : Instr) (go : State → State) : adminCmd s a k i go = go s := by
  obtain ⟨live, notSafe, running, prp⟩ := ha
  cases k with
  | drive => exact absurd rfl hd
  | driveSet => exact absurd rfl hs
  | report | free | ownSet | other => simp [adminCmd, prpOnly, live, notSafe, running, prp]

/-- A completion that belongs to no I/O queue always has room (log entry 7). -/
theorem pushCqe_of_no_queue {p : Port} {c : Cqe} (h : ∀ q ∈ p.sqs, q.id ≠ c.sq) :
    pushCqe p c = { p with cqes := p.cqes ++ [c] } := by
  have none_found : p.sqs.find? (fun q => q.id = c.sq) = none :=
    List.find?_eq_none.2 fun q hq => mt of_decide_eq_true (h q hq)
  simp only [pushCqe, none_found]

section
variable {s : State} {a : AdminId} (ha : AdminOpen s a)
include ha

theorem exec_abort (sqid tcid : Nat) : exec (.abort a sqid tcid) s = .next (abortCmd a sqid tcid s) :=
  congrArg _ (adminCmd_of_open ha (k := .free) nofun nofun _ _)

theorem exec_asynchronousEventRequest : exec (.asynchronousEventRequest a) s = .next (awaitEvent a s) :=
  congrArg _ (adminCmd_of_open ha (k := .free) nofun nofun _ _)

theorem exec_keepAlive : exec (.keepAlive a) s = .next (adminDone s a .success) :=
  congrArg _ (adminCmd_of_open ha (k := .free) nofun nofun _ _)

end

/-! ### What an Abort does (R155, R158) -/

section
variable {s : State} {a : AdminId} {sqid tcid : Nat} {c : OutCmd}

theorem abortCmd_absent (hf : findCmd s a.port sqid tcid = none) : abortCmd a sqid tcid s = adminDone s a .success 1 := by
  simp only [abortCmd, hf]

theorem abortCmd_caught (hf : findCmd s a.port sqid tcid = some c) (hc : catchable s c = true) :
    abortCmd a sqid tcid s = adminDone (catchCmd { s with freeCtr := s.freeCtr + 1 } c) a .success 0 := by
  simp only [abortCmd, hf, hc, if_true]

theorem abortCmd_not_caught (hf : findCmd s a.port sqid tcid = some c) (hc : catchable s c = false) :
    abortCmd a sqid tcid s = adminDone { s with freeCtr := s.freeCtr + 1 } a .success 1 := by
  simp only [abortCmd, hf, hc, if_neg Bool.false_ne_true]

theorem catchCmd_write (hw : isWriteOp c.entry.op = true) : catchCmd s c = failWrite s c .abortRequested := if_pos hw

theorem catchCmd_not_write (hw : isWriteOp c.entry.op = false) :
    catchCmd s c = ioDone (abandonRead s c) c.port c.sq c.entry.cid .abortRequested := if_neg (Bool.eq_false_iff.1 hw)

end

/-! ### Which commands an Abort catches (R156, R157) -/

section
variable {c : OutCmd} {first count : Nat}

theorem catchable_write_iff {fua : Bool} {d : Option Nat} (h : c.entry.op = .write first count fua d) (s : State) :
    catchable s c = true ↔ c.prot = false ∧ ∀ e ∈ s.path.flacons, ∀ x ∈ e.2.subs,
      x.writer = some (c.port, c.sq, c.entry.cid) → x.comm = false := by
  simp [catchable, h, imp_iff_not_or]

theorem catchable_verify (h : c.entry.op = .verify first count) (s : State) : catchable s c = true := by
  simp only [catchable, h]

theorem catchable_read (h : c.entry.op = .read first count) (s : State) : catchable s c = !transferBegun s c := by
  simp only [catchable, h]

theorem catchable_eq_false (hw : ∀ a k fua d, c.entry.op ≠ .write a k fua d) (hv : ∀ a k, c.entry.op ≠ .verify a k)
    (hr : ∀ a k, c.entry.op ≠ .read a k) (s : State) : catchable s c = false := by
  unfold catchable
  split
  next h => exact (hw _ _ _ _ h).elim
  next h => exact (hr _ _ h).elim
  next h => exact (hv _ _ h).elim
  next => rfl

end

/-! ### Asynchronous Event Requests (R355, R645) -/

theorem takeAer_held {p : Port} (hk : p.kept = []) (cid : Nat) : takeAer p cid = { p with aers := p.aers ++ [cid] } := by
  simp only [takeAer, hk]

theorem takeAer_answered {p : Port} {page : Nat} {r : List Nat} (hq : ∀ q ∈ p.sqs, q.id ≠ 0) (he : p.aers = [])
    (hk : p.kept = page :: r) (cid : Nat) :
    takeAer p cid = { p with
      kept := r
      cqes := p.cqes ++ [{ sq := 0, cid := cid, status := .success, dnr := false, dw0 := noticeDw0 page, dw1 := 0 }] } := by
  have still_empty : p.aers.tail = p.aers := by rw [he, List.tail_nil]
  simp only [takeAer, hk, answerAer, still_empty]
  exact pushCqe_of_no_queue hq

theorem awaitEvent_beyond_limit {s : State} {a : AdminId} (h : 8 ≤ (s.port a.port).aers.length) :
    awaitEvent a s = adminDone s a .aerLimitExceeded := if_pos h

theorem awaitEvent_within_limit {s : State} {a : AdminId} (h : (s.port a.port).aers.length < 8) :
    awaitEvent a s = s.onPort a.port fun p => takeAer p a.cid := if_neg (Nat.not_le.2 h)

/-- Settles O8. An Abort is a case split on the command it names; a request for events is one on the notices its port keeps. -/
theorem abortEventAndKeepAlive : Obligations.AbortEventAndKeepAlive := by
  refine ⟨?absent, ?found, ?caught, ?held, ?answered, ?refused, fun a s ha => exec_keepAlive ha⟩
  case absent =>
    intro a sqid tcid s ha hf
    rw [exec_abort ha, abortCmd_absent hf]
  case found =>
    intro a sqid tcid c s ha hf t
    refine ⟨fun hc hw => ?_, fun hc hw => ?_, fun hc => ?_⟩
    · rw [exec_abort ha, abortCmd_caught hf hc, catchCmd_write hw]
    · rw [exec_abort ha, abortCmd_caught hf hc, catchCmd_not_write hw]
    · rw [exec_abort ha, abortCmd_not_caught hf hc]
  case caught =>
    intro c s
    exact ⟨fun _ _ _ _ h => catchable_write_iff h s, fun _ _ h => catchable_verify h s, fun _ _ h => catchable_read h s,
      fun hw hv hr => catchable_eq_false hw hv hr s⟩
  case held =>
    intro a s ha hl hk
    rw [exec_asynchronousEventRequest ha, awaitEvent_within_limit hl]
    exact congrArg _ (onPort_congr (takeAer_held hk a.cid))
  case answered =>
    intro a page r s ha he hk hq
    have hl : (s.port a.port).aers.length < 8 := by simp [he]
    rw [exec_asynchronousEventRequest ha, awaitEvent_within_limit hl]
    exact congrArg _ (onPort_congr (takeAer_answered hq he hk a.cid))
  case refused =>
    intro a s ha hl
    rw [exec_asynchronousEventRequest ha, awaitEvent_beyond_limit hl]

end Sys2Proof.Machine
end

section
/-! The read path (R229, R262, R284, R288, R306): the end of a sense and of a decode, an exhausted budget, step 5 and prefetching, case by case. -/
namespace Sys2Proof.Machine

/-! ### The end of a sense (R228, R229, R280 to R282) -/

/-- The sense boundary of a page: its jobs whose budget is over have gone to step 5, and their other senses have left the die (R284). -/
def atBoundary (t : State) (die block pos : Nat) : State :=
  ((t.path.jobs.filter fun j => decide (j.die = die) && decide (j.block = block) && decide (j.pos = pos)).filter (budgetOver t)).foldl
    (fun s j => toStep5 (dropSenses s j) j) t

section
variable {s : State} {o : DieOp} {die block pos soft : Nat} {retry : Option Nat}
  (hb : (getDie s die).busy = some o) (errs : List CwBits)
include hb

theorem senseEnd_hard (hk : o.kind = .sense block pos 0 retry)
    (hr : ((atBoundary (finishOp s die o) die block pos).path.jobs.filter (wantsHard die block pos retry)).any (·.runAhead) = false) :
    senseEnd s die errs = settleReads (((atBoundary (finishOp s die o) die block pos).path.jobs.filter (wantsHard die block pos retry)).foldl
      (fun s j => hardSensed s errs j) (atBoundary (finishOp s die o) die block pos)) := by
  simp only [atBoundary] at hr ⊢
  simp only [senseEnd, hb, hk, hr, if_true, if_neg Bool.false_ne_true]

theorem senseEnd_hard_runAhead (hk : o.kind = .sense block pos 0 retry)
    (hr : ((atBoundary (finishOp s die o) die block pos).path.jobs.filter (wantsHard die block pos retry)).any (·.runAhead) = true) :
    senseEnd s die errs = settleReads (((atBoundary (finishOp s die o) die block pos).path.jobs.filter (wantsHard die block pos retry)).foldl
      (fun s j => hardSensed s errs j) (queueRunAhead (atBoundary (finishOp s die o) die block pos) die block pos o)) := by
  simp only [atBoundary] at hr ⊢
  simp only [senseEnd, hb, hk, hr, if_true]

theorem senseEnd_soft_dropped (hk : o.kind = .sense block pos soft retry) (h0 : soft ≠ 0)
    (hw : (atBoundary (finishOp s die o) die block pos).path.jobs.filter (wantsSoft die block pos soft) = []) (ha : o.ahead = true) :
    senseEnd s die errs = settleReads (dropSoft (atBoundary (finishOp s die o) die block pos) (groupOf (dieChan die)) 1
      (s.now - (getDie s die).runFrom)) := by
  simp only [atBoundary] at hw ⊢
  simp only [senseEnd, hb, hk, if_neg h0, hw, ha, List.isEmpty_nil, Bool.and_self, if_true]

theorem senseEnd_soft_taken (hk : o.kind = .sense block pos soft retry) (h0 : soft ≠ 0)
    (hw : (atBoundary (finishOp s die o) die block pos).path.jobs.filter (wantsSoft die block pos soft) ≠ [] ∨ o.ahead = false) :
    senseEnd s die errs = settleReads (((atBoundary (finishOp s die o) die block pos).path.jobs.filter (wantsSoft die block pos soft)).foldl
      (fun x j => softSensed x (s.now - (getDie s die).runFrom) j) (atBoundary (finishOp s die o) die block pos)) := by
  rw [ne_eq, ← List.isEmpty_iff, Bool.not_eq_true, ← Bool.and_eq_false_iff] at hw
  simp only [atBoundary] at hw ⊢
  simp only [senseEnd, hb, hk, if_neg h0, hw, if_neg Bool.false_ne_true]

end

/-! ### The end of a decode (R234, R262) -/

theorem decodeChecks_iff (s : State) (j : CwJob) (r : DecodeResult) : decodeChecks s j r = true ↔
    r.iters ≤ (if j.step = 2 ∨ j.step = 3 then s.image.ldpc.softIterMax else s.image.ldpc.hardIterMax) ∧
      ldpcCheck s.image.ldpc r.estimate = true := by
  simp only [decodeChecks, softStep, Bool.and_eq_true, Bool.or_eq_true, decide_eq_true_eq]

section
variable {s : State} {id : Nat} {j : CwJob} (hf : findJob s id = some j) (r : DecodeResult)
include hf

theorem decodeEnd_outside (hd : inDecoder s j = false) : decodeEnd s id r = s := by
  simp only [decodeEnd, hf, hd, Bool.not_false, if_true]

theorem decodeEnd_inside (hd : inDecoder s j = true) :
    decodeEnd s id r = refillQueues (settleReads (
      if decodeChecks (leaveDecoder s j) j r && entryExpected j.expect (cwEntry r.estimate) then decodeOk (leaveDecoder s j) j r
      else decodeFail (leaveDecoder s j) j (decodeChecks (leaveDecoder s j) j r))) (groupOf (dieChan j.die)) := by
  simp only [decodeEnd, hf, hd, Bool.not_true, if_neg Bool.false_ne_true]

end

/-! ### An exhausted budget (R284) -/

/-- An operation senses the page of a job. -/
def sensesPageOf (j : CwJob) (o : DieOp) : Bool :=
  match o.kind with
  | .sense b q _ _ => decide (b = j.block) && decide (q = j.pos)
  | _ => false

theorem sensesPageOf_iff (j : CwJob) (o : DieOp) :
    sensesPageOf j o = true ↔ ∃ soft retry, o.kind = .sense j.block j.pos soft retry := by
  cases h : o.kind <;> simp [sensesPageOf, h]

theorem budgetEnd_eq {s : State} {id : Nat} {j : CwJob} (hf : findJob s id = some j) :
    budgetEnd s id = if !budgetOver s j || (getDie s j.die).busy.any (sensesPageOf j) then s
      else settleReads ((s.path.jobs.filter fun x => samePage x j && budgetOver s x).foldl (fun s x => toStep5 s x) (dropSenses s j)) := by
  simp only [budgetEnd, hf]
  cases (getDie s j.die).busy <;> rfl

/-! ### Step 5 (R306 to R312) -/

section
variable {s : State} {id : Nat} {j : CwJob}

theorem exec_reconstruction_of {t : State} (h : reconstructJob s id = t) : exec (.reconstruction id) s = .next (settleReads t) :=
  congrArg (fun x => Host.Outcome.next (settleReads x)) h

variable (hf : findJob s id = some j)
include hf

theorem reconstructJob_other_step (h5 : j.step ≠ 5) : reconstructJob s id = s := by
  simp only [reconstructJob, hf, if_pos h5]

theorem reconstructJob_without_buffer (h5 : j.step = 5) (hb : j.hasBuf = false) : reconstructJob s id = takeBuffer s id := by
  simp only [reconstructJob, hf, h5, hb, ne_eq, not_true, if_false, Bool.not_false, if_true]

theorem reconstructJob_with_plan {b : SuperBlock} {ms : List Nat} (h5 : j.step = 5) (hb : j.hasBuf = true) (hs : findSb s j.sb = some b)
    (hm : memberPlan (columnDown s b j) = some ms) :
    reconstructJob s id = if ms.all fun m => j.got.any fun g => decide (g.1 = m) then finishColumn s j ms else beginStep5 s id := by
  simp only [reconstructJob, hf, h5, hb, hs, hm, Option.bind_some, ne_eq, not_true, if_false, Bool.not_true, if_neg Bool.false_ne_true]

end

theorem all_members_read_iff (j : CwJob) (ms : List Nat) :
    (ms.all fun m => j.got.any fun g => decide (g.1 = m)) = true ↔ ∀ m ∈ ms, ∃ g ∈ j.got, g.1 = m := by
  simp only [List.all_eq_true, List.any_eq_true, decide_eq_true_eq]

/-! ### Prefetching (R288, R290) -/

/-- A sub-unit of an IU has a staged version or is covered by a staged trim. -/
def iuStaged (s : State) (nsid iu : Nat) : Bool :=
  (List.range (subsPerIu s)).any fun sub => !(stagedSubs s nsid iu sub).isEmpty || !(stagedTrims s nsid iu sub).isEmpty

theorem iuStaged_iff (s : State) (nsid iu : Nat) :
    iuStaged s nsid iu = true ↔ ∃ sub < subsPerIu s, stagedSubs s nsid iu sub ≠ [] ∨ stagedTrims s nsid iu sub ≠ [] := by
  simp only [iuStaged, List.any_eq_true, List.mem_range, Bool.or_eq_true, Bool.not_eq_true', List.isEmpty_eq_false_iff, ne_eq]

theorem iuStaged_congr {s u : State} (hi : u.image = s.image) (hp : u.path = s.path) (nsid iu : Nat) : iuStaged u nsid iu = iuStaged s nsid iu := by
  have subs : subsPerIu u = subsPerIu s := by rw [subsPerIu, subsPerIu, iuBytes, iuBytes, State.policy, State.policy, hi]
  simp only [iuStaged, stagedSubs, stagedTrims, subs, hp]

/-- The next IU that a stream looks up. -/
def prefetchTarget (s : State) (t : Stream) (n : Namespace) : Nat := max t.nextIu (t.lastLba / lbasPerIu s n + 1)

/-- A stream has looked an IU up. -/
def lookedUp (s : State) (p : PortId) (stream iu : Nat) : State :=
  s.onPort p fun pt => { pt with streams := setNth pt.streams stream fun x => { x with nextIu := iu + 1 } }

theorem iuStaged_lookedUp (s : State) (p : PortId) (stream iu nsid iu' : Nat) :
    iuStaged (lookedUp s p stream iu) nsid iu' = iuStaged s nsid iu' :=
  iuStaged_congr (onPort_image s p _) (onPort_path s p _) nsid iu'

theorem getMap_lookedUp (s : State) (p : PortId) (stream iu mi : Nat) : getMap (lookedUp s p stream iu) mi = getMap s mi := by
  rw [getMap, getMap, lookedUp, onPort_path]

section
variable {s : State} {p : PortId} {stream : Nat} {t : Stream} {n : Namespace}
  (ht : (s.port p).streams[stream]? = some t) (hn : findNs s t.nsid = some n)
include ht hn

theorem prefetchNext_not_due (h : t.extensions < 2 ∨ t.lastLba / lbasPerIu s n + s.policy.readaheadDepth < prefetchTarget s t n ∨
    n.nsze / lbasPerIu s n ≤ prefetchTarget s t n) : prefetchNext s p stream = s := by
  simp only [prefetchNext, ht, hn]
  exact if_pos (h.imp_right (Or.imp_right .inl))

/-- Where no die has two demand reads waiting, none of those that hold the IU keeps the prefetch back (R288). -/
theorem prefetchNext_due (he : 2 ≤ t.extensions) (hd : prefetchTarget s t n ≤ t.lastLba / lbasPerIu s n + s.policy.readaheadDepth)
    (hz : prefetchTarget s t n < n.nsze / lbasPerIu s n) (hq : ∀ d, demandReads s d < 2) :
    prefetchNext s p stream =
      if iuStaged s n.nsid (prefetchTarget s t n) || !(getMap s (mapIndex s n (prefetchTarget s t n))).valid
      then lookedUp s p stream (prefetchTarget s t n)
      else prefetchIu (lookedUp s p stream (prefetchTarget s t n)) p stream t.usedAt n (prefetchTarget s t n) := by
  rw [← iuStaged_lookedUp s p stream (prefetchTarget s t n), ← getMap_lookedUp s p stream (prefetchTarget s t n)]
  simp only [prefetchNext, ht, hn]
  refine if_neg ?_
  rintro (few | deep | beyond | busy)
  · exact absurd he (Nat.not_le.2 few)
  · exact absurd hd (Nat.not_le.2 deep)
  · exact absurd hz (Nat.not_lt.2 beyond)
  · obtain ⟨d, -, two⟩ := List.any_eq_true.1 busy
    exact absurd (hq d) (Nat.not_lt.2 (of_decide_eq_true two))

end

/-- Settles O41: each command is a case split on the job, operation or stream it names, and each case is one of the lemmas above, with the
statement's quantifiers over operations, members and sub-units read off the model's Boolean tests. -/
theorem readPathRuns : Obligations.ReadPathRuns := by
  refine ⟨?senses, ?decodes, decodeChecks_iff, ?budget, ?step5, ?prefetch⟩
  case senses =>
    intro die block pos soft retry errs o s hb hk t here u hard more
    refine ⟨?_, ?_, fun h0 unwanted ahead => ?_, fun h0 taken => ?_⟩
    · rintro rfl hr
      exact congrArg Host.Outcome.next (senseEnd_hard hb errs hk hr)
    · rintro rfl hr
      exact congrArg Host.Outcome.next (senseEnd_hard_runAhead hb errs hk hr)
    · exact congrArg Host.Outcome.next (senseEnd_soft_dropped hb errs hk h0 unwanted ahead)
    · exact congrArg Host.Outcome.next (senseEnd_soft_taken hb errs hk h0 taken)
  case decodes =>
    intro id r j s hf g t
    refine ⟨fun hd hc he => ?_, fun hd hfail => ?_, fun hd => congrArg Host.Outcome.next (decodeEnd_outside hf r hd)⟩
    · refine congrArg Host.Outcome.next ((decodeEnd_inside hf r hd).trans ?_)
      rw [if_pos (Bool.and_eq_true_iff.2 ⟨hc, he⟩)]
    · refine congrArg Host.Outcome.next ((decodeEnd_inside hf r hd).trans ?_)
      rw [if_neg (Bool.eq_false_iff.1 (Bool.and_eq_false_iff.2 hfail))]
  case budget =>
    intro id j s hf ofPage
    refine ⟨fun spent idle => ?_, fun h => ?_⟩
    · have free : (getDie s j.die).busy.any (sensesPageOf j) = false := by
        rw [Option.any_eq_false]
        exact fun o ho => Bool.eq_false_iff.2 (mt (sensesPageOf_iff j o).1 (idle o ho))
      exact congrArg Host.Outcome.next ((budgetEnd_eq hf).trans (by rw [spent, free]; rfl))
    · refine congrArg Host.Outcome.next ((budgetEnd_eq hf).trans (if_pos ?_))
      rcases h with early | ⟨o, ho, senses⟩
      · rw [early]; rfl
      · rw [ho, Option.any_some, (sensesPageOf_iff j o).2 senses, Bool.or_true]
  case step5 =>
    intro id j s hf
    refine ⟨fun h5 => exec_reconstruction_of (reconstructJob_other_step hf h5),
      fun h5 hb => exec_reconstruction_of (reconstructJob_without_buffer hf h5 hb),
      fun b ms h5 hb hs hm => ⟨fun read => ?_, fun lacks => ?_⟩⟩
    · exact exec_reconstruction_of ((reconstructJob_with_plan hf h5 hb hs hm).trans (if_pos ((all_members_read_iff j ms).2 read)))
    · have missing : ¬∀ m ∈ ms, ∃ g ∈ j.got, g.1 = m := by
        obtain ⟨m, hm, absent⟩ := lacks
        exact fun read => (read m hm).elim fun g hg => absent g hg.1 hg.2
      exact exec_reconstruction_of ((reconstructJob_with_plan hf h5 hb hs hm).trans (if_neg (mt (all_members_read_iff j ms).1 missing)))
  case prefetch =>
    intro p stream t n s ht hn last iu u staged
    refine ⟨fun h => congrArg Host.Outcome.next (prefetchNext_not_due ht hn h), fun he hd hz hq => ⟨fun h => ?_, fun unstaged hv => ?_⟩⟩
    · refine congrArg Host.Outcome.next ((prefetchNext_due ht hn he hd hz hq).trans (if_pos ?_))
      rw [Bool.or_eq_true, Bool.not_eq_true']
      exact h.imp_left (iuStaged_iff s n.nsid iu).2
    · refine congrArg Host.Outcome.next ((prefetchNext_due ht hn he hd hz hq).trans (if_neg ?_))
      rw [Bool.or_eq_true, Bool.not_eq_true']
      exact not_or.2 ⟨mt (iuStaged_iff s n.nsid iu).1 unstaged, ne_false_of_eq_true hv⟩

end Sys2Proof.Machine
end

section
/-! Patrol scrub (R347 to R350): the next page of the pass, what its outcomes ask for, the refresh of a super-block and the overrun, case by
case. -/
namespace Sys2Proof.Machine

/-! ### Reading a page counts it once (R347) -/

theorem queueSense_upkeep (s : State) (die block pos soft : Nat) (retry : Option Nat) (cls : Nat) :
    (queueSense s die block pos soft retry cls).upkeep = s.upkeep := by
  unfold queueSense; dsimp only; split
  · rfl
  · split <;> rfl

/-- A codeword read is work of the read path and of the dies. -/
theorem issueRead_upkeep (s : State) (b : SuperBlock) (k j cw : Nat) (purpose : Purpose) (expect : Option Expect) (cls : Nat) :
    (issueRead s b k j cw purpose expect cls).1.upkeep = s.upkeep := by
  unfold issueRead; dsimp only; split
  · rfl
  · rw [queueSense_upkeep]; rfl

theorem scrubIssue_scrubPages (s : State) (b : SuperBlock) (k j : Nat) (sys : Option (Bool × Nat)) :
    (scrubIssue s b k j sys).upkeep.scrubPages = s.upkeep.scrubPages := by
  unfold scrubIssue
  refine List.foldlRecOn (motive := fun t : State => t.upkeep.scrubPages = s.upkeep.scrubPages) _ _ rfl fun t kept c _ => ?_
  rw [issueRead_upkeep, kept]

theorem scrubTake_scrubPages (s : State) (b : SuperBlock) (k j : Nat) (sys : Option (Bool × Nat)) :
    (scrubTake s b k j sys).upkeep.scrubPages = s.upkeep.scrubPages + 1 := by
  unfold scrubTake; dsimp only; split
  · rfl
  · rw [onUpkeep_upkeep, scrubIssue_scrubPages]

/-! ### Which page is the next one (R347) -/

theorem exec_scrubRead_other {s : State} {page : Nat} (h : page ≠ s.upkeep.scrubPages) : exec (.scrubRead page) s = .next s :=
  congrArg Host.Outcome.next (if_neg h)

/-- The page that comes next is taken from where the pass stands. -/
theorem exec_scrubRead_next {s t : State} (h : scrubNext s = t) : exec (.scrubRead s.upkeep.scrubPages) s = .next t :=
  congrArg Host.Outcome.next ((if_pos rfl).trans h)

section
variable {s : State}

theorem scrubNext_stopped (hr : scrubRuns s = false) : scrubNext s = s := by simp only [scrubNext, hr, Bool.not_false, if_true]

theorem scrubNext_superBlock {b : SuperBlock} (hr : scrubRuns s = true) (hb : minBy (·.num) (scrubSbs s) = some b) :
    scrubNext s = scrubSb s b := by
  simp only [scrubNext, hr, hb, Bool.not_true, Bool.false_eq_true, if_false]

theorem scrubNext_ended (hr : scrubRuns s = true) (hb : scrubSbs s = []) (hx : (scrubSystem s)[s.upkeep.scrubSys]? = none) :
    scrubNext s = endScrubPass s := by
  simp only [scrubNext, hr, hb, hx, minBy, Bool.not_true, Bool.false_eq_true, if_false]

theorem scrubNext_system {x : Bool × Nat} (hr : scrubRuns s = true) (hb : scrubSbs s = [])
    (hx : (scrubSystem s)[s.upkeep.scrubSys]? = some x) : scrubNext s = scrubSys s x := by
  simp only [scrubNext, hr, hb, hx, minBy, Bool.not_true, Bool.false_eq_true, if_false]

end

/-! ### The next page of a super-block (R347, R348) -/

/-- The pass stands at a super-block: at its first page the rate is set anew. -/
def scrubAtSb (s : State) (b : SuperBlock) : State :=
  if s.upkeep.scrubAt = 0 ∨ b.num ≠ s.upkeep.scrubSb then setScrubRate (s.onUpkeep fun u => { u with scrubSb := b.num, scrubAt := 0 }) else s

theorem scrubAtSb_scrubPages (s : State) (b : SuperBlock) : (scrubAtSb s b).upkeep.scrubPages = s.upkeep.scrubPages := by
  unfold scrubAtSb; split <;> rfl

section
variable {s t u : State} {b : SuperBlock} {n : Nat} (ht : scrubAtSb s b = t) (hn : t.upkeep.scrubAt = n)
include ht hn

theorem scrubSb_waits (hw : scrubWaits t b (n / 18) (n % 18) = true) : scrubSb s b = t := by
  subst ht hn
  exact if_pos hw

theorem scrubSb_takes (hw : scrubWaits t b (n / 18) (n % 18) = false) (hu : scrubTake t b (n / 18) (n % 18) none = u) :
    scrubSb s b = if sbPages u b ≤ n + 1 then noteScrub u (b.num + 1) else u := by
  subst ht hn hu
  exact if_neg (Bool.eq_false_iff.1 hw)

end

/-! ### The next page of a segment or a chunk (R347) -/

section
variable {s : State} {x : Bool × Nat}

theorem scrubSys_unplaced (hp : systemPlace s x = none) : scrubSys s x = nextSystem s := by simp only [scrubSys, hp, Option.bind_none]

variable {sb first : Nat} {b : SuperBlock} (hp : systemPlace s x = some (sb, first)) (hb : findSb s sb = some b)
include hp hb

theorem scrubSys_placed :
    scrubSys s x = if scrubWaits s b (first + s.upkeep.scrubAt / 18) (s.upkeep.scrubAt % 18) then s
      else if systemPages x ≤ s.upkeep.scrubAt + 1
        then nextSystem (scrubTake s b (first + s.upkeep.scrubAt / 18) (s.upkeep.scrubAt % 18) (some x))
        else scrubTake s b (first + s.upkeep.scrubAt / 18) (s.upkeep.scrubAt % 18) (some x) := by
  simp only [scrubSys, hp, hb, Option.bind_some, Option.map_some]

end

/-! ### What the outcomes of a page ask for (R349) -/

section
variable {s : State} {r : ScrubRead} (hs : r.system = none)
include hs

theorem scrubPage_reconstructed (h : ∃ o ∈ r.outs, 5 ≤ o.2.1) : scrubPage s r = queueRelocation s r.sb r.k 18 := by
  have any5 : (r.outs.any fun o => decide (5 ≤ o.2.1)) = true := by simpa only [List.any_eq_true, decide_eq_true_eq] using h
  simp only [scrubPage, hs, any5, if_true]

theorem scrubPage_not_reconstructed (h : ∀ o ∈ r.outs, o.2.1 < 5) :
    scrubPage s r = if r.outs.any fun o => decide (2 ≤ o.2.1) || decide (s.policy.scrubRefreshIters ≤ o.2.2)
      then queueRelocation s r.sb r.k r.member else s := by
  have none5 : (r.outs.any fun o => decide (5 ≤ o.2.1)) = false := by
    simpa only [List.any_eq_false, decide_eq_true_eq, Nat.not_le] using h
  simp only [scrubPage, hs, none5, Bool.false_eq_true, if_false]

end

/-- A page is weak where a codeword went on to step 2 or took scrub_refresh_iters iterations. -/
theorem weakPage_iff (s : State) (r : ScrubRead) :
    (r.outs.any fun o => decide (2 ≤ o.2.1) || decide (s.policy.scrubRefreshIters ≤ o.2.2)) = true ↔
      ∃ o ∈ r.outs, 2 ≤ o.2.1 ∨ s.policy.scrubRefreshIters ≤ o.2.2 := by
  simp only [List.any_eq_true, Bool.or_eq_true, decide_eq_true_eq]

/-! ### The refresh of a super-block (R350) -/

theorem mem_addOnce (x : Nat) (l : List Nat) : x ∈ addOnce x l := by
  unfold addOnce; split
  case isTrue present => exact present
  case isFalse => exact List.mem_append_right l (List.mem_singleton_self x)

/-- Nothing more is relocated from a super-block that is to be collected whole. -/
theorem queueRelocation_of_class2 {s : State} {sb : Nat} (h : sb ∈ s.upkeep.class2) (k m : Nat) : queueRelocation s sb k m = s := if_pos h

section
variable {s : State} {sb : Nat} {b : SuperBlock} (hf : findSb s sb = some b)
include hf

theorem refreshBlock_due (hr : s.policy.scrubSbRefresh ≤ b.relocated) :
    refreshBlock s sb = s.onUpkeep fun u => { u with class2 := addOnce sb u.class2, relocate := u.relocate.filter fun x => x.1 ≠ sb } := by
  simp only [refreshBlock, hf, if_neg (Nat.not_lt.2 hr)]

theorem refreshBlock_early (hr : b.relocated < s.policy.scrubSbRefresh) : refreshBlock s sb = s := by
  simp only [refreshBlock, hf, if_pos hr]

end

/-- Settles O44. A scrub read is a case split on where the pass stands: at a super-block, at a segment or chunk, or at its end. That a page is
counted once rests on `issueRead_upkeep`; that nothing is queued after a refresh, on the super-block's place among class 2
(`queueRelocation_of_class2`). -/
theorem patrolScrubRuns : Obligations.PatrolScrubRuns := by
  refine ⟨?idle, ?superBlock, ?system, ?outcomes, ?refresh, ?overrun⟩
  case idle =>
    intro page s h
    by_cases hp : page = s.upkeep.scrubPages
    · subst hp
      exact exec_scrubRead_next (scrubNext_stopped (h.resolve_right (not_not_intro rfl)))
    · exact exec_scrubRead_other hp
  case superBlock =>
    intro b s hr hb t n u
    have ht : scrubAtSb s b = t := rfl
    have next := scrubNext_superBlock hr hb
    refine ⟨fun hw => exec_scrubRead_next (next.trans (scrubSb_waits ht rfl hw)), fun hw more => ?_, fun hw last => ?_, ?_⟩
    · exact exec_scrubRead_next (next.trans ((scrubSb_takes ht rfl hw rfl).trans (if_neg (Nat.not_le.2 more))))
    · exact exec_scrubRead_next (next.trans ((scrubSb_takes ht rfl hw rfl).trans (if_pos last)))
    · exact (scrubTake_scrubPages t b _ _ none).trans (congrArg (· + 1) (scrubAtSb_scrubPages s b))
  case system =>
    intro s hr hb
    refine ⟨fun hx => exec_scrubRead_next (scrubNext_ended hr hb hx), fun x hx => ?_⟩
    have next := scrubNext_system hr hb hx
    refine ⟨fun hp => exec_scrubRead_next (next.trans (scrubSys_unplaced hp)), ?_⟩
    intro sb first b hp hf n u
    have here := next.trans (scrubSys_placed hp hf)
    refine ⟨fun hw => exec_scrubRead_next (here.trans (if_pos hw)), fun hw more => ?_, fun hw last => ?_⟩
    · exact exec_scrubRead_next (here.trans ((if_neg (Bool.eq_false_iff.1 hw)).trans (if_neg (Nat.not_le.2 more))))
    · exact exec_scrubRead_next (here.trans ((if_neg (Bool.eq_false_iff.1 hw)).trans (if_pos last)))
  case outcomes =>
    intro r s hs
    refine ⟨scrubPage_reconstructed hs, fun under5 weak => ?_, fun clean => ?_⟩
    · exact (scrubPage_not_reconstructed hs under5).trans (if_pos ((weakPage_iff s r).2 weak))
    · have under5 : ∀ o ∈ r.outs, o.2.1 < 5 := fun o ho => (clean o ho).1.trans (by decide)
      refine (scrubPage_not_reconstructed hs under5).trans (if_neg (mt (weakPage_iff s r).1 ?_))
      rintro ⟨o, ho, step2 | slow⟩
      · exact absurd (clean o ho).1 (Nat.not_lt.2 step2)
      · exact absurd (clean o ho).2 (Nat.not_lt.2 slow)
  case refresh =>
    intro sb b s hf
    refine ⟨fun due => ?_, fun early => congrArg Host.Outcome.next (refreshBlock_early hf early)⟩
    have queued := mem_addOnce sb s.upkeep.class2
    refine ⟨_, congrArg Host.Outcome.next (refreshBlock_due hf due), queued, fun x hx => ?_, queueRelocation_of_class2 queued⟩
    exact of_decide_eq_true (List.mem_filter.1 hx).2
  case overrun =>
    refine fun s => ⟨fun uncounted late => congrArg Host.Outcome.next (if_neg ?_), fun h => congrArg Host.Outcome.next (if_pos h)⟩
    rintro (counted | early)
    · exact absurd counted (Bool.eq_false_iff.1 uncounted)
    · exact absurd early (Nat.not_lt.2 late)

end Sys2Proof.Machine
end

section
/-! The step: it always answers a next state, takes the command at the front of the queue, programs OTP bits and never clears one (R620),
and only raises the numbers of records, chunks and free values. -/
namespace Sys2Proof.Machine

/-- No arm of `exec` ends in a fault or a refusal. -/
theorem exec_answers (c : Instr) (s : State) : ∃ t, exec c s = .next t := by
  cases c <;> exact ⟨_, rfl⟩

theorem step_of_cons {s : State} {c : Instr} {rest : List Instr} (h : s.pending = c :: rest) :
    step s = exec c { s with pending := rest } := by
  simp only [step, h]

theorem step_of_nil {s : State} (h : s.pending = []) : step s = .next { s with now := s.now + 1 } := by
  simp only [step, h, idleTick]

theorem step_answers (s : State) : ∃ t, step s = .next t := by
  cases h : s.pending with
  | nil => exact ⟨_, step_of_nil h⟩
  | cons c rest => exact (step_of_cons h).symm ▸ exec_answers c _

/-- Settles O1. -/
theorem stepRunsFrontCommand : Obligations.StepRunsFrontCommand := fun _ _ _ h => step_of_cons h

/-- Settles O2. -/
theorem idleStepIsOneMicrosecond : Obligations.IdleStepIsOneMicrosecond := fun _ h => step_of_nil h

/-- A bit that a byte keeps under a mask of its former value is still set. -/
theorem getLsbD_of_and_eq {x y : Byte} (h : y &&& x = x) {i : Nat} (hi : x.getLsbD i = true) : y.getLsbD i = true := by
  rw [← h, BitVec.getLsbD_and, Bool.and_eq_true] at hi
  exact hi.1

/-- Settles O58: each part of each command leaves the row grown or alone (`Keeps.otp`), and taking a command from the queue does not touch it. -/
theorem otpBitsNeverReturn : Obligations.OtpBitsNeverReturn := by
  intro s t wf e
  obtain ⟨wf', grown⟩ := (step_keeps e).otp wf
  exact ⟨wf', fun a _ => getLsbD_of_and_eq (grown a)⟩

/-- Settles O60: that a step answers is `step_answers`; the rest is what `Keeps` says of the state whose front command was taken. -/
theorem stepsTakeOneCommandAndNumbersRise : Obligations.StepsTakeOneCommandAndNumbersRise := by
  intro s
  obtain ⟨t, e⟩ := step_answers s
  have k := step_keeps e
  exact ⟨t, e, k.queue, k.faults, k.thermals, k.losses, k.chunks, k.draws, k.spi⟩

/-- Settles O57: every clause is a field of the reset state. -/
theorem resetMeetsInvariants : Obligations.ResetMeetsInvariants := ⟨rfl, rfl, rfl, rfl, rfl, rfl, rfl⟩

end Sys2Proof.Machine
end

section
/-! How an admin command is admitted (R72, R99, R117, R525, R566, R634): SAFE, recovery, a handover, the ownership and a Sanitize, case by case. -/
namespace Sys2Proof.Machine

/-! ### What each admin command is -/

section
variable {c : Instr} {a : AdminId}

/-- The commands of R99's list have the class `drive`. -/
theorem exec_changesDrive (hc : changesDrive c = true) (ha : adminOf c = some a) :
    ∃ go, ∀ s, exec c s = .next (adminCmd s a .drive c go) := by
  cases c
  case firmwareImageDownload | firmwareCommit0 | firmwareCommit1 | firmwareCommit2 | firmwareCommit3 | namespaceCreate | namespaceDelete |
      namespaceAttach | namespaceDetach | formatNvm | sanitizeCryptoErase | sanitizeBlockErase | deviceSelfTest =>
    cases ha
    exact ⟨_, fun _ => rfl⟩
  all_goals exact absurd hc Bool.false_ne_true

/-- Every admin command but the vendor ones passes `adminCmd`, and only Identify and Get Log Page have the class `report`. -/
theorem exec_adminCmd (ha : adminOf c = some a) (hv : vendorOf c = none) (ht : tieOf c = none) (hr : reports c = false) :
    ∃ k go, (∀ s, exec c s = .next (adminCmd s a k c go)) ∧ k ≠ .report := by
  cases c
  case identify | getLogPage | getLogPageExtendedHealth | getLogPageLostIu | getLogPageSealHorizon | getLogPageFaultHistory |
      getLogPageThermalHistory | getLogPageDrydownCursor | getLogPageAccordStatus => exact absurd hr.symm Bool.false_ne_true
  case ownershipClaim | ownershipRelease =>
    cases ht
    exact absurd hv (Option.some_ne_none _)
  case drydownControlStart | drydownControlStop | diagnosticUnlockEnd | diagnosticUnlockChallenge | diagnosticUnlockResponse =>
    exact absurd hv (Option.some_ne_none _)
  case setFeatures =>
    cases ha
    exact ⟨_, _, fun _ => rfl, by unfold setClass; split <;> nofun⟩
  case createIoSq | createIoCq | deleteIoSq | deleteIoCq | getFeatures | setFeaturesFdp | setFeaturesPowerManagement | setFeaturesVwc |
      setFeaturesHctm | setFeaturesAsyncEvent | setFeaturesTimestamp | abort | asynchronousEventRequest | keepAlive |
      firmwareImageDownload | firmwareCommit0 | firmwareCommit1 | firmwareCommit2 | firmwareCommit3 | namespaceCreate | namespaceDelete |
      namespaceAttach | namespaceDetach | formatNvm | sanitizeCryptoErase | sanitizeBlockErase | deviceSelfTest | directiveSend |
      directiveReceive =>
    cases ha
    exact ⟨_, _, fun _ => rfl, nofun⟩
  all_goals exact absurd ha.symm (Option.some_ne_none _)

end

/-! ### The checks of `adminCmd` -/

section
variable {s : State} {a : AdminId} {k : AdminClass} (c : Instr) (go : State → State)

theorem adminCmd_safe (live : adminLive s a.port = true) (safe : s.fh.latch = true) (hk : k ≠ .report) :
    adminCmd s a k c go = refuseInSafe s a := by
  simp [adminCmd, live, safe, hk]

theorem adminCmd_recovery (live : adminLive s a.port = true) (notSafe : s.fh.latch = false) (rec : s.run = .recovery)
    (hr : k ≠ .report) (hf : k ≠ .free) : adminCmd s a k c go = adminDone s a .commandSequenceError := by
  simp [adminCmd, live, notSafe, rec, hr, hf]

theorem adminCmd_drive (ha : AdminOpen s a) : adminCmd s a .drive c go = driveCmd s a false c go := by
  obtain ⟨live, notSafe, running, prp⟩ := ha
  simp [adminCmd, prpOnly, live, notSafe, running, prp]

theorem adminCmd_driveSet (ha : AdminOpen s a) : adminCmd s a .driveSet c go = driveCmd s a true c go := by
  obtain ⟨live, notSafe, running, prp⟩ := ha
  simp [adminCmd, prpOnly, live, notSafe, running, prp]

theorem driveCmd_handover (h : s.own.phase = .handover) (isSet : Bool) : driveCmd s a isSet c go = holdAdmin s a.port c := if_pos h

theorem driveCmd_observer (h : s.own.phase ≠ .handover) (ho : s.own.owner ≠ a.port) (isSet : Bool) :
    driveCmd s a isSet c go = adminDone s a (if isSet then .nsWriteProtected else .ownershipNotHeld) := by
  simp [driveCmd, h, isOwner, ho]

theorem driveCmd_sanitizing (h : s.own.phase ≠ .handover) (ho : s.own.owner = a.port) (hs : s.sec.sanitize ≠ .none) :
    driveCmd s a false c go = adminDone s a .sanitizeInProgress := by
  simp [driveCmd, h, isOwner, ho, sanitizing, hs]

theorem driveCmd_owner (ho : OwnerOpen s a) (isSet : Bool) : driveCmd s a isSet c go = go s := by
  obtain ⟨-, noHandover, owner, noSanitize⟩ := ho
  simp [driveCmd, noHandover, isOwner, owner, sanitizing, noSanitize]

/-- Nothing holds or refuses a command of the owner outside SAFE, a handover and a Sanitize. -/
theorem adminCmd_of_owner (ho : OwnerOpen s a) : adminCmd s a k c go = go s := by
  by_cases hd : k = .drive
  · subst hd
    exact (adminCmd_drive c go ho.1).trans (driveCmd_owner c go ho false)
  by_cases hs : k = .driveSet
  · subst hs
    exact (adminCmd_driveSet c go ho.1).trans (driveCmd_owner c go ho true)
  exact adminCmd_of_open ho.1 hd hs c go

end

/-! ### Completions of the admin queue (R74, R525, R643) -/

theorem postCqe_of_no_queue {s : State} {p : PortId} {e : Cqe} (h : ∀ q ∈ (s.port p).sqs, q.id ≠ e.sq) :
    postCqe s p e = s.onPort p fun x => { x with cqes := x.cqes ++ [e] } :=
  onPort_congr (pushCqe_of_no_queue h)

/-- Settles O3: `pushCqe` finds no queue for an entry of the admin queue. -/
theorem adminCompletionIsPosted : Obligations.AdminCompletionIsPosted :=
  fun a st dw0 s h => postCqe_of_no_queue (e := adminCqe s a st dw0) h

theorem refuseInSafe_of_no_queue {s : State} {a : AdminId} (h : NoQueueZero s a.port) :
    refuseInSafe s a = s.onPort a.port fun p => { p with
      cqes := p.cqes ++ [{ sq := 0, cid := a.cid, status := .commandSequenceError, dnr := true, dw0 := 0, dw1 := 0 }] } :=
  postCqe_of_no_queue h

/-- A completion touches the completions and the completion queues of its port, and nothing else of it. -/
theorem pushCqe_parts (p : Port) (e : Cqe) :
    ∃ cqes waiting cqs, pushCqe p e = { p with cqes := cqes, waitingCqes := waiting, cqs := cqs } := by
  unfold pushCqe
  split
  · exact ⟨_, _, _, rfl⟩
  · split
    · exact ⟨_, _, _, rfl⟩
    · split <;> exact ⟨_, _, _, rfl⟩

/-- What of a port decides whether its controller takes admin commands. -/
def SameAdmission (x y : Port) : Prop :=
  x.ccEn = y.ccEn ∧ x.rdy = y.rdy ∧ x.fetching = y.fetching ∧ x.refclk = y.refclk ∧ x.aers = y.aers ∧ x.heldAdmin = y.heldAdmin ∧
    x.heldRepeats = y.heldRepeats

theorem ports_onPort (s : State) (p : PortId) (f : Port → Port) : ports (s.onPort p f) = ports s := by simp [ports]

theorem adminLive_onPort {s : State} {p : PortId} {f : Port → Port} (h : ∀ x, SameAdmission (f x) x) (q : PortId) :
    adminLive (s.onPort p f) q = adminLive s q := by
  have same : SameAdmission ((s.onPort p f).port q) (s.port q) := by
    by_cases hq : q = p
    · rw [hq, onPort_port]
      exact h _
    · rw [onPort_port_ne s f hq]
      exact ⟨rfl, rfl, rfl, rfl, rfl, rfl, rfl⟩
  obtain ⟨h1, h2, h3, h4, h5, h6, h7⟩ := same
  have slots : adminSlots (s.onPort p f) q = adminSlots s q := by
    rw [adminSlots, adminSlots, h5, h6, h7, onPort_own, onPort_commit, onPort_activation]
  rw [adminLive, adminLive, slots, ports_onPort, h1, h2, h3, h4, onPort_fh]

theorem adminLive_postCqe (s : State) (p : PortId) (e : Cqe) (q : PortId) : adminLive (postCqe s p e) q = adminLive s q := by
  refine adminLive_onPort (fun x => ?_) q
  obtain ⟨_, _, _, h⟩ := pushCqe_parts x e
  rw [h]
  exact ⟨rfl, rfl, rfl, rfl, rfl, rfl, rfl⟩

/-! ### Vendor commands in SAFE (R127, R525) -/

section
variable {s : State} {a : AdminId} (live : adminLive s a.port = true) (token : Nat)
include live

theorem exec_ownershipClaim (force : Bool) (key : BitVec 256) (bad : Bool) (tie : Option OwnCmd) :
    exec (.ownershipClaim a token force key bad tie) s = .next (withTie a tie (claim a token force key bad) s) :=
  congrArg Host.Outcome.next (if_pos live)

theorem exec_ownershipRelease (bad : Bool) (tie : Option OwnCmd) :
    exec (.ownershipRelease a token bad tie) s = .next (withTie a tie (release a token bad) s) :=
  congrArg Host.Outcome.next (if_pos live)

end

theorem tokenStore_eq (p : Port) (t : Token) : ∃ l, tokenStore p t = { p with tokens := l } := by
  unfold tokenStore
  split
  · exact ⟨p.tokens, rfl⟩
  · exact ⟨_, rfl⟩

@[simp] theorem tokenStore_sqs (p : Port) (t : Token) : (tokenStore p t).sqs = p.sqs := by
  obtain ⟨_, h⟩ := tokenStore_eq p t
  rw [h]

section
variable (s : State) (a : AdminId) (q : VendorReq)

theorem noteRefused_fresh {s : State} {a : AdminId} {q : VendorReq} (h : tokenLook (s.port a.port) q.token q.opcode q.print = .fresh) :
    noteRefused s a q.token q.opcode q.print = s.onPort a.port fun p =>
      tokenStore p { token := q.token, opcode := q.opcode, print := q.print, status := .commandSequenceError, dw0 := 0, dw1 := 0 } := by
  simp only [noteRefused, h]

theorem noteRefused_known {s : State} {a : AdminId} {q : VendorReq} (h : tokenLook (s.port a.port) q.token q.opcode q.print ≠ .fresh) :
    noteRefused s a q.token q.opcode q.print = s := by
  unfold noteRefused
  split
  next fresh => exact absurd fresh h
  next => rfl

theorem noteRefused_latch : (noteRefused s a q.token q.opcode q.print).fh.latch = s.fh.latch := by
  unfold noteRefused
  split
  next => rw [onPort_fh]
  next => rfl

theorem adminLive_noteRefused (p : PortId) : adminLive (noteRefused s a q.token q.opcode q.print) p = adminLive s p := by
  unfold noteRefused
  split
  next =>
    refine adminLive_onPort (fun x => ?_) p
    obtain ⟨_, h⟩ := tokenStore_eq x ⟨q.token, q.opcode, q.print, .commandSequenceError, 0, 0⟩
    rw [h]
    exact ⟨rfl, rfl, rfl, rfl, rfl, rfl, rfl⟩
  next => rfl

end

section
variable {s : State} {a : AdminId} (live : adminLive s a.port = true) (safe : s.fh.latch = true)
include safe

/-- What SAFE makes of a vendor command: its token is noted and it is refused (R127, R525). -/
theorem vendorCmd_safe (token opcode : Nat) (print : BitVec 32) (bad needOwner held : Bool) (run : State → State) :
    vendorCmd s a token opcode print bad needOwner held run = refuseInSafe (noteRefused s a token opcode print) a := if_pos safe

theorem ownCmd_safe (go : State → State) : ownCmd a go s = go s := if_pos safe

theorem claim_safe (token : Nat) (force : Bool) (key : BitVec 256) (bad : Bool) :
    let q := vendorReq token 0xC0 (b2n force) 0 bad (if force then leBytes 32 key.toNat else [])
    claim a token force key bad s = refuseInSafe (noteRefused s a q.token q.opcode q.print) a :=
  (ownCmd_safe safe _).trans (vendorCmd_safe safe ..)

theorem release_safe (token : Nat) (bad : Bool) :
    let q := vendorReq token 0xC1 0 0 bad []
    release a token bad s = refuseInSafe (noteRefused s a q.token q.opcode q.print) a :=
  (ownCmd_safe safe _).trans (vendorCmd_safe safe ..)

include live

/-- `adminCmd` refuses a vendor command in SAFE once its token is noted. -/
theorem adminCmd_noted_safe (q : VendorReq) (i : Instr) (go : State → State) :
    adminCmd (noteIfRefused s a q) a .other i go = refuseInSafe (noteRefused s a q.token q.opcode q.print) a := by
  have noted : noteIfRefused s a q = noteRefused s a q.token q.opcode q.print := if_pos (by simp [live, safe])
  rw [noted]
  exact adminCmd_safe i go ((adminLive_noteRefused s a q a.port).trans live) ((noteRefused_latch s a q).trans safe) nofun

theorem drydownCmd_safe (token action : Nat) (bad : Bool) (i : Instr) (go : VendorReq → State → State) :
    let q := vendorReq token 0xC2 action 0 bad []
    drydownCmd a token action bad i go s = refuseInSafe (noteRefused s a q.token q.opcode q.print) a :=
  adminCmd_noted_safe live safe _ i _

theorem unlockCmd_safe (q : VendorReq) (i : Instr) (bad : Bool) (go : State → State) :
    unlockCmd a q i bad go s = refuseInSafe (noteRefused s a q.token q.opcode q.print) a :=
  adminCmd_noted_safe live safe q i _

theorem exec_vendor_safe {c : Instr} {q : VendorReq} (hv : vendorOf c = some (a, q)) :
    exec c s = .next (refuseInSafe (noteRefused s a q.token q.opcode q.print) a) := by
  cases c
  case ownershipClaim b token force key bad tie =>
    cases tie <;> cases hv
    exact (exec_ownershipClaim live ..).trans (congrArg _ (claim_safe safe ..))
  case ownershipRelease b token bad tie =>
    cases tie <;> cases hv
    exact (exec_ownershipRelease live ..).trans (congrArg _ (release_safe safe ..))
  case drydownControlStart | drydownControlStop =>
    cases hv
    exact congrArg _ (drydownCmd_safe live safe ..)
  case diagnosticUnlockEnd | diagnosticUnlockResponse =>
    cases hv
    exact congrArg _ (unlockCmd_safe live safe ..)
  case diagnosticUnlockChallenge b token scope bad =>
    cases hv
    have noRepeat : (adminLive s a.port && !s.fh.latch && isOwner s a.port) = false := by simp [safe]
    simp only [exec, execDiagnosticUnlockChallenge, noRepeat, if_neg Bool.false_ne_true]
    exact congrArg _ (unlockCmd_safe live safe ..)
  all_goals exact absurd hv.symm (Option.some_ne_none _)

end

/-! ### Ownership commands that arrive together in SAFE (R116, R525) -/

theorem exec_ownInstr {s : State} {p : PortId} (live : adminLive s p = true) (o : OwnCmd) :
    exec (ownInstr p o) s = .next (tiedCmd p o s) := by
  cases o <;> exact congrArg _ (if_pos live)

/-- In SAFE the other port's command follows the first, which leaves that port taking commands. -/
theorem withTie_safe {s : State} {a : AdminId} (other : adminLive s a.port.other = true) (safe : s.fh.latch = true) (o : OwnCmd)
    (me : State → State) : withTie a (some o) me s = tiedCmd a.port.other o (me s) := by
  simp [withTie, other, safe]

theorem adminLive_refused (s : State) (a : AdminId) (q : VendorReq) (p : PortId) :
    adminLive (refuseInSafe (noteRefused s a q.token q.opcode q.print) a) p = adminLive s p :=
  (adminLive_postCqe _ _ _ p).trans (adminLive_noteRefused s a q p)

/-- Settles O4: `exec_adminCmd` for the commands without a token, `exec_vendor_safe` for those with one, `withTie_safe` for two that arrive
together. That both of those run, one after the other, is the model's choice (log entry 26). -/
theorem safeRefusesAdmin : Obligations.SafeRefusesAdmin := by
  refine ⟨?plain, ?vendor, ?tied⟩
  case plain =>
    intro c a s ha hv ht hr live safe noQueue
    obtain ⟨k, go, run, hk⟩ := exec_adminCmd ha hv ht hr
    rw [run, adminCmd_safe c go live safe hk, refuseInSafe_of_no_queue noQueue]
  case vendor =>
    intro c a q s hv live safe noQueue
    refine ⟨fun fresh => ?_, fun known => ?_⟩
    · rw [exec_vendor_safe live safe hv, noteRefused_fresh fresh]
      exact congrArg _ (refuseInSafe_of_no_queue (by simpa [NoQueueZero] using noQueue))
    · rw [exec_vendor_safe live safe hv, noteRefused_known known]
      exact congrArg _ (refuseInSafe_of_no_queue noQueue)
  case tied =>
    intro c a o s ha ht live other safe
    have follows {me : State → State} {q : VendorReq} (first : me s = refuseInSafe (noteRefused s a q.token q.opcode q.print) a) :
        Host.Outcome.next (withTie a (some o) me s) = exec (ownInstr a.port.other o) (me s) := by
      rw [withTie_safe other safe, exec_ownInstr]
      rw [first, adminLive_refused]
      exact other
    cases c
    case ownershipClaim b token force key bad tie =>
      cases ha
      cases ht
      exact ⟨_, exec_ownershipClaim live .., (exec_ownershipClaim live ..).trans (follows (claim_safe safe ..))⟩
    case ownershipRelease b token bad tie =>
      cases ha
      cases ht
      exact ⟨_, exec_ownershipRelease live .., (exec_ownershipRelease live ..).trans (follows (release_safe safe ..))⟩
    all_goals exact absurd ht.symm (Option.some_ne_none _)

/-! ### The observer, a handover, a Sanitize and recovery (R99, R117, R566, R634) -/

/-- Settles O5: `driveCmd_observer` under each class of R99. -/
theorem observerMayNotChangeDrive : Obligations.ObserverMayNotChangeDrive := by
  refine ⟨fun c a s hc hca ha noHandover observer => ?_, fun a s ha noHandover observer => ?_⟩
  · obtain ⟨go, run⟩ := exec_changesDrive hc hca
    rw [run, adminCmd_drive c go ha]
    exact congrArg _ (driveCmd_observer c go noHandover observer false)
  · have refused (c : Instr) (go : State → State) : adminCmd s a .driveSet c go = adminDone s a .nsWriteProtected :=
      (adminCmd_driveSet c go ha).trans (driveCmd_observer c go noHandover observer true)
    refine ⟨fun on => congrArg _ (refused _ _), fun on => congrArg _ (refused _ _), fun t1 t2 => congrArg _ (refused _ _),
      fun ms => congrArg _ (refused _ _), fun fid v h => ?_⟩
    rw [exec, execSetFeatures, h, refused]

/-- Outside SAFE and recovery a vendor command passes `adminCmd` with nothing noted. -/
theorem adminCmd_noted_open {s : State} {a : AdminId} (ha : AdminOpen s a) (q : VendorReq) (i : Instr) (go : State → State) :
    adminCmd (noteIfRefused s a q) a .other i go = go s := by
  have ⟨_, notSafe, running, _⟩ := ha
  have noted : noteIfRefused s a q = s := if_neg (by simp [notSafe, running])
  rw [noted]
  exact adminCmd_of_open ha (k := .other) nofun nofun i go

theorem drydownCmd_open {s : State} {a : AdminId} (ha : AdminOpen s a) (token action : Nat) (bad : Bool) (i : Instr)
    (go : VendorReq → State → State) :
    let q := vendorReq token 0xC2 action 0 bad []
    drydownCmd a token action bad i go s =
      if s.own.phase = .handover then holdAdmin s a.port i else vendorCmd s a token 0xC2 q.print bad true false (go q) :=
  adminCmd_noted_open ha _ i _

theorem exec_held {c : Instr} {a : AdminId} {s : State} (hc : heldByHandover c = true) (hca : adminOf c = some a) (ha : AdminOpen s a)
    (handover : s.own.phase = .handover) : exec c s = .next (holdAdmin s a.port c) := by
  have held (i : Instr) (go : State → State) : adminCmd s a .driveSet i go = holdAdmin s a.port i :=
    (adminCmd_driveSet i go ha).trans (driveCmd_handover i go handover true)
  by_cases drive : changesDrive c = true
  · obtain ⟨go, run⟩ := exec_changesDrive drive hca
    rw [run, adminCmd_drive c go ha]
    exact congrArg _ (driveCmd_handover c go handover false)
  cases c
  case setFeatures =>
    cases hca
    simp only [exec, execSetFeatures, of_decide_eq_true hc, held]
  case setFeaturesFdp | setFeaturesVwc | setFeaturesHctm | setFeaturesTimestamp =>
    cases hca
    exact congrArg _ (held _ _)
  case drydownControlStart | drydownControlStop =>
    cases hca
    exact congrArg _ ((drydownCmd_open ha ..).trans (if_pos handover))
  all_goals exact absurd hc drive

/-- Settles O6. A handover is looked at before the owner, and the owner before a Sanitize. -/
theorem driveCommandsAreHeldOrRefused : Obligations.DriveCommandsAreHeldOrRefused := by
  refine ⟨fun c a s => exec_held, fun c a s hc hca ha noHandover owner busy => ?_, fun c a s hc hca live notSafe rec => ?_⟩
  · obtain ⟨go, run⟩ := exec_changesDrive hc hca
    rw [run, adminCmd_drive c go ha]
    exact congrArg _ (driveCmd_sanitizing c go noHandover owner busy)
  · obtain ⟨go, run⟩ := exec_changesDrive hc hca
    rw [run]
    exact congrArg _ (adminCmd_recovery c go live notSafe rec nofun nofun)

end Sys2Proof.Machine
end

section
/-! The queue commands (R67, R78, R161), features (R78, R79, R84, R94, R99), Identify and Get Features, log pages (R604 to R613), Device
Self-test and the directives: what each completes with. -/
namespace Sys2Proof.Machine

/-! ### Queues (R67, R78, R161) -/

section
variable {s : State} {a : AdminId} {qid : Nat}

theorem makeCq_done {size vector : Nat} (h1 : 1 ≤ qid) (h128 : qid ≤ 128) (new : ∀ q ∈ (s.port a.port).cqs, q.id ≠ qid) (h2 : 2 ≤ size)
    (h4096 : size ≤ 4096) (hv : vector < 130) :
    makeCq a qid size vector s =
      adminDone (s.onPort a.port fun p => { p with cqs := p.cqs ++ [{ id := qid, size := size, vector := vector }] }) a .success := by
  have number : ¬(qid = 0 ∨ 128 < qid ∨ ((s.port a.port).cqs.any fun q => decide (q.id = qid)) = true) := by
    simp only [List.any_eq_true, decide_eq_true_eq, not_or, not_exists, not_and]
    exact ⟨by omega, by omega, new⟩
  rw [makeCq, if_neg number, if_neg (by omega), if_neg (by omega)]

theorem makeSq_done {size cqid prio : Nat} (h1 : 1 ≤ qid) (h128 : qid ≤ 128) (new : ∀ q ∈ (s.port a.port).sqs, q.id ≠ qid) (h2 : 2 ≤ size)
    (h4096 : size ≤ 4096) (hc : ∃ q ∈ (s.port a.port).cqs, q.id = cqid) :
    makeSq a qid size cqid prio s = adminDone (s.onPort a.port fun p => { p with
      sqs := p.sqs ++ [{ id := qid, size := size, cqid := cqid, prio := prio }] }) a .success := by
  have number : ¬(qid = 0 ∨ 128 < qid ∨ ((s.port a.port).sqs.any fun q => decide (q.id = qid)) = true) := by
    simp only [List.any_eq_true, decide_eq_true_eq, not_or, not_exists, not_and]
    exact ⟨by omega, by omega, new⟩
  have completions : ((s.port a.port).cqs.any fun q => decide (q.id = cqid)) = true := by simpa using hc
  rw [makeSq, if_neg number, if_neg (by omega), if_neg (by simp [completions])]

theorem dropCq_done (hq : ∃ q ∈ (s.port a.port).cqs, q.id = qid) (unused : ∀ q ∈ (s.port a.port).sqs, q.cqid ≠ qid) :
    dropCq a qid s = adminDone (s.onPort a.port fun p => { p with cqs := p.cqs.filter fun q => q.id ≠ qid }) a .success := by
  have found : ((s.port a.port).cqs.any fun q => decide (q.id = qid)) = true := by simpa using hq
  have notUsed : ¬((s.port a.port).sqs.any fun q => decide (q.cqid = qid)) = true := by simpa using unused
  rw [dropCq, if_neg (by simp [found]), if_neg notUsed]

theorem dropSq_done (hq : ∃ q ∈ (s.port a.port).sqs, q.id = qid) :
    let mine := (s.port a.port).cmds.filter fun c => decide (c.sq = qid)
    let u := s.onPort a.port fun p => { p with cmds := p.cmds.filter fun c => !decide (c.sq = qid) }
    dropSq a qid s =
      adminDone ((mine.foldl endOfDeleted u).onPort a.port fun p => { p with sqs := p.sqs.filter fun q => q.id ≠ qid }) a .success := by
  have found : ((s.port a.port).sqs.any fun q => decide (q.id = qid)) = true := by simpa using hq
  exact if_neg (by simp [found])

end

section
variable {c : OutCmd} (s : State)

theorem endOfDeleted_not_write (h : isWriteOp c.entry.op = false) :
    endOfDeleted s c = ioEnd (abandonRead s c) c .abortedSqDeletion := by
  rw [endOfDeleted, h, Bool.not_false, if_pos rfl]

theorem endOfDeleted_placed {s : State} (h : isWriteOp c.entry.op = true) (placed : c.prot = true ∨ whollyIn s c = true) :
    endOfDeleted s c = advanceHorizon
      (ioDone (holdData s c) c.port c.sq c.entry.cid .success (BitVec.ofNat 32 (c.seq.getD 0))) := by
  rw [endOfDeleted, if_neg (by simp [h]), if_pos (by simpa using placed)]

theorem endOfDeleted_unplaced {s : State} (h : isWriteOp c.entry.op = true) (hp : c.prot = false) (hw : whollyIn s c = false) :
    endOfDeleted s c = ioDone (discardWrite s c) c.port c.sq c.entry.cid .abortedSqDeletion := by
  rw [endOfDeleted, if_neg (by simp [h]), if_neg (by simp [hp, hw]), failWrite]

end

/-- Settles O7. -/
theorem queueCommandsComplete : Obligations.QueueCommandsComplete := by
  have ran {s : State} {a : AdminId} (ha : AdminOpen s a) (i : Instr) (go : State → State) : adminCmd s a .free i go = go s :=
    adminCmd_of_open ha (k := .free) nofun nofun i go
  refine ⟨?createCq, ?createSq, ?deleteCq, ?deleteSq, ?ends⟩
  case createCq =>
    intro a qid size vector s ha h1 h128 new h2 h4096 hv
    exact congrArg _ ((ran ha _ _).trans (makeCq_done h1 h128 new h2 h4096 hv))
  case createSq =>
    intro a qid size cqid prio s ha h1 h128 new h2 h4096 hc
    exact congrArg _ ((ran ha _ _).trans (makeSq_done h1 h128 new h2 h4096 hc))
  case deleteCq =>
    intro a qid s ha hq unused
    exact congrArg _ ((ran ha _ _).trans (dropCq_done hq unused))
  case deleteSq =>
    intro a qid s ha hq mine u
    exact congrArg _ ((ran ha _ _).trans (dropSq_done hq))
  case ends => exact fun c s => ⟨endOfDeleted_not_write s, endOfDeleted_placed, endOfDeleted_unplaced⟩

/-! ### Set Features (R78, R79, R84, R94, R95, R99, R352, R484) -/

section
variable {s : State} {a : AdminId} {fid : Nat}

theorem setClass_ne_drive (fid : Nat) : setClass fid ≠ .drive := by
  unfold setClass
  split <;> nofun

theorem exec_setFeatures_of_open (ha : AdminOpen s a) (hc : setClass fid ≠ .driveSet) (v : Nat) :
    exec (.setFeatures a fid v) s = .next (runSetFeatures a fid v s) :=
  congrArg Host.Outcome.next (adminCmd_of_open ha (setClass_ne_drive fid) hc _ _)

theorem exec_setFeatures_of_owner (ho : OwnerOpen s a) (fid v : Nat) : exec (.setFeatures a fid v) s = .next (runSetFeatures a fid v s) :=
  congrArg Host.Outcome.next (adminCmd_of_owner _ _ ho)

theorem setThermal_ordered {t1 t2 : Nat} (h : t1 = 0 ∨ t2 = 0 ∨ t1 < t2) (s : State) (a : AdminId) :
    setThermal a t1 t2 s = adminDone (s.onHk fun h => { h with tmt1 := t1, tmt2 := t2 }) a .success := if_neg (by omega)

theorem setThermal_crossed {t1 t2 : Nat} (h1 : t1 ≠ 0) (h2 : t2 ≠ 0) (h : t2 ≤ t1) (s : State) (a : AdminId) :
    setThermal a t1 t2 s = adminDone s a .invalidField := if_pos ⟨h1, h2, h⟩

theorem setFdp_without_namespaces (h : s.path.spaces = []) (on : Bool) (a : AdminId) :
    setFdp a on s = adminDone (putAnchor (s.onPath fun p => { p with fdp := on }) fun x => { x with fdp := on }) a .success :=
  if_neg (by simp [h])

theorem setFdp_with_namespaces (h : s.path.spaces ≠ []) (on : Bool) (a : AdminId) :
    setFdp a on s = adminDone s a .commandSequenceError := if_pos (by simpa using h)

theorem setPower_state {ps : Nat} (h : ps < 5) (s : State) (a : AdminId) :
    setPower a ps s = adminDone (takePs (s.onPort a.port fun p => { p with
      selPs := ps, lastOpPs := if ps < 3 then ps else p.lastOpPs })) a .success := if_neg (Nat.not_le.2 h)

theorem setPower_beyond {ps : Nat} (h : 5 ≤ ps) (s : State) (a : AdminId) : setPower a ps s = adminDone s a .invalidField := if_pos h

theorem setQueues_without_queues (hs : (s.port a.port).sqs = []) (hc : (s.port a.port).cqs = []) {v : Nat} (h1 : v % 65536 ≠ 65535)
    (h2 : v / 65536 ≠ 65535) :
    setQueues a v s = adminDone (s.onPort a.port fun p => { p with features := tput 0 p.features 7 v }) a .success 0x007F007F := by
  rw [setQueues, if_neg (by simp [h1, h2]), if_neg (by simp [hs, hc])]

theorem ownFeature_iff (fid : Nat) : ownFeature fid = true ↔ fid ∈ [0x01, 0x07, 0x08, 0x09, 0x0C] := decide_eq_true_iff

theorem driveFeature_iff (fid : Nat) : driveFeature fid = true ↔ fid ∈ [0x04, 0x05, 0x0A, 0x1E] := decide_eq_true_iff

theorem setClass_of_ownFeature (h : ownFeature fid = true) : setClass fid = .ownSet := by simp [setClass, h]

/-- The features that have a row of their own, or in the case of Number of Queues a rule of their own. -/
theorem runSetFeatures_without_row (h : fid ∉ [0x02, 0x06, 0x07, 0x0B, 0x0E, 0x10, 0x1D]) (a : AdminId) (v : Nat) (s : State) :
    runSetFeatures a fid v s =
      if ownFeature fid then adminDone (s.onPort a.port fun p => { p with features := tput 0 p.features fid v }) a .success
      else if driveFeature fid then adminDone (s.onMisc fun m => { m with features := tput 0 m.features fid v }) a .success
      else adminDone s a .invalidField := by
  simp only [List.mem_cons, List.not_mem_nil, or_false, not_or] at h
  obtain ⟨h2, h6, h7, hB, hE, h10, h1D⟩ := h
  rw [runSetFeatures, if_neg h2, if_neg h6, if_neg h7, if_neg hB, if_neg hE, if_neg h10, if_neg h1D]

theorem runSetFeatures_own (h : ownFeature fid = true) (h7 : fid ≠ 7) (a : AdminId) (v : Nat) (s : State) :
    runSetFeatures a fid v s = adminDone (s.onPort a.port fun p => { p with features := tput 0 p.features fid v }) a .success := by
  have noRow : fid ∉ [0x02, 0x06, 0x07, 0x0B, 0x0E, 0x10, 0x1D] := by
    have own := (ownFeature_iff fid).1 h
    simp at own ⊢
    omega
  rw [runSetFeatures_without_row noRow, if_pos h]

theorem runSetFeatures_drive (h : driveFeature fid = true) (a : AdminId) (v : Nat) (s : State) :
    runSetFeatures a fid v s = adminDone (s.onMisc fun m => { m with features := tput 0 m.features fid v }) a .success := by
  have drive := (driveFeature_iff fid).1 h
  have noRow : fid ∉ [0x02, 0x06, 0x07, 0x0B, 0x0E, 0x10, 0x1D] := by
    simp at drive ⊢
    omega
  have notOwn : ¬ownFeature fid = true := by
    rw [ownFeature_iff]
    simp at drive ⊢
    omega
  rw [runSetFeatures_without_row noRow, if_neg notOwn, if_pos h]

theorem runSetFeatures_unsupported (ho : ownFeature fid = false) (hd : driveFeature fid = false)
    (h : fid ∉ [0x02, 0x06, 0x0B, 0x0E, 0x10, 0x1D]) (a : AdminId) (v : Nat) (s : State) :
    runSetFeatures a fid v s = adminDone s a .invalidField := by
  have not7 : fid ≠ 7 := by
    rintro rfl
    exact absurd ho (by decide)
  have noRow : fid ∉ [0x02, 0x06, 0x07, 0x0B, 0x0E, 0x10, 0x1D] := by
    simp at h ⊢
    omega
  rw [runSetFeatures_without_row noRow, ho, hd]
  rfl

end

/-- Settles O9: each clause is the lemma about the feature it names, under the admission that its class has. -/
theorem setFeaturesSets : Obligations.SetFeaturesSets := by
  have mine {s : State} {a : AdminId} (ha : AdminOpen s a) (i : Instr) (go : State → State) : adminCmd s a .ownSet i go = go s :=
    adminCmd_of_open ha (k := .ownSet) nofun nofun i go
  have wide {s : State} {a : AdminId} (ho : OwnerOpen s a) (i : Instr) (go : State → State) : adminCmd s a .driveSet i go = go s :=
    adminCmd_of_owner i go ho
  refine ⟨fun a on s ho => congrArg _ (wide ho _ _), fun a t1 t2 s ho => ?thermal, fun a ms s ho => congrArg _ (wide ho _ _),
    fun a on s ho => ?fdp, fun a v s ha => congrArg _ (mine ha _ _), fun a ps s ha => ?power, fun a v s ha => ?own, fun a v s ho => ?drive⟩
  case thermal =>
    exact ⟨fun h => congrArg _ ((wide ho _ _).trans (setThermal_ordered h s a)),
      fun h1 h2 h => congrArg _ ((wide ho _ _).trans (setThermal_crossed h1 h2 h s a))⟩
  case fdp =>
    exact ⟨fun h => congrArg _ ((wide ho _ _).trans (setFdp_without_namespaces h on a)),
      fun h => congrArg _ ((wide ho _ _).trans (setFdp_with_namespaces h on a))⟩
  case power =>
    exact ⟨fun h => congrArg _ ((mine ha _ _).trans (setPower_state h s a)),
      fun h => congrArg _ ((mine ha _ _).trans (setPower_beyond h s a))⟩
  case own =>
    refine ⟨?_, ?_, fun hs hc h1 h2 => ?_, fun fid h h7 => ?_⟩
    · exact (exec_setFeatures_of_open ha (by decide) v).trans (congrArg Host.Outcome.next (mine ha _ _)).symm
    · exact (exec_setFeatures_of_open ha (by decide) v).trans (congrArg Host.Outcome.next (mine ha _ _)).symm
    · exact (exec_setFeatures_of_open ha (by decide) v).trans (congrArg _ (setQueues_without_queues hs hc h1 h2))
    · have notDrive : setClass fid ≠ .driveSet := by rw [setClass_of_ownFeature h]; nofun
      exact (exec_setFeatures_of_open ha notDrive v).trans (congrArg _ (runSetFeatures_own h h7 a v s))
  case drive =>
    have row := exec_setFeatures_of_owner ho
    refine ⟨?_, ?_, ?_, ?_, fun fid h => (row fid v).trans (congrArg _ (runSetFeatures_drive h a v s)),
      fun fid hown hd h => (row fid v).trans (congrArg _ (runSetFeatures_unsupported hown hd h a v s))⟩
    all_goals exact (row _ v).trans (congrArg Host.Outcome.next (wide ho _ _)).symm

/-! ### Identify and Get Features (R78, R573) -/

section
variable {s : State} {a : AdminId} {fid : Nat}

theorem runGetFeatures_unsupported (h : featureDw0 s a.port fid = none) : runGetFeatures a fid s = adminDone s a .invalidField := by
  simp only [runGetFeatures, h]

theorem runGetFeatures_value {d : BitVec 32} (h : featureDw0 s a.port fid = some d) (hf : fid ≠ 0x0E) :
    runGetFeatures a fid s = adminDone s a .success d := by
  simp only [runGetFeatures, h, if_neg hf]

theorem featureDw0_own (h : ownFeature fid = true) (h7 : fid ≠ 7) (s : State) (p : PortId) :
    featureDw0 s p fid = some (BitVec.ofNat 32 (tget 0 (s.port p).features fid)) := by
  have own := (ownFeature_iff fid).1 h
  simp only [List.mem_cons, List.not_mem_nil, or_false] at own
  rw [featureDw0, if_neg (by omega), if_neg (by omega), if_neg (by omega), if_neg (by omega), if_neg (by omega), if_neg (by omega),
    if_neg (by omega), if_pos h]

end

/-- Settles O10. -/
theorem reportsAnswer : Obligations.ReportsAnswer := by
  have report {s : State} {a : AdminId} (ha : AdminOpen s a) (i : Instr) (go : State → State) : adminCmd s a .report i go = go s :=
    adminCmd_of_open ha (k := .report) nofun nofun i go
  have free {s : State} {a : AdminId} (ha : AdminOpen s a) (i : Instr) (go : State → State) : adminCmd s a .free i go = go s :=
    adminCmd_of_open ha (k := .free) nofun nofun i go
  refine ⟨fun a cns nsid s ha => ?identify, fun a fid s ha => ?feature, fun a s ha => ?values⟩
  case identify =>
    have answer {r} (h : identifyAnswer s a.port cns nsid = r) : runIdentify a cns nsid s = answerWith s a r := by rw [runIdentify, h]
    exact ⟨fun bs h => congrArg _ ((report ha _ _).trans (answer h)), fun st h => congrArg _ ((report ha _ _).trans (answer h))⟩
  case feature =>
    exact ⟨fun h => congrArg _ ((free ha _ _).trans (runGetFeatures_unsupported h)),
      fun d h hf => congrArg _ ((free ha _ _).trans (runGetFeatures_value h hf))⟩
  case values =>
    exact ⟨congrArg _ (free ha _ _), rfl, rfl, rfl, rfl, rfl, rfl, fun fid h h7 => featureDw0_own h h7 s a.port⟩

/-! ### Log pages (R604 to R613) -/

section
variable {s : State} {a : AdminId} {lid : Nat} {r : LogReq}

theorem exec_logPages (ha : AdminOpen s a) (r : LogReq) :
    (∀ lid, exec (.getLogPage a lid r) s = .next (readLog a lid r s)) ∧
    exec (.getLogPageExtendedHealth a r) s = .next (readLog a 0xC0 r s) ∧
    exec (.getLogPageLostIu a r) s = .next (readLog a 0xC1 r s) ∧
    exec (.getLogPageSealHorizon a r) s = .next (readLog a 0xC2 r s) ∧
    exec (.getLogPageFaultHistory a r) s = .next (readLog a 0xC3 r s) ∧
    exec (.getLogPageThermalHistory a r) s = .next (readLog a 0xC4 r s) ∧
    exec (.getLogPageDrydownCursor a r) s = .next (readLog a 0xC5 r s) ∧
    exec (.getLogPageAccordStatus a r) s = .next (readLog a 0xC6 r s) := by
  have report (i : Instr) (go : State → State) : adminCmd s a .report i go = go s := adminCmd_of_open ha (k := .report) nofun nofun i go
  refine ⟨fun lid => congrArg _ (report _ _), ?_, ?_, ?_, ?_, ?_, ?_, ?_⟩
  all_goals exact congrArg _ (report _ _)

theorem pageServed_of_running (h : s.boot.romServes = false) (lid : Nat) : pageServed s lid = true := by simp [pageServed, h]

theorem readLog_page {bs : List Byte} (rom : s.boot.romServes = false) (h4 : r.offset % 4 = 0) (h5 : lid ≠ 0xC5)
    (hp : vendorPage s lid = some bs) :
    readLog a lid r s = endPageWait (adminDone (answerData s a.port (slicePage bs r)) a .success) a.port lid r := by
  simp only [readLog, pageServed_of_running rom lid, Bool.not_true, if_neg Bool.false_ne_true, if_neg (not_not_intro h4), if_neg h5, hp,
    answerWith]

theorem readLog_unknown (rom : s.boot.romServes = false) (h4 : r.offset % 4 = 0) (hp : vendorPage s lid = none)
    (hs : stdPieces s a.port lid = none) : readLog a lid r s = adminDone s a .invalidLogPage := by
  have h5 : lid ≠ 0xC5 := by
    rintro rfl
    exact absurd hp (Option.some_ne_none _)
  simp only [readLog, pageServed_of_running rom lid, Bool.not_true, if_neg Bool.false_ne_true, if_neg (not_not_intro h4), if_neg h5, hp, hs]

theorem readLog_misaligned (rom : s.boot.romServes = false) (h4 : r.offset % 4 ≠ 0) : readLog a lid r s = adminDone s a .invalidField := by
  simp only [readLog, pageServed_of_running rom lid, Bool.not_true, if_neg Bool.false_ne_true, if_pos h4]

theorem readLog_cursor (rom : s.boot.romServes = false) (h4 : r.offset % 4 = 0) : readLog a 0xC5 r s = readCursor a r s := by
  simp only [readLog, pageServed_of_running rom, Bool.not_true, if_neg Bool.false_ne_true, if_neg (not_not_intro h4), if_true]

theorem readCursor_resumes (h : r.offset = 0 ∨ (r.offset = (s.port a.port).c5Resume ∧ (s.port a.port).c5Gen = s.upkeep.cursorGen)) :
    readCursor a r s = endPageWait ((adminDone (answerData s a.port (slicePage (cursorPage s) r)) a .success).onPort a.port fun p => { p with
      c5Resume := r.offset + r.len, c5Gen := s.upkeep.cursorGen }) a.port 0xC5 r := by
  refine if_neg ?_
  rintro ⟨notStart, elsewhere⟩
  obtain ⟨place, gen⟩ := h.resolve_left notStart
  exact elsewhere.elim (absurd place) (absurd gen)

theorem readCursor_elsewhere (h0 : r.offset ≠ 0)
    (h : r.offset ≠ (s.port a.port).c5Resume ∨ (s.port a.port).c5Gen ≠ s.upkeep.cursorGen) :
    readCursor a r s = adminDone s a .invalidField := if_pos ⟨h0, h⟩

end

/-- Settles O11: every row of a log page is `readLog` of its page. -/
theorem logPagesAnswer : Obligations.LogPagesAnswer := by
  refine ⟨?_, fun a r s ha rom h4 => ?_⟩
  · intro a r s ha rom h4 reply
    obtain ⟨any, c0, c1, c2, c3, c4, c5, c6⟩ := exec_logPages ha r
    have page {lid : Nat} {bs : List Byte} (h5 : lid ≠ 0xC5) (hp : vendorPage s lid = some bs) : readLog a lid r s = reply lid bs :=
      readLog_page rom h4 h5 hp
    exact ⟨c0.trans (congrArg _ (page (by decide) rfl)), c1.trans (congrArg _ (page (by decide) rfl)),
      c2.trans (congrArg _ (page (by decide) rfl)), c3.trans (congrArg _ (page (by decide) rfl)),
      c4.trans (congrArg _ (page (by decide) rfl)), c6.trans (congrArg _ (page (by decide) rfl)),
      (any _).trans c0.symm, (any _).trans c1.symm, (any _).trans c2.symm, (any _).trans c3.symm, (any _).trans c4.symm,
      (any _).trans c5.symm, (any _).trans c6.symm, fun lid hp hs => (any lid).trans (congrArg _ (readLog_unknown rom h4 hp hs)),
      fun h => c5.trans (congrArg _ ((readLog_cursor rom h4).trans (readCursor_resumes h))),
      fun h0 h => c5.trans (congrArg _ ((readLog_cursor rom h4).trans (readCursor_elsewhere h0 h)))⟩
  · obtain ⟨any, -, -, -, -, -, c5, -⟩ := exec_logPages ha r
    exact ⟨c5.trans (congrArg _ (readLog_misaligned rom h4)), fun lid => (any lid).trans (congrArg _ (readLog_misaligned rom h4))⟩

/-! ### Device Self-test and the directives (R78, R86) -/

theorem length_patched (n : Nat) (other : Nat → Byte) (ps : List (Nat × List Byte)) : (patched n other ps).length = n := by
  simp [patched]

theorem runSelfTest_other {stc : Nat} (h1 : stc ≠ 1) (hF : stc ≠ 0xF) (a : AdminId) (s : State) :
    runSelfTest a stc s = adminDone s a .invalidField := by
  rw [runSelfTest, if_neg h1, if_neg hF]

theorem sendDirective_other {d : Nat} (h : d ≠ 0) (a : AdminId) (s : State) : sendDirective a d s = adminDone s a .invalidField := by
  rw [sendDirective, if_neg h]

theorem receiveDirective_other {d : Nat} (h : d ≠ 0) (a : AdminId) (s : State) :
    receiveDirective a d s = adminDone s a .invalidField := if_neg h

/-- The bytes that the Identify directive returns. -/
def directiveBytes (s : State) : List Byte := patched 4096 (fun _ => 0) [(0, [5]), (32, [if s.path.fdp then 5 else 1])]

theorem directiveBytes_placement (s : State) : (directiveBytes s)[32]? = some (if s.path.fdp then 5 else 1) := by
  simp [directiveBytes, patched, nth]

/-- Settles O17. That the short test ends within its command is the model's choice (log entry 55). -/
theorem selfTestAndDirectives : Obligations.SelfTestAndDirectives := by
  refine ⟨fun a s ho => ?_, fun a s ha => ?_⟩
  · have run (i : Instr) (go : State → State) : adminCmd s a .drive i go = go s := adminCmd_of_owner i go ho
    exact ⟨congrArg _ (run _ _), congrArg _ (run _ _), fun stc h1 hF => congrArg _ ((run _ _).trans (runSelfTest_other h1 hF a s))⟩
  · have run (i : Instr) (go : State → State) : adminCmd s a .other i go = go s := adminCmd_of_open ha (k := .other) nofun nofun i go
    exact ⟨congrArg _ (run _ _), fun d hd => congrArg _ ((run _ _).trans (sendDirective_other hd a s)),
      ⟨directiveBytes s, congrArg _ (run _ _), length_patched _ _ _, directiveBytes_placement s⟩,
      fun d hd => congrArg _ ((run _ _).trans (receiveDirective_other hd a s))⟩

end Sys2Proof.Machine
end

section
/-! Firmware (R163, R164, R597 to R602): the download, the begin and the steps of a commit, and the activation. -/
namespace Sys2Proof.Machine

/-! ### Download (R597, R602) -/

section
variable {s : State} (a : AdminId) (offset : Nat) (data : List (BitVec 8))

/-- Neither a commit nor an activation runs. -/
theorem not_busy {s : State} (hc : s.commit = none) (hx : s.activation = none) :
    ¬(s.commit.isSome = true ∨ s.activation.isSome = true) := by simp [hc, hx]

theorem download_busy (h : s.commit.isSome = true ∨ s.activation.isSome = true) :
    download a offset data s = adminDone s a .commandSequenceError := if_pos h

theorem download_refused (hc : s.commit = none) (hx : s.activation = none) (h : offset % 4096 ≠ 0 ∨ 4194304 < offset + data.length) :
    download a offset data s = adminDone s a .invalidField := by
  rw [download, if_neg (not_busy hc hx), if_pos h]

/-- The 4 KiB granules that a download fills. -/
def granulesOf (offset n : Nat) : List Nat := (List.range (ceilDiv n 4096)).map fun i => offset / 4096 + i

theorem mem_granulesOf (offset n g : Nat) : g ∈ granulesOf offset n ↔ offset / 4096 ≤ g ∧ g < offset / 4096 + ceilDiv n 4096 := by
  simp only [granulesOf, List.mem_map, List.mem_range]
  constructor
  · rintro ⟨i, hi, rfl⟩
    omega
  · rintro ⟨lo, hi⟩
    exact ⟨g - offset / 4096, by omega, by omega⟩

theorem mem_addOnce_iff (g x : Nat) (l : List Nat) : g ∈ addOnce x l ↔ g ∈ l ∨ g = x := by
  unfold addOnce
  split
  next present => exact ⟨.inl, fun h => h.elim id fun e => e ▸ present⟩
  next => rw [List.mem_append, List.mem_singleton]

theorem mem_foldl_addOnce (g : Nat) (gs l : List Nat) : g ∈ gs.foldl (fun l x => addOnce x l) l ↔ g ∈ l ∨ g ∈ gs := by
  induction gs generalizing l with
  | nil => simp
  | cons x xs ih => rw [List.foldl_cons, ih, mem_addOnce_iff, List.mem_cons, or_assoc]

theorem download_placed (hc : s.commit = none) (hx : s.activation = none) (h0 : offset % 4096 = 0)
    (h1 : offset + data.length ≤ 4194304) :
    download a offset data s = adminDone { s with
      dlBuf := memWrite 0 s.dlBuf offset data
      dlGranules := (granulesOf offset data.length).foldl (fun l x => addOnce x l) s.dlGranules } a .success := by
  rw [download, if_neg (not_busy hc hx), if_neg (by omega)]
  rfl

end

/-! ### The begin of a commit (R598 to R600, R602) -/

section
variable {s : State} (a : AdminId) (action : Nat) {fs : Nat}

theorem commitWith_busy (h : s.commit.isSome = true ∨ s.activation.isSome = true) (fs : Nat) :
    commitWith a action fs s = adminDone s a .commandSequenceError := if_pos h

theorem commitWith_slot (hc : s.commit = none) (hx : s.activation = none) (h : 2 < fs ∨ (fs ≠ 0 ∧ fs = s.copyInUse)) :
    commitWith a action fs s = adminDone s a (if 2 < fs ∨ action ≠ 2 then .invalidFirmwareSlot else .success) := by
  rw [commitWith, if_neg (not_busy hc hx)]
  by_cases beyond : 2 < fs
  · rw [if_pos beyond, if_pos (.inl beyond)]
  · rw [if_neg beyond, if_pos (h.resolve_left beyond)]
    by_cases h2 : action = 2 <;> simp [h2, beyond]

/-- The commit that a Firmware Commit begins. -/
def begunCommit (s : State) (a : AdminId) (action : Nat) : State :=
  { eraseRecord s (3 - s.copyInUse) with
    commit := some { port := a.port, cid := some a.cid, action := action, target := 3 - s.copyInUse, step := 2
                     serialAtT0 := max (effSerial s 1) (effSerial s 2) } }

theorem commitWith_inactive (hc : s.commit = none) (hx : s.activation = none) (h : fs = 0 ∨ (fs ≤ 2 ∧ fs ≠ s.copyInUse)) :
    commitWith a action fs s = if commitOk s action (3 - s.copyInUse) then begunCommit s a action
      else adminDone (if action = 2 then s else clearBuffer s) a .invalidFirmwareImage := by
  rw [commitWith, if_neg (not_busy hc hx), if_neg (by omega), if_neg (by omega)]
  cases commitOk s action (3 - s.copyInUse) <;> rfl

end

theorem exec_firmwareCommits {s : State} {a : AdminId} (ho : OwnerOpen s a) (fs : Nat) :
    exec (.firmwareCommit0 a fs) s = .next (commitWith a 0 fs s) ∧ exec (.firmwareCommit1 a fs) s = .next (commitWith a 1 fs s) ∧
    exec (.firmwareCommit2 a fs) s = .next (commitWith a 2 fs s) ∧ exec (.firmwareCommit3 a fs) s = .next (commitWith a 3 fs s) := by
  have run (i : Instr) (go : State → State) : adminCmd s a .drive i go = go s := adminCmd_of_owner i go ho
  exact ⟨congrArg _ (run _ _), congrArg _ (run _ _), congrArg _ (run _ _), congrArg _ (run _ _)⟩

/-- Settles O12. That step 1 and the erase of the record happen in the command itself is the model's choice (log entry 48). -/
theorem downloadAndCommitBegin : Obligations.DownloadAndCommitBegin := by
  refine ⟨⟨?begin, ?slot, ?busy⟩, ?placed, ?downloadBusy⟩
  case begin =>
    intro a fs s ho hc hx h began failed clear
    obtain ⟨e0, e1, e2, e3⟩ := exec_firmwareCommits ho fs
    have run (action : Nat) := commitWith_inactive a action hc hx h
    exact ⟨e0.trans (congrArg _ (run 0)), e1.trans (congrArg _ (run 1)), e2.trans (congrArg _ (run 2)), e3.trans (congrArg _ (run 3))⟩
  case slot =>
    intro a fs s ho hc hx h
    obtain ⟨e0, e1, e2, e3⟩ := exec_firmwareCommits ho fs
    have run (action : Nat) := commitWith_slot a action hc hx h
    have refused {action : Nat} (h2 : action ≠ 2) : commitWith a action fs s = adminDone s a .invalidFirmwareSlot :=
      (run action).trans (by rw [if_pos (.inr h2)])
    refine ⟨e0.trans (congrArg _ (refused (by decide))), e1.trans (congrArg _ (refused (by decide))), e2.trans (congrArg _ ?_),
      e3.trans (congrArg _ (refused (by decide)))⟩
    rw [run 2]
    simp only [ne_eq, not_true_eq_false, or_false]
  case busy =>
    intro a fs s ho h
    obtain ⟨e0, e1, e2, e3⟩ := exec_firmwareCommits ho fs
    have run (action : Nat) := commitWith_busy a action h fs
    exact ⟨e0.trans (congrArg _ (run 0)), e1.trans (congrArg _ (run 1)), e2.trans (congrArg _ (run 2)), e3.trans (congrArg _ (run 3))⟩
  case placed =>
    intro a offset data s ho hc hx
    refine ⟨fun h0 h1 => ⟨_, congrArg _ ((adminCmd_of_owner _ _ ho).trans (download_placed a offset data hc hx h0 h1)), fun g => ?_⟩,
      fun h => congrArg _ ((adminCmd_of_owner _ _ ho).trans (download_refused a offset data hc hx h))⟩
    rw [mem_foldl_addOnce, mem_granulesOf]
  case downloadBusy =>
    exact fun a offset data s ho h => congrArg _ ((adminCmd_of_owner _ _ ho).trans (download_busy a offset data h))

/-! ### The steps of a commit (R600 to R602) -/

section
variable {s : State} {c : Commit}

theorem commitStep_recordErased (h : c.step = 2) : commitStep s c =
    if c.action = 2 then { s with commit := some { c with step := 5 } }
    else { s with spi := memErase s.spi (copyBase c.target) (imageSize (bufReader s)), commit := some { c with step := 3 } } := by
  simp only [commitStep, h]

theorem commitStep_regionErased (h : c.step = 3) : commitStep s c =
    { s with spi := memWrite 0xFF s.spi (copyBase c.target) (bufReader s 0 (imageSize (bufReader s))), commit := some { c with step := 4 } } := by
  simp only [commitStep, h]

theorem commitStep_compared (h : c.step = 4) : commitStep s c = { s with commit := some { c with step := 5 } } := by
  simp only [commitStep, h]

theorem commitStep_recordWritten (h : c.step = 5) : commitStep s c =
    commitSelected { s with
      spi := memWrite 0xFF s.spi (recordBase c.target) (selRecord (if c.action = 0 then 0 else c.serialAtT0 + 1)) } c := by
  simp only [commitStep, h]

theorem commitSelected_completes (h : c.action ≠ 3) (s : State) : commitSelected s c = endCommit s c .success := if_pos h

theorem commitSelected_activates (h : c.action = 3) (s : State) : commitSelected s c =
    if sameSections (spiReader s c.target) (spiReader s s.copyInUse) then
      { { s with commit := none, dlBuf := [], dlGranules := [] }.onBoth (fun p => { p with fetching := false }) with
        activation := some { port := c.port, cid := c.cid, copy := c.target, since := s.now } }
    else endCommit s c .fwNeedsSubsystemReset := by
  rw [commitSelected, if_neg (not_not_intro h)]
  cases sameSections (spiReader s c.target) (spiReader s s.copyInUse) <;> rfl

section
variable (hc : s.commit = some c) (hs : spiRuns s = true)
include hc hs

theorem spiStepEnds_done : spiStepEnds s .done = commitStep s c := by
  simp only [spiStepEnds, hc, hs, Bool.not_true, if_neg Bool.false_ne_true]

theorem spiStepEnds_exceeded : spiStepEnds s .exceeded = commitFails s c := by
  simp only [spiStepEnds, hc, hs, Bool.not_true, if_neg Bool.false_ne_true]

theorem spiStepEnds_mismatch : spiStepEnds s .mismatch = if c.step = 4 then commitFails s c else s := by
  simp only [spiStepEnds, hc, hs, Bool.not_true, if_neg Bool.false_ne_true]

end

end

/-! ### Activation (R163, R164) -/

section
variable {s : State} {x : Activation}

theorem drained_iff (s : State) (x : Activation) :
    drained s x = true ↔ s.portA.cmds = [] ∧ s.portB.cmds = [] ∧ s.upkeep.idleSince ≤ x.since + 50000 := by
  simp [drained, and_assoc]

/-- What the end of an activation leaves: the image, the copy and the microcode are those it ends on. -/
theorem endActivation_parts (s : State) (x : Activation) (st : Status) :
    (endActivation s x st).activation = none ∧ (endActivation s x st).image = s.image ∧
      (endActivation s x st).copyInUse = s.copyInUse ∧ (endActivation s x st).ucodeVersion = s.ucodeVersion := by
  unfold endActivation owedDone
  split
  next => simp only [adminDone, postCqe, onPort_activation, onPort_image, onPort_copyInUse, onPort_ucodeVersion]; exact ⟨rfl, rfl, rfl, rfl⟩
  next => exact ⟨rfl, rfl, rfl, rfl⟩

theorem drainEnds_early (hx : s.activation = some x) (h : drained s x = false) : drainEnds s = s := by
  simp only [drainEnds, hx]
  exact if_pos (.inl (by rw [h]; rfl))

theorem drainEnds_refused (hx : s.activation = some x) (h : drained s x = true) (hr : s.run = .running) {e : Nat}
    (hv : checkVendor s (spiReader s x.copy) = some e) : drainEnds s = endActivation s x .invalidFirmwareImage := by
  simp only [drainEnds, hx, hv]
  exact if_neg (by simp [h, hr])

theorem drainEnds_activates (hx : s.activation = some x) (h : drained s x = true) (hr : s.run = .running)
    (hv : checkVendor s (spiReader s x.copy) = none) : drainEnds s = endActivation (activate s x.copy) x .success := by
  simp only [drainEnds, hx, hv]
  exact if_neg (by simp [h, hr])

theorem drainTooLong_over (hx : s.activation = some x) (ht : x.since + 50000 ≤ s.now) (h : drained s x = false) (hr : s.run = .running) :
    drainTooLong s = endActivation s x .fwMaxTimeViolation := by
  simp only [drainTooLong, hx]
  exact if_pos (by simp [elapsed, ht, h, hr])

theorem drainTooLong_not_over (hx : s.activation = some x) (h : s.now < x.since + 50000 ∨ drained s x = true) : drainTooLong s = s := by
  simp only [drainTooLong, hx]
  refine if_neg ?_
  rintro ⟨late, undrained, -⟩
  rcases h with early | all
  · exact absurd (of_decide_eq_true late) (Nat.not_le.2 early)
  · simp [all] at undrained

end

/-- Settles O13. The moments of the record's and the region's erases, and when a commit goes on, are the model's (log entry 48). -/
theorem commitStepsAndActivates : Obligations.CommitStepsAndActivates := by
  refine ⟨?steps, ?activation⟩
  case steps =>
    intro c s hc hs written
    have step : exec (.commitSpiStepEnd .done) s = .next (commitStep s c) := congrArg Host.Outcome.next (spiStepEnds_done hc hs)
    have mismatch := spiStepEnds_mismatch hc hs
    refine ⟨fun h2 ha => step.trans (congrArg _ ?_), fun h2 ha => step.trans (congrArg _ ?_),
      fun h3 => step.trans (congrArg _ (commitStep_regionErased h3)), fun h4 => step.trans (congrArg _ (commitStep_compared h4)),
      fun h5 ha => step.trans (congrArg _ ?_), fun h5 ha => step.trans (congrArg _ ?_), fun h5 ha => step.trans (congrArg _ ?_),
      congrArg Host.Outcome.next (spiStepEnds_exceeded hc hs), fun h4 => congrArg Host.Outcome.next (mismatch.trans (if_pos h4)),
      fun h4 => congrArg Host.Outcome.next (mismatch.trans (if_neg h4))⟩
    · exact (commitStep_recordErased h2).trans (if_neg ha)
    · exact (commitStep_recordErased h2).trans (if_pos ha)
    · rw [commitStep_recordWritten h5, if_pos ha, commitSelected_completes (by omega)]
    · rw [commitStep_recordWritten h5, if_neg (by omega), commitSelected_completes (by omega)]
    · rw [commitStep_recordWritten h5, if_neg (by omega), commitSelected_activates ha]
  case activation =>
    intro x s hx hr all
    have hd : drained s x = true ↔ all := drained_iff s x
    have hd' (h : ¬all) : drained s x = false := Bool.eq_false_iff.2 (mt hd.1 h)
    refine ⟨fun h => ?_, fun h => congrArg Host.Outcome.next (drainEnds_early hx (hd' h)), fun ht h => ?_,
      fun h => congrArg Host.Outcome.next (drainTooLong_not_over hx (h.imp_right hd.2))⟩
    · cases hv : checkVendor s (spiReader s x.copy) with
      | some e =>
        obtain ⟨h1, h2, h3, h4⟩ := endActivation_parts s x .invalidFirmwareImage
        exact ⟨_, congrArg Host.Outcome.next (drainEnds_refused hx (hd.2 h) hr hv), h1, by rw [h2], by rw [h3, h4]; rfl⟩
      | none =>
        obtain ⟨h1, h2, h3, h4⟩ := endActivation_parts (activate s x.copy) x .success
        exact ⟨_, congrArg Host.Outcome.next (drainEnds_activates hx (hd.2 h) hr hv), h1, by rw [h2]; rfl, by rw [h3, h4]; rfl⟩
    · obtain ⟨h1, -, h3, h4⟩ := endActivation_parts s x .fwMaxTimeViolation
      exact ⟨_, congrArg Host.Outcome.next (drainTooLong_over hx ht (hd' h) hr), h1, h3, h4⟩

end Sys2Proof.Machine
end

section
/-! Namespaces (R177, R179), Format NVM (R633) and Sanitize (R634): what each command does, case by case. -/
namespace Sys2Proof.Machine

/-! ### Namespace Management create (R177, R628, R645) -/

section
variable {s : State} {a : AdminId} {nsze flbas : Nat} {handles : List Nat}

/-- Namespace identifiers that no namespace has, ascending. -/
def freeNsIds (s : State) : List Nat := (List.range 33).filter fun i => decide (0 < i) && (findNs s i).isNone

/-- The namespace that a create makes, under the key drawn for it. -/
def newNs (s : State) (nsid nsze flbas : Nat) (handles : List Nat) : Namespace :=
  { nsid := nsid, nsze := nsze, flbas := flbas, segs := (freeSegs s).take (segsFor nsze flbas)
    handles := if handles.isEmpty then List.range s.policy.fdpRuhCount else handles
    attached := false, key := Config.freeKey s.freeCtr }

/-- Size, format and handles are ones that exist, each handle once. -/
def NsOperands (s : State) (nsze flbas : Nat) (handles : List Nat) : Prop :=
  flbas ≤ 1 ∧ 0 < nsze ∧ (∀ h ∈ handles, h < s.policy.fdpRuhCount) ∧ handles.Nodup

theorem createNs_of_operands (h : NsOperands s nsze flbas handles) : createNs a nsze flbas handles s =
    match freeNsIds s with
    | [] => adminDone s a .nsIdUnavailable
    | nsid :: _ =>
      if (freeSegs s).length < segsFor nsze flbas then adminDone s a .nsInsufficientCapacity
      else
        let n := newNs s nsid nsze flbas handles
        adminDone (writeKeyStore (clearNs ({ s with freeCtr := s.freeCtr + 1 }.onPath fun p => { p with spaces := p.spaces ++ [n] }) n)) a
          .success (BitVec.ofNat 32 nsid) := by
  obtain ⟨format, size, known, once⟩ := h
  have operands : ¬((handles.any (fun h => decide (s.policy.fdpRuhCount ≤ h)) || !decide handles.Nodup) = true) := by
    simpa [once] using known
  rw [createNs, if_neg (by omega), if_neg (by omega), if_neg operands]
  rfl

end

/-- Settles O14. -/
theorem namespaceCreateCompletes : Obligations.NamespaceCreateCompletes := by
  intro a nsze flbas handles s ho format size known once free
  have run {t : State} (h : createNs a nsze flbas handles s = t) : exec (.namespaceCreate a nsze flbas handles) s = .next t :=
    congrArg _ ((adminCmd_of_owner _ _ ho).trans h)
  have created := createNs_of_operands (a := a) ⟨format, size, known, once⟩
  have ids : freeNsIds s = free := rfl
  refine ⟨?made, fun hf => ?none, fun hf short => ?short⟩
  case made =>
    intro nsid rest hf room n
    rw [ids, hf] at created
    exact run (created.trans (if_neg (Nat.not_lt.2 room)))
  case none =>
    rw [ids, hf] at created
    exact run created
  case short =>
    obtain ⟨nsid, rest, hf⟩ := List.exists_cons_of_ne_nil hf
    rw [ids, hf] at created
    exact run (created.trans (if_pos short))

/-! ### Delete, attach, detach and format (R78, R179, R633) -/

section
variable {s : State} {a : AdminId} {nsid : Nat} {n : Namespace}

theorem namedNs_one (h : findNs s nsid = some n) (hn : nsid ≠ 0xFFFFFFFF) : namedNs s nsid = [n] := by
  rw [namedNs, if_neg hn, h, Option.toList_some]

theorem namedNs_all (s : State) : namedNs s 0xFFFFFFFF = s.path.spaces := if_pos rfl

theorem deleteNs_named {l : List Namespace} (h : namedNs s nsid = l) (hl : l ≠ []) :
    deleteNs a nsid s = adminDone (writeKeyStore (l.foldl removeNs s)) a .success := by
  obtain ⟨x, xs, rfl⟩ := List.exists_cons_of_ne_nil hl
  simp only [deleteNs, h]

theorem formatNs_named {l : List Namespace} {ses lbaf : Nat} (hs : ses ≤ 2) (hb : lbaf ≤ 1) (h : namedNs s nsid = l) (hl : l ≠ []) :
    formatNs a nsid ses lbaf s =
      adminDone (if ses = 0 then l.foldl (formatOne ses lbaf) s else writeKeyStore (l.foldl (formatOne ses lbaf) s)) a .success := by
  obtain ⟨x, xs, rfl⟩ := List.exists_cons_of_ne_nil hl
  simp only [formatNs, if_neg (Nat.not_lt.2 hs), if_neg (Nat.not_lt.2 hb), h]

theorem formatNs_plain {l : List Namespace} {lbaf : Nat} (hb : lbaf ≤ 1) (h : namedNs s nsid = l) (hl : l ≠ []) :
    formatNs a nsid 0 lbaf s = adminDone (l.foldl (formatOne 0 lbaf) s) a .success :=
  formatNs_named (Nat.zero_le 2) hb h hl

theorem formatNs_erase {l : List Namespace} {ses lbaf : Nat} (hs : ses = 1 ∨ ses = 2) (hb : lbaf ≤ 1) (h : namedNs s nsid = l)
    (hl : l ≠ []) : formatNs a nsid ses lbaf s = adminDone (writeKeyStore (l.foldl (formatOne ses lbaf) s)) a .success := by
  rw [formatNs_named (by omega) hb h hl, if_neg (by omega)]

theorem setAttached_list (h : findNs s nsid = some n) {ctrls : List Nat} (hc : everyCtrl s ctrls = false) (on : Bool) :
    setAttached a nsid ctrls on s = adminDone s a .controllerListInvalid := by
  simp only [setAttached, h, hc, Bool.not_false, if_true]

theorem setAttached_found (h : findNs s nsid = some n) {ctrls : List Nat} (hc : everyCtrl s ctrls = true) (on : Bool) :
    setAttached a nsid ctrls on s = if n.attached = on then adminDone s a (if on then .nsAlreadyAttached else .nsNotAttached)
      else adminDone (modNs s nsid fun x => { x with attached := on }) a .success := by
  simp only [setAttached, h, hc, Bool.not_true, if_neg Bool.false_ne_true]

end

section
variable {s : State} {a : AdminId} (ho : OwnerOpen s a)
include ho

theorem exec_namespaceDelete (nsid : Nat) : exec (.namespaceDelete a nsid) s = .next (deleteNs a nsid s) :=
  congrArg Host.Outcome.next (adminCmd_of_owner _ _ ho)

theorem exec_namespaceAttach (nsid : Nat) (ctrls : List Nat) :
    exec (.namespaceAttach a nsid ctrls) s = .next (setAttached a nsid ctrls true s) :=
  congrArg Host.Outcome.next (adminCmd_of_owner _ _ ho)

theorem exec_namespaceDetach (nsid : Nat) (ctrls : List Nat) :
    exec (.namespaceDetach a nsid ctrls) s = .next (setAttached a nsid ctrls false s) :=
  congrArg Host.Outcome.next (adminCmd_of_owner _ _ ho)

theorem exec_formatNvm (nsid ses lbaf : Nat) : exec (.formatNvm a nsid ses lbaf) s = .next (formatNs a nsid ses lbaf s) :=
  congrArg Host.Outcome.next (adminCmd_of_owner _ _ ho)

end

/-- Settles O15. That FFFFFFFFh names every namespace, and the statuses of attachment and format, are the base specification's (log entry 3). -/
theorem namespaceCommandsComplete : Obligations.NamespaceCommandsComplete := by
  refine ⟨?one, ?all, ?refused⟩
  case one =>
    intro a nsid n s ho hf
    refine ⟨fun ctrls hc => ⟨?_, ?_⟩, fun ctrls hc => ⟨?_, ?_⟩, fun hn => ?_⟩
    · exact (exec_namespaceAttach ho nsid ctrls).trans (congrArg _ (setAttached_found hf hc true))
    · refine (exec_namespaceDetach ho nsid ctrls).trans (congrArg _ ((setAttached_found hf hc false).trans ?_))
      cases n.attached <;> rfl
    · exact (exec_namespaceAttach ho nsid ctrls).trans (congrArg _ (setAttached_list hf hc true))
    · exact (exec_namespaceDetach ho nsid ctrls).trans (congrArg _ (setAttached_list hf hc false))
    · have named := namedNs_one hf hn
      have some_named : [n] ≠ [] := List.cons_ne_nil n []
      have single (f : State → Namespace → State) : [n].foldl f s = f s n := rfl
      refine ⟨?_, fun lbaf hb => ?_, fun ses lbaf hs hb => ?_⟩
      · rw [exec_namespaceDelete ho, deleteNs_named named some_named, single]
      · rw [exec_formatNvm ho, formatNs_plain hb named some_named, single]
      · rw [exec_formatNvm ho, formatNs_erase hs hb named some_named, single]
  case all =>
    intro a s ho hl
    have named := namedNs_all s
    refine ⟨?_, fun lbaf hb => ?_, fun ses lbaf hs hb => ?_⟩
    · rw [exec_namespaceDelete ho, deleteNs_named named hl]
    · rw [exec_formatNvm ho, formatNs_plain hb named hl]
    · rw [exec_formatNvm ho, formatNs_erase hs hb named hl]
  case refused =>
    intro a nsid ses lbaf s ho
    refine ⟨fun hs => (exec_formatNvm ho nsid ses lbaf).trans (congrArg _ ?_),
      fun hs hb => (exec_formatNvm ho nsid ses lbaf).trans (congrArg _ ?_)⟩
    · rw [formatNs, if_pos hs]
    · rw [formatNs, if_neg (Nat.not_lt.2 hs), if_pos hb]

/-! ### Sanitize (R634) -/

section
variable {s : State}

theorem startSanitize_starts {a : AdminId} (h : s.sec.sanitize = .none) (kind : SanState) :
    let u := discardStaging (adminDone s a .success)
    let v := if u.mediaMode = 2 then endDrydown u else u
    startSanitize a kind s = trimAll (writeKeyStore (v.onSec fun x => { x with sanitize := kind, sanStep := 3 })) :=
  if_neg (by simp [sanitizing, h])

theorem trimEnds_other (h : s.sec.sanStep ≠ 3) : trimEnds s = s := if_pos h

theorem trimEnds_crypto (h : s.sec.sanStep = 3) (hb : s.sec.sanitize ≠ .block) : trimEnds s = endSanitize s := by
  rw [trimEnds, if_neg (not_not_intro h), if_neg hb]

theorem trimEnds_block (h : s.sec.sanStep = 3) (hb : s.sec.sanitize = .block) :
    trimEnds s = (resetDies s).onSec fun x => { x with sanStep := 4 } := by
  rw [trimEnds, if_neg (not_not_intro h), if_pos hb]

theorem erasesEnd_other (h : s.sec.sanStep ≠ 4) : erasesEnd s = s := if_pos h

/-- The blocks of every die that is not a lost member are erased (R634 step 4). -/
def wipedState (s : State) : State := ((allDies s).filter fun d => !dieLost s d).foldl (fun s d => (wiped s d).foldl (wipeBlock d) s) s

/-- What step 4 drops once the blocks are erased: every super-block but the journal's, what was packed or copied, upkeep's lists, and
both refuge sets, which stand erased. -/
def dropWiped (s : State) : State :=
  let gone := (s.media.sbs.filter fun b => decide (b.use ≠ .journal)).map (·.num)
  let fresh := fun (r : RefugeSet) => { r with st := .erased, toErase := [], flush := none }
  putAnchor ((((s.onMedia fun m => { m with
    sbs := m.sbs.filter fun b => decide (b.use = .journal)
    stripes := m.stripes.filter fun t => !decide (t.sb ∈ gone) }).onPath fun p => { p with
      flacons := [], copies := [], jobs := p.jobs.filter fun j => !decide (j.sb ∈ gone), claimed := 0 }).onUpkeep fun u => { u with
      class1 := [], class2 := [], wearing := none, relocate := [] }).onJournal fun j => { j with
      setA := fresh j.setA, setB := fresh j.setB }) id

theorem erasesEnd_wiped (h : s.sec.sanStep = 4) : erasesEnd s = endSanitize (advanceHorizon (dropWiped (wipedState s))) :=
  if_neg (not_not_intro h)

theorem dropWiped_parts (s : State) :
    (dropWiped s).media.blocks = s.media.blocks ∧ (dropWiped s).media.pages = s.media.pages ∧ (dropWiped s).path.flacons = [] ∧
      (dropWiped s).path.copies = [] ∧ (dropWiped s).media.sbs = s.media.sbs.filter fun b => decide (b.use = .journal) :=
  ⟨rfl, rfl, rfl, rfl, rfl⟩

theorem exec_sanitizes {a : AdminId} (ho : OwnerOpen s a) :
    exec (.sanitizeCryptoErase a) s = .next (startSanitize a .crypto s) ∧ exec (.sanitizeBlockErase a) s = .next (startSanitize a .block s) :=
  ⟨congrArg Host.Outcome.next (adminCmd_of_owner _ _ ho), congrArg Host.Outcome.next (adminCmd_of_owner _ _ ho)⟩

end

/-- Settles O16. That steps 1 to 3 belong to the command, and that DRYDOWN ends whatever drydown_auto says, is the model's choice (log
entry 56). -/
theorem sanitizeRuns : Obligations.SanitizeRuns := by
  refine ⟨?start, fun s => ⟨fun h hb => congrArg _ (trimEnds_crypto h hb), fun h hb => congrArg _ (trimEnds_block h hb),
    fun h => congrArg _ (trimEnds_other h), ?erased, fun h => congrArg _ (erasesEnd_other h)⟩⟩
  case start =>
    intro a s ho u v
    obtain ⟨crypto, block⟩ := exec_sanitizes ho
    obtain ⟨-, -, -, none⟩ := ho
    exact ⟨crypto.trans (congrArg _ (startSanitize_starts none .crypto)), block.trans (congrArg _ (startSanitize_starts none .block))⟩
  case erased =>
    intro h w
    exact ⟨dropWiped w, congrArg _ (erasesEnd_wiped h), dropWiped_parts w⟩

end Sys2Proof.Machine
end

section
/-! Ownership (R106 to R120), Drydown Control (R363, R369, R370) and Diagnostic Unlock (R614 to R616, R637 to R640): each command and each
timer, case by case. -/
namespace Sys2Proof.Machine

/-! ### A vendor command whose token is new (R614) -/

section
variable {s : State} {a : AdminId}

theorem vendorCmd_fresh {token opcode : Nat} {print : BitVec 32} (notSafe : s.fh.latch = false)
    (fresh : tokenLook (s.port a.port) token opcode print = .fresh) (bad needOwner : Bool) (run : State → State) :
    vendorCmd s a token opcode print bad needOwner false run =
      if bad then vendorEnd s a ⟨token, opcode, print⟩ .invalidField
      else if needOwner && !isOwner s a.port then vendorEnd s a ⟨token, opcode, print⟩ .ownershipNotHeld
      else run s := by
  simp only [vendorCmd, notSafe, if_neg Bool.false_ne_true, fresh, vendorEnd]

theorem ownCmd_open (ha : AdminOpen s a) (go : State → State) : ownCmd a go s = go s := by
  obtain ⟨-, notSafe, -, prp⟩ := ha
  simp [ownCmd, prpOnly, notSafe, prp]

theorem isOwner_of_owner {p : PortId} (h : s.own.owner = p) : isOwner s p = true := decide_eq_true h

theorem isOwner_of_observer {p : PortId} (h : s.own.owner ≠ p) : isOwner s p = false := decide_eq_false h

end

/-! ### Claim (R106, R109 to R112) -/

section
variable {s : State} {a : AdminId} {q : VendorReq} {force : Bool} {key : BitVec 256}

theorem evalClaim_kept (ho : s.own.owner = a.port) (hp : s.own.phase ≠ .released) :
    evalClaim a q force key s = vendorEnd s a q .success s.own.generation := by
  rw [evalClaim, if_pos (isOwner_of_owner ho), if_neg hp]

theorem evalClaim_returned (ho : s.own.owner = a.port) (hp : s.own.phase = .released) :
    evalClaim a q force key s = vendorEnd (s.onOwn fun o => { o with phase := .held }) a q .success s.own.generation := by
  rw [evalClaim, if_pos (isOwner_of_owner ho), if_pos hp]
  rfl

theorem evalClaim_in_handover (ho : s.own.owner ≠ a.port) (hp : s.own.phase = .handover) :
    evalClaim a q force key s = refuseClaim s a q := by
  rw [evalClaim, if_neg (by simp [isOwner_of_observer ho]), if_pos hp]

theorem evalClaim_force (ho : s.own.owner ≠ a.port) (hp : s.own.phase ≠ .handover) (hf : force = true) :
    evalClaim a q force key s =
      if forceLocked s a.port then refuseClaim s a q
      else if keyHashOk s key then startHandover (s.onPort a.port fun p => { p with forceFails := 0, forceLock := none }) a q
      else refuseClaim (countForceFail s a.port) a q := by
  rw [evalClaim, if_neg (by simp [isOwner_of_observer ho]), if_neg hp, hf]
  simp only [Bool.true_and, if_true]

theorem evalClaim_free (ho : s.own.owner ≠ a.port) (hp : s.own.phase = .released ∨ s.own.phase = .lapsed) (hf : force = false) :
    evalClaim a q force key s = startHandover s a q := by
  have noHandover : s.own.phase ≠ .handover := by rintro h; simp [h] at hp
  rw [evalClaim, if_neg (by simp [isOwner_of_observer ho]), if_neg noHandover, hf]
  exact if_pos hp

theorem evalClaim_refused (ho : s.own.owner ≠ a.port) (hp : s.own.phase = .held ∨ s.own.phase = .linkDown) (hf : force = false) :
    evalClaim a q force key s = refuseClaim s a q := by
  have noHandover : s.own.phase ≠ .handover := by rintro h; simp [h] at hp
  have notFree : ¬(s.own.phase = .released ∨ s.own.phase = .lapsed) := by rcases hp with h | h <;> simp [h]
  rw [evalClaim, if_neg (by simp [isOwner_of_observer ho]), if_neg noHandover, hf]
  exact if_neg notFree

theorem exec_claim_fresh (ha : AdminOpen s a) {token : Nat} (bad : Bool)
    (hq : q = vendorReq token 0xC0 (b2n force) 0 bad (if force then leBytes 32 key.toNat else [])) (notRepeat : claimRepeats s a.port q = false)
    (fresh : tokenLook (s.port a.port) token 0xC0 q.print = .fresh) :
    exec (.ownershipClaim a token force key bad none) s =
      .next (if bad then vendorEnd s a q .invalidField else evalClaim a q force key s) := by
  subst hq
  refine (exec_ownershipClaim ha.1 ..).trans (congrArg Host.Outcome.next ((ownCmd_open ha _).trans ?_))
  rw [notRepeat, vendorCmd_fresh ha.2.1 fresh]
  rfl

theorem refusedDw0_values (s : State) : (s.own.phase = .held → refusedDw0 s = 0xFFFFFFFF) ∧ (s.own.phase = .handover → refusedDw0 s = 0xFFFFFFFE) ∧
    (s.own.phase = .linkDown → refusedDw0 s = BitVec.ofNat 32 (max 1 (s.policy.takeoverHold - downMs s))) ∧
    ((s.own.phase = .released ∨ s.own.phase = .lapsed) → refusedDw0 s = 0) := by
  refine ⟨fun h => ?_, fun h => ?_, fun h => ?_, fun h => ?_⟩
  case refine_4 => rcases h with h | h <;> simp only [refusedDw0, h]
  all_goals simp only [refusedDw0, h]

end

/-! ### Release (R106, R115) -/

section
variable {s : State} {a : AdminId}

/-- The phase that a Release of the owner leaves: in single x4 mode it changes nothing (R98). -/
def releasedPhase (s : State) : Phase := if s.own.phase = .held ∧ s.boot.strapPort = true then .released else s.own.phase

theorem exec_release_fresh (ha : AdminOpen s a) {token : Nat} (bad : Bool) {q : VendorReq} (hq : q = vendorReq token 0xC1 0 0 bad [])
    (fresh : tokenLook (s.port a.port) token 0xC1 q.print = .fresh) :
    exec (.ownershipRelease a token bad none) s = .next (
      if bad then vendorEnd s a q .invalidField
      else if !isOwner s a.port then vendorEnd s a q .ownershipNotHeld
      else vendorEnd (s.onOwn fun o => { o with phase := releasedPhase s }) a q .success s.own.generation) := by
  subst hq
  refine (exec_ownershipRelease ha.1 ..).trans (congrArg Host.Outcome.next ((ownCmd_open ha _).trans ?_))
  rw [vendorCmd_fresh ha.2.1 fresh]
  rfl

theorem onOwn_releasedPhase_kept (h : s.own.phase ≠ .held ∨ s.boot.strapPort = false) :
    (s.onOwn fun o => { o with phase := releasedPhase s }) = s := by
  have kept : releasedPhase s = s.own.phase := if_neg (by rcases h with h | h <;> simp [h])
  rw [kept]
  rfl

end

/-! ### Commands of both ports in one cycle (R116) -/

/-- Outside SAFE the port named by own_tie is taken first. -/
theorem withTie_open {s : State} {a : AdminId} (other : adminLive s a.port.other = true) (notSafe : s.fh.latch = false) (o : OwnCmd)
    (me : State → State) :
    let first : PortId := if s.policy.ownTie = 1 then .B else .A
    let v := fire (s.onOwn fun w => { w with tieCount := satAdd 65535 w.tieCount 1, lastWinner := first }) (coreSource 20)
    withTie a (some o) me s = if a.port = first then tiedCmd a.port.other o (me v) else me (tiedCmd a.port.other o v) := by
  simp only [withTie, other, notSafe, Bool.not_true, if_neg Bool.false_ne_true]

/-- A command of the tie acts as it would by itself. -/
theorem exec_tied {c : Instr} {a : AdminId} {x o : OwnCmd} {s : State} (ha : adminOf c = some a) (hx : asOwn c = some x)
    (ho : tieOf c = some o) (live : adminLive s a.port = true) (prp : a.ptr = .prp) :
    exec c s = .next (withTie a (some o) (tiedCmd a.port x) s) := by
  obtain ⟨p, cid, ptr⟩ := a
  cases prp
  cases c
  case ownershipClaim =>
    cases ha; cases hx; cases ho
    exact exec_ownershipClaim live ..
  case ownershipRelease =>
    cases ha; cases hx; cases ho
    exact exec_ownershipRelease live ..
  all_goals exact absurd hx.symm (Option.some_ne_none _)

/-- Settles O18. -/
theorem claimAndRelease : Obligations.ClaimAndRelease := by
  refine ⟨?claim, refusedDw0_values, ?release, ?tied⟩
  case claim =>
    intro a token force bad key s ha q run refused notRepeat fresh
    have e : run = _ := exec_claim_fresh ha bad rfl notRepeat fresh
    have good {t : State} (hb : bad = false) (h : evalClaim a q force key s = t) : run = .next t :=
      (e.trans (congrArg _ (if_neg (by simp [hb])))).trans (congrArg _ h)
    refine ⟨fun hb => e.trans (congrArg _ (if_pos hb)), fun hb ho hp => good hb (evalClaim_kept ho hp),
      fun hb ho hp => good hb (evalClaim_returned ho hp), fun hb ho hp => good hb (evalClaim_in_handover ho hp), fun hb ho hp hf => ?_,
      fun hb ho hf => ⟨fun hp => good hb (evalClaim_free ho hp hf), fun hp => good hb (evalClaim_refused ho hp hf)⟩⟩
    have forced : evalClaim a q force key s = _ := evalClaim_force ho hp hf
    refine ⟨fun locked => good hb (forced.trans (if_pos locked)), fun unlocked right => good hb (forced.trans ?_),
      fun unlocked wrong => good hb (forced.trans ?_)⟩
    · rw [if_neg (by simp [unlocked]), if_pos right]
    · rw [if_neg (by simp [unlocked]), if_neg (by simp [wrong])]
      rfl
  case release =>
    intro a token bad s ha r run fresh
    have e : run = _ := exec_release_fresh ha bad rfl fresh
    refine ⟨fun hb => ?_, fun hb ho => ?_, fun hb ho hp hx => ?_, fun hb ho hk => ?_⟩
    · rw [e, if_pos hb]
    · rw [e, if_neg (by simp [hb]), if_pos (by simp [isOwner_of_observer ho])]
    · have moved : releasedPhase s = .released := if_pos ⟨hp, hx⟩
      rw [e, if_neg (by simp [hb]), if_neg (by simp [isOwner_of_owner ho]), moved]
    · rw [e, if_neg (by simp [hb]), if_neg (by simp [isOwner_of_owner ho]), onOwn_releasedPhase_kept hk]
  case tied =>
    intro c a x o s ha hx ho live other notSafe prp v
    have e := (exec_tied ha hx ho live prp).trans (congrArg _ (withTie_open other notSafe o _))
    exact ⟨fun mine => e.trans (congrArg _ (if_pos mine)), fun theirs => e.trans (congrArg _ (if_neg theirs))⟩

/-! ### The timers (R106, R111, R639, R640) -/

section
variable {s : State} {p : PortId} {t : Nat}

theorem holdExpires_due (h : s.own.downSince = some t) (hp : s.own.phase = .linkDown) (ht : t + s.policy.takeoverHold * 1000 ≤ s.now) :
    holdExpires s = s.onOwn fun o => { o with phase := .lapsed } := by
  simp only [holdExpires, h]
  exact if_pos ⟨hp, decide_eq_true ht⟩

theorem holdExpires_early (h : s.own.downSince = some t) (hk : s.own.phase ≠ .linkDown ∨ s.now < t + s.policy.takeoverHold * 1000) :
    holdExpires s = s := by
  simp only [holdExpires, h]
  refine if_neg ?_
  rintro ⟨hp, ht⟩
  exact hk.elim (absurd hp) (Nat.not_lt.2 (of_decide_eq_true ht))

theorem holdExpires_idle (h : s.own.downSince = none) : holdExpires s = s := by simp only [holdExpires, h]

/-- An update that gives a port back as it is. -/
theorem onPort_self {f : Port → Port} (h : f (s.port p) = s.port p) : s.onPort p f = s :=
  (onPort_congr (g := id) h).trans (by cases p <;> rfl)

theorem lock_over {l : Option Nat} {now : Nat} (h : l = some t) (ht : t ≤ now) : (l.filter fun t => decide (now < t)) = none := by
  simp [h, ht]

theorem lock_kept {l : Option Nat} {now : Nat} (h : ∀ t, l = some t → now < t) : (l.filter fun t => decide (now < t)) = l := by
  cases l with
  | none => rfl
  | some t => simp [h t rfl]

theorem forceLockEnds_due (h : (s.port p).forceLock = some t) (ht : t ≤ s.now) :
    forceLockEnds s p = s.onPort p fun x => { x with forceLock := none } := onPort_congr (by rw [lock_over h ht])

theorem forceLockEnds_early (h : ∀ t, (s.port p).forceLock = some t → s.now < t) : forceLockEnds s p = s := onPort_self (by rw [lock_kept h])

theorem refusalEnds_due (h : (s.port p).chLock = some t) (ht : t ≤ s.now) :
    refusalEnds s p = s.onPort p fun x => { x with chLock := none } := onPort_congr (by rw [lock_over h ht])

theorem refusalEnds_early (h : ∀ t, (s.port p).chLock = some t → s.now < t) : refusalEnds s p = s := onPort_self (by rw [lock_kept h])

theorem unlockTooOld_of_unlock {u : Unlock} (h : s.sec.unlock = some u) :
    unlockTooOld s = if u.since + 3600000000 ≤ s.now then endUnlock s else s := by
  simp only [unlockTooOld, h, elapsed, decide_eq_true_eq]

theorem unlockTooOld_without (h : s.sec.unlock = none) : unlockTooOld s = s := by simp only [unlockTooOld, h]

end

/-- Settles O21. -/
theorem ownershipTimers : Obligations.OwnershipTimers := by
  refine ⟨fun t s h => ⟨fun hp ht => congrArg _ (holdExpires_due h hp ht), fun hk => congrArg _ (holdExpires_early h hk)⟩,
    fun s h => congrArg _ (holdExpires_idle h), fun p t s => ?locks, fun p s => ?unlocked, fun u s h => ?unlock,
    fun s h => congrArg _ (unlockTooOld_without h)⟩
  case locks =>
    exact ⟨fun h ht => congrArg _ (forceLockEnds_due h ht), fun h ht => congrArg _ (forceLockEnds_early fun u hu => by simp_all),
      fun h ht => congrArg _ (refusalEnds_due h ht), fun h ht => congrArg _ (refusalEnds_early fun u hu => by simp_all)⟩
  case unlocked =>
    exact ⟨fun h => congrArg _ (forceLockEnds_early fun u hu => by simp [h] at hu),
      fun h => congrArg _ (refusalEnds_early fun u hu => by simp [h] at hu)⟩
  case unlock =>
    exact ⟨fun ht => congrArg _ ((unlockTooOld_of_unlock h).trans (if_pos ht)),
      fun ht => congrArg _ ((unlockTooOld_of_unlock h).trans (if_neg (Nat.not_le.2 ht)))⟩

end Sys2Proof.Machine
end

section
/-! Diagnostic Unlock (R614 to R616, R637 to R640) and JTAG (R554, R620 to R625), case by case. -/
namespace Sys2Proof.Machine

/-! ### Diagnostic Unlock -/

/-- The port's challenge has ended (R616). -/
def withoutChallenge (s : State) (p : PortId) : State := s.onPort p fun x => { x with challenge := none }

section
variable {s : State} {a : AdminId} {q : VendorReq}

theorem dropChallenge_fresh {p : PortId} (fresh : tokenLook (s.port p) q.token q.opcode q.print = .fresh) :
    dropChallenge s p q = withoutChallenge s p := by
  simp only [dropChallenge, fresh, withoutChallenge]

theorem tokenLook_withoutChallenge (s : State) (p : PortId) (token opcode : Nat) (print : BitVec 32) :
    tokenLook ((withoutChallenge s p).port p) token opcode print = tokenLook (s.port p) token opcode print := by
  rw [withoutChallenge, onPort_port, tokenLook, tokenLook]

/-- A Diagnostic Unlock whose token is new ends the challenge, and goes on for the owner where its fields are well formed. -/
theorem unlockCmd_fresh (ha : AdminOpen s a) (fresh : tokenLook (s.port a.port) q.token 0xC3 q.print = .fresh) (hq : q.opcode = 0xC3)
    (i : Instr) (go : State → State) :
    unlockCmd a q i false go s =
      if isOwner s a.port then go (withoutChallenge s a.port) else vendorEnd (withoutChallenge s a.port) a q .ownershipNotHeld := by
  have notSafe : (withoutChallenge s a.port).fh.latch = false := (congrArg Fh.latch (onPort_fh ..)).trans ha.2.1
  have owner : isOwner (withoutChallenge s a.port) a.port = isOwner s a.port := by simp [isOwner, withoutChallenge]
  have fresh' : tokenLook (s.port a.port) q.token q.opcode q.print = .fresh := hq ▸ fresh
  have request : (⟨q.token, 0xC3, q.print⟩ : VendorReq) = q := hq ▸ rfl
  refine (adminCmd_noted_open ha q i _).trans ?_
  rw [dropChallenge_fresh fresh', vendorCmd_fresh notSafe ((tokenLook_withoutChallenge ..).trans fresh), if_neg Bool.false_ne_true, owner,
    request, Bool.true_and]
  cases isOwner s a.port <;> rfl

theorem repeatChallenge_fresh (fresh : tokenLook (s.port a.port) q.token q.opcode q.print = .fresh) : repeatChallenge a q s = s := by
  simp only [repeatChallenge, fresh]

theorem exec_challenge_fresh (ha : AdminOpen s a) {token scope : Nat} (hs : scope < 8) (hq : q = vendorReq token 0xC3 1 scope false [])
    (fresh : tokenLook (s.port a.port) token 0xC3 q.print = .fresh) :
    exec (.diagnosticUnlockChallenge a token scope false) s = .next (
      if isOwner s a.port then newChallenge a q scope (withoutChallenge s a.port)
      else vendorEnd (withoutChallenge s a.port) a q .ownershipNotHeld) := by
  subst hq
  have noRepeat : (if (adminLive s a.port && !s.fh.latch && isOwner s a.port) = true then
      repeatChallenge a (vendorReq token 0xC3 1 scope false []) s else s) = s := by
    rw [repeatChallenge_fresh fresh, ite_self]
  have scopeOk : (false || decide (8 ≤ scope)) = false := by simp [hs]
  rw [exec, execDiagnosticUnlockChallenge, noRepeat, scopeOk, unlockCmd_fresh ha fresh rfl]

theorem exec_response_fresh (ha : AdminOpen s a) {token : Nat} {response : List (BitVec 8)}
    (hq : q = vendorReq token 0xC3 2 0 false response) (fresh : tokenLook (s.port a.port) token 0xC3 q.print = .fresh) :
    exec (.diagnosticUnlockResponse a token response false) s = .next (
      if isOwner s a.port then judgeResponse a q response (s.port a.port).challenge (withoutChallenge s a.port)
      else vendorEnd (withoutChallenge s a.port) a q .ownershipNotHeld) := by
  subst hq
  exact congrArg Host.Outcome.next (unlockCmd_fresh ha fresh rfl _ _)

theorem exec_unlockEnd_fresh (ha : AdminOpen s a) {token : Nat} (hq : q = vendorReq token 0xC3 0 0 false [])
    (fresh : tokenLook (s.port a.port) token 0xC3 q.print = .fresh) :
    exec (.diagnosticUnlockEnd a token false) s = .next (
      if isOwner s a.port then endOwnUnlock a q (withoutChallenge s a.port)
      else vendorEnd (withoutChallenge s a.port) a q .ownershipNotHeld) := by
  subst hq
  exact congrArg Host.Outcome.next (unlockCmd_fresh ha fresh rfl _ _)

theorem challengeLocked_withoutChallenge (s : State) (p : PortId) : challengeLocked (withoutChallenge s p) p = challengeLocked s p := by
  simp only [challengeLocked, withoutChallenge, onPort_port, onPort_now]

theorem newChallenge_locked (h : challengeLocked s a.port = true) (scope : Nat) :
    newChallenge a q scope (withoutChallenge s a.port) = vendorEnd (withoutChallenge s a.port) a q .accessDenied :=
  if_pos ((challengeLocked_withoutChallenge ..).trans h)

theorem onPort_draw (s : State) (p : PortId) (f : Port → Port) (n : Nat) :
    { s.onPort p f with freeCtr := n } = ({ s with freeCtr := n } : State).onPort p f := by cases p <;> rfl

/-- The challenge that ends makes way for the new one, with its scope, its port and a nonce that nothing constrains. -/
theorem newChallenge_given (h : challengeLocked s a.port = false) (scope : Nat) :
    let ch := challengeBytes s a.port scope (Config.freeNonce s.freeCtr)
    newChallenge a q scope (withoutChallenge s a.port) =
      vendorEnd ({ s with freeCtr := s.freeCtr + 1 }.onPort a.port fun p => { p with challenge := some ch, hostData := ch }) a q .success := by
  have unlocked : ¬challengeLocked (withoutChallenge s a.port) a.port = true := by simp [challengeLocked_withoutChallenge, h]
  have bytes : challengeBytes (withoutChallenge s a.port) a.port scope (Config.freeNonce (withoutChallenge s a.port).freeCtr) =
      challengeBytes s a.port scope (Config.freeNonce s.freeCtr) := by
    simp only [challengeBytes, otpBytes, withoutChallenge, onPort_own, onPort_sec, onPort_freeCtr]
  simp only [newChallenge, if_neg unlocked, bytes]
  simp only [withoutChallenge, onPort_freeCtr, onPort_draw, answerData, onPort_onPort]

theorem responseSigned_withoutChallenge (s : State) (p : PortId) (r : List Byte) :
    responseSigned (withoutChallenge s p) r = responseSigned s r := by
  rw [responseSigned, responseSigned, withoutChallenge, onPort_image]

/-- Settles O23. That the end of an unlock leaves open the debug ports that the lifecycle state holds open (log entry 62), and that a second unlock
replaces the first (log entry 71), is the model's choice. -/
theorem diagnosticUnlock : Obligations.DiagnosticUnlock := by
  refine ⟨?owner, ?observer, fun s => rfl⟩
  case owner =>
    intro a token s ha ho e u
    have owner := isOwner_of_owner ho
    refine ⟨?challenge, ?response, fun fresh => (exec_unlockEnd_fresh ha rfl fresh).trans (congrArg _ (if_pos owner))⟩
    case challenge =>
      intro scope hs q fresh ch
      have run := (exec_challenge_fresh ha hs rfl fresh).trans (congrArg _ (if_pos owner))
      exact ⟨fun h => run.trans (congrArg _ (newChallenge_given h scope)), fun h => run.trans (congrArg _ (newChallenge_locked h scope))⟩
    case response =>
      intro response q fresh
      have run := (exec_response_fresh ha rfl fresh).trans (congrArg _ (if_pos owner))
      refine ⟨fun c hc => run.trans (congrArg _ ?_), fun hc => run.trans (congrArg _ ?_)⟩
      · rw [hc, judgeResponse, responseSigned_withoutChallenge]
        rfl
      · rw [hc]
        rfl
  case observer =>
    intro c a q s hv hq wf ha ho fresh
    have observer : ¬isOwner s a.port = true := by simp [isOwner_of_observer ho]
    cases c
    case diagnosticUnlockEnd b token bad =>
      cases bad
      case true => exact absurd wf Bool.false_ne_true
      cases hv
      exact (exec_unlockEnd_fresh ha rfl fresh).trans (congrArg _ (if_neg observer))
    case diagnosticUnlockResponse b token response bad =>
      cases bad
      case true => exact absurd wf Bool.false_ne_true
      cases hv
      exact (exec_response_fresh ha rfl fresh).trans (congrArg _ (if_neg observer))
    case diagnosticUnlockChallenge b token scope bad =>
      cases bad
      case true => exact absurd wf Bool.false_ne_true
      cases hv
      exact (exec_challenge_fresh ha (of_decide_eq_true wf) rfl fresh).trans (congrArg _ (if_neg observer))
    all_goals exact absurd wf Bool.false_ne_true

end

/-! ### JTAG (R554, R620 to R625) -/

section
variable {m : List Host.Cell} (w : memWf 0 m = true) (bits : BitVec 8)
include w

theorem memGet_otpProgram (addr a : Nat) : memGet 0 (otpProgram m addr bits) a = if a = addr then memGet 0 m a ||| bits else memGet 0 m a := by
  by_cases h : a = addr
  · rw [if_pos h, h, otpProgram, memGet_memPut_same w]
  · rw [if_neg h, otpProgram, memGet_memPut_other _ h]

theorem otpProgram_wf (addr : Nat) : memWf 0 (otpProgram m addr bits) = true := memPut_wf w addr _

theorem memGet_programLifecycle (a : Nat) :
    memGet 0 (jtagProgram m (.programLifecycle bits)) a = if a ∈ [160, 161, 162] then memGet 0 m a ||| bits else memGet 0 m a := by
  have w1 := otpProgram_wf w bits 160
  have w2 := otpProgram_wf w1 bits 161
  simp only [jtagProgram, memGet_otpProgram w2, memGet_otpProgram w1, memGet_otpProgram w, List.mem_cons, List.not_mem_nil, or_false]
  by_cases h : a = 160 ∨ a = 161 ∨ a = 162
  · rcases h with rfl | rfl | rfl <;> rfl
  · obtain ⟨h0, h1, h2⟩ : a ≠ 160 ∧ a ≠ 161 ∧ a ≠ 162 := by omega
    rw [if_neg h2, if_neg h1, if_neg h0, if_neg h]

theorem memGet_programOtp (addr a : Nat) : memGet 0 (jtagProgram m (.programOtp addr bits)) a =
    if a = addr ∧ otpMayProgram m addr = true then memGet 0 m a ||| bits else memGet 0 m a := by
  by_cases may : otpMayProgram m addr = true
  · simp only [jtagProgram, may, if_true, and_true, memGet_otpProgram w]
  · rw [if_neg fun h => may h.2, jtagProgram, if_neg may]

end

theorem execJtagAccess_open {s : State} (h : debugPortOpen s 1 = true) (op : JtagOp) :
    execJtagAccess op s = .next (lifecycleMoves s (s.onSec fun x => { x with otp := jtagProgram x.otp op })) := by
  rw [execJtagAccess, if_pos h]

/-- Through an open JTAG port only UART can open anew. -/
theorem lifecycleMoves_open {s : State} (h : debugPortOpen s 1 = true) (u : State) :
    let v := u.onSec fun x => { x with lifecycle := lifecycleOf u, floor := floorOf u }
    let w := v.onSec fun x => { x with debugOpen := debugPortOpen v 1 || debugPortOpen v 2 }
    lifecycleMoves s u = if debugPortOpen v 2 = true ∧ debugPortOpen s 2 = false then fire w (coreSource 21) else w := by
  intro v w
  refine if_congr ?_ rfl rfl
  rw [h, Bool.not_true, Bool.and_false, Bool.false_or, Bool.and_eq_true, Bool.not_eq_true']

/-- Settles O24. Which effects follow the row, and which bytes may be programmed, is in part the model's choice (log entry 62). -/
theorem jtagPrograms : Obligations.JtagPrograms := by
  refine ⟨fun op s h => ?_, fun op s h => ?_, fun m bits a w => memGet_programLifecycle w bits a,
    fun m addr bits a w => memGet_programOtp w bits addr a⟩
  · exact congrArg Host.Outcome.next (if_neg (Bool.eq_false_iff.1 h))
  · intro u v w
    exact (execJtagAccess_open h op).trans (congrArg _ (lifecycleMoves_open h u))

end Sys2Proof.Machine
end

section
/-! The end of a handover (R117 to R120), Drydown Control (R363, R369, R370), Diagnostic Unlock (R614 to R616, R637 to R640) and JTAG
(R554, R620 to R625), case by case. -/
namespace Sys2Proof.Machine

/-! ### The end of a handover (R117 to R120) -/

section
variable {s : State} {c : ClaimRec}

theorem drainedHandover_idle (h : s.own.claim = none ∨ s.own.phase ≠ .handover ∨ s.fh.latch = true) : drainedHandover s = s := by
  unfold drainedHandover
  split
  next => rfl
  next c hc =>
    refine if_neg ?_
    rintro ⟨handover, notSafe, -⟩
    rcases h with h | h | h
    · exact absurd (hc.symm.trans h) (Option.some_ne_none c)
    · exact h handover
    · simp [h] at notSafe

theorem drainedHandover_ends (hc : s.own.claim = some c) (hp : s.own.phase = .handover) (hs : s.fh.latch = false)
    (h : c.t0 + s.policy.handoverDrain * 1000 ≤ s.now ∨ stillTransfers s = false) : drainedHandover s = finishHandover s c := by
  simp only [drainedHandover, hc]
  exact if_pos ⟨hp, by simp [hs], h.imp decide_eq_true fun h => by simp [h]⟩

theorem drainedHandover_waits (hc : s.own.claim = some c) (early : s.now < c.t0 + s.policy.handoverDrain * 1000)
    (transfers : stillTransfers s = true) : drainedHandover s = s := by
  simp only [drainedHandover, hc]
  refine if_neg ?_
  rintro ⟨-, -, late | done⟩
  · exact absurd (of_decide_eq_true late) (Nat.not_le.2 early)
  · simp [transfers] at done

theorem raiseFlushes_own (s : State) (p : PortId) : (raiseFlushes s p).own = s.own := by simp [raiseFlushes]

theorem finishHandover_eq (s : State) (c : ClaimRec) :
    let u := raiseFlushes s s.own.owner
    let v := switchOwner ((u.port s.own.owner).cmds.foldl settleWrite u) c
    let w := releaseHeld (releaseHeld (answerClaim v c) c.port) c.port.other
    finishHandover s c = runHeldOf (runHeldOf w c.port) c.port.other := by
  simp only [finishHandover, raiseFlushes_own]

theorem settleWrite_ended {c : OutCmd} (hu : underWay c = true) (up : linkIsDown (s.port c.port) = false) (hw : whollyIn s c = false) :
    settleWrite s c = failWrite s c .asymmetricAccessTransition := by
  rw [settleWrite, if_neg (by simp [hu]), if_neg (by simp [up]), if_neg (by simp [hw])]

theorem notice_own_journal (s : State) (page : Nat) (again : Bool) :
    (notice s page again).own = s.own ∧ (notice s page again).journal = s.journal := by
  unfold notice
  induction ports s generalizing s with
  | nil => exact ⟨rfl, rfl⟩
  | cons p ps ih => exact ⟨(ih _).1.trans (onPort_own ..), (ih _).2.trans (onPort_journal ..)⟩

theorem dropBuffer_own_journal (s : State) : (dropBuffer s).own = s.own ∧ (dropBuffer s).journal = s.journal := by
  unfold dropBuffer
  split <;> exact ⟨rfl, rfl⟩

theorem endUnlockOf_eq (s : State) (p : PortId) : endUnlockOf s p = s ∨ endUnlockOf s p = endUnlock s := by
  unfold endUnlockOf
  split
  next => split; exacts [.inr rfl, .inl rfl]
  next => exact .inl rfl

/-- The end of an unlock leaves ownership, the ports and the clock alone. -/
theorem endUnlockOf_parts (s : State) (p : PortId) :
    (endUnlockOf s p).own = s.own ∧ (endUnlockOf s p).now = s.now ∧ ∀ q, (endUnlockOf s p).port q = s.port q := by
  rcases endUnlockOf_eq s p with h | h <;> rw [h] <;> exact ⟨rfl, rfl, fun _ => rfl⟩

/-- What the switch of step 6 and 7 writes into OWN. -/
def switchedOwn (s : State) (c : ClaimRec) : Own :=
  { s.own with
    owner := c.port, generation := s.own.generation + 1
    phase := if linkIsDown (s.port c.port) then .linkDown else .held
    downSince := if linkIsDown (s.port c.port) then some s.now else none
    claim := none, lastHandoverUs := s.now - c.t0 }

theorem switchOwner_own (s : State) (c : ClaimRec) : (switchOwner s c).own = switchedOwn s c := by
  obtain ⟨own, now, port⟩ := endUnlockOf_parts s s.own.owner
  simp only [switchOwner, (notice_own_journal _ _ _).1, onBoth_own, (dropBuffer_own_journal _).1, onOwn_own]
  have anchored (f : Anchor → Anchor) :
      (putAnchor (endUnlockOf s s.own.owner) f).own = s.own ∧ (putAnchor (endUnlockOf s s.own.owner) f).now = s.now ∧
        (putAnchor (endUnlockOf s s.own.owner) f).port c.port = s.port c.port := ⟨own, now, port c.port⟩
  simp only [(anchored _).1, (anchored _).2.1, (anchored _).2.2, switchedOwn]

theorem switchOwner_anchor (s : State) (c : ClaimRec) :
    (switchOwner s c).journal.anchor.owner = c.port ∧ (switchOwner s c).journal.anchor.generation = (s.own.generation + 1).toNat := by
  simp only [switchOwner, (notice_own_journal _ _ _).2, onBoth_journal, (dropBuffer_own_journal _).2, onOwn_journal]
  exact ⟨rfl, rfl⟩

end

/-- Settles O20. -/
theorem handoverSwitchesOwner : Obligations.HandoverSwitchesOwner := by
  refine ⟨?ends, fun s h => congrArg _ (drainedHandover_idle h), fun c s hu up hw => settleWrite_ended hu up hw, ?switch⟩
  case ends =>
    intro c s hc hp hs u v w
    exact ⟨fun h => congrArg _ ((drainedHandover_ends hc hp hs h).trans (finishHandover_eq s c)),
      fun early transfers => congrArg _ (drainedHandover_waits hc early transfers)⟩
  case switch =>
    intro c s t
    have own : t.own = switchedOwn s c := switchOwner_own s c
    obtain ⟨owner, generation⟩ := switchOwner_anchor s c
    refine ⟨by rw [own]; rfl, by rw [own]; rfl, by rw [own]; rfl, owner, generation, fun up => ?_, fun down => ?_⟩
    · simp [own, switchedOwn, up]
    · simp [own, switchedOwn, down]

/-! ### Drydown Control (R363, R369, R370, R615) -/

section
variable {s : State} {a : AdminId} {q : VendorReq}

theorem startDrydown_sanitizing (h : s.sec.sanitize ≠ .none) : startDrydown a q s = vendorEnd s a q .drydownNotPermitted :=
  if_pos (by simp [sanitizing, h])

theorem startDrydown_enters (h : s.sec.sanitize = .none) (hm : s.mediaMode ≠ 2) :
    startDrydown a q s = vendorEnd (refuseWaitingWrites (enterDrydown (s.onUpkeep fun u => { u with cursorRepeat := false }))) a q .success
      (BitVec.ofNat 32 (s.upkeep.cursorGen + 1)) := by
  rw [startDrydown, if_neg (by simp [sanitizing, h]), if_neg hm, if_neg (fun h => hm h.1)]

theorem startDrydown_again (h : s.sec.sanitize = .none) (hm : s.mediaMode = 2) :
    startDrydown a q s = vendorEnd s a q .success
      (BitVec.ofNat 32 (if s.upkeep.cursorState = 2 ∨ s.upkeep.cursorRepeat then s.upkeep.cursorGen else s.upkeep.cursorGen + 1)) := by
  rw [startDrydown, if_neg (by simp [sanitizing, h]), if_pos hm]
  simp only [hm, true_and]

theorem stopDrydown_ends (hm : s.mediaMode = 2) (h : preserveCond s = false ∨ s.policy.drydownAuto ≠ 1) :
    stopDrydown a q s = vendorEnd (endDrydown s) a q .success := by
  refine (if_pos hm).trans (if_neg ?_)
  rintro ⟨worn, auto⟩
  exact h.elim (fun h => by simp [h] at worn) (absurd auto)

theorem stopDrydown_kept (hm : s.mediaMode = 2) (worn : preserveCond s = true) (auto : s.policy.drydownAuto = 1) :
    stopDrydown a q s = vendorEnd s a q .drydownNotPermitted := (if_pos hm).trans (if_pos ⟨worn, auto⟩)

theorem stopDrydown_preserve (hm : s.mediaMode = 1) : stopDrydown a q s =
    if preserveCond s then vendorEnd s a q .drydownNotPermitted
    else vendorEnd (putAnchor { s with mediaMode := 0 } fun x => { x with mediaMode := 0 }) a q .success := by
  rw [stopDrydown, if_neg (by omega), if_pos hm]

theorem stopDrydown_normal (hm : s.mediaMode = 0) : stopDrydown a q s = vendorEnd s a q .success := by
  rw [stopDrydown, if_neg (by omega), if_neg (by omega)]

theorem drydownCmd_fresh {token action : Nat} (ha : AdminOpen s a) (hp : s.own.phase ≠ .handover) (ho : s.own.owner = a.port)
    (hq : q = vendorReq token 0xC2 action 0 false []) (fresh : tokenLook (s.port a.port) token 0xC2 q.print = .fresh) (i : Instr)
    (go : VendorReq → State → State) : drydownCmd a token action false i go s = go q s := by
  subst hq
  rw [drydownCmd_open ha, if_neg hp, vendorCmd_fresh ha.2.1 fresh, if_neg Bool.false_ne_true, if_neg (by simp [isOwner_of_owner ho])]

end

/-- Settles O22. -/
theorem drydownControl : Obligations.DrydownControl := by
  intro a token s ha hp ho q r
  refine ⟨fun fresh => ?start, fun fresh => ?stop⟩
  case start =>
    have run : exec (.drydownControlStart a token false) s = .next (startDrydown a q s) :=
      congrArg _ (drydownCmd_fresh ha hp ho rfl fresh _ _)
    exact ⟨fun h => run.trans (congrArg _ (startDrydown_sanitizing h)), fun h hm => run.trans (congrArg _ (startDrydown_enters h hm)),
      fun h hm => run.trans (congrArg _ (startDrydown_again h hm))⟩
  case stop =>
    have run : exec (.drydownControlStop a token false) s = .next (stopDrydown a r s) :=
      congrArg _ (drydownCmd_fresh ha hp ho rfl fresh _ _)
    intro keeps
    exact ⟨fun hm h => run.trans (congrArg _ (stopDrydown_ends hm h)),
      fun hm worn auto => run.trans (congrArg _ (stopDrydown_kept hm worn auto)),
      fun hm worn => run.trans (congrArg _ ((stopDrydown_preserve hm).trans (if_pos worn))),
      fun hm sound => run.trans (congrArg _ ((stopDrydown_preserve hm).trans (if_neg (by simp [sound])))),
      fun hm => run.trans (congrArg _ (stopDrydown_normal hm))⟩

end Sys2Proof.Machine
end

section
/-! The Drydown cursor (R363, R366, R367). A journal record leaves alone every view of the state that looks neither at the journal nor at more of the
media than their dies (`Unjotted`). What the closings and the horizon leave alone of the media mode, of the entry into DRYDOWN and of a halt is the view
`drydownView`: every shared operation that they use keeps it. -/
namespace Sys2Proof.Machine

/-- A fold keeps what each of its steps keeps. -/
theorem foldl_view {α β : Type} (v : State → β) {f : State → α → State} (h : ∀ s x, v (f s x) = v s) (l : List α) (s : State) :
    v (l.foldl f s) = v s := by
  induction l generalizing s with
  | nil => rfl
  | cons x xs ih => exact (ih _).trans (h s x)

/-! ### What a journal record leaves alone

A record goes into the open chunk; a full chunk is closed and programmed into the journal's super-block. Apart from the journal this touches pages, stripes,
super-blocks and channels only. -/

/-- A view of the state that no journal record changes: it does not look at the journal, at the chunks to be programmed again, or at more of the media than
their dies. -/
structure Unjotted {β : Type} (v : State → β) : Prop where
  journal : ∀ s f, v (s.onJournal f) = v s
  chunks : ∀ s (g : Upkeep → List Nat), v (s.onUpkeep fun u => { u with chunkAgain := g u }) = v s
  media : ∀ s f, (∀ m, (f m).dies = m.dies) → v (s.onMedia f) = v s

section
variable {β : Type} {v : State → β} (h : Unjotted v) (s : State)
include h

theorem Unjotted.view_modSb (n : Nat) (f : SuperBlock → SuperBlock) : v (modSb s n f) = v s := h.media s _ fun _ => rfl
theorem Unjotted.view_modChan (n : Nat) (f : Channel → Channel) : v (modChan s n f) = v s := h.media s _ fun _ => rfl
theorem Unjotted.view_modChunk (n : Nat) (f : Chunk → Chunk) : v (modChunk s n f) = v s := h.journal s _

theorem Unjotted.view_programMember (sb : Nat) (t : Stripe) (m : Nat) : v (programMember sb t s m) = v s := by
  unfold programMember
  split
  next => rfl
  next =>
    dsimp only
    split
    next => rfl
    next => exact (h.view_modChan _ _ _).trans ((h.view_modSb _ _ _).trans (h.media s _ fun _ => rfl))

theorem Unjotted.view_programSystem (sb n : Nat) (el : Nat → Element) : v (programSystem s sb n el) = v s := by
  unfold programSystem
  split
  next => rfl
  next => exact (h.view_modSb _ sb _).trans (foldl_view v (fun s _ => foldl_view v (fun s m => h.view_programMember s sb _ m) _ s) _ s)

theorem Unjotted.view_programChunk (sb : Nat) (c : Chunk) : v (programChunk sb s c) = v s := by
  unfold programChunk
  dsimp only
  rw [h.view_modSb, h.media, h.journal, h.view_programSystem]
  exact fun _ => rfl

theorem Unjotted.view_deltaProgram : v (deltaProgram s) = v s := by
  unfold deltaProgram
  split
  next => rfl
  next b _ => exact (foldl_view v (fun s c => h.view_programChunk s b.num c) _ _).trans (h.chunks s _)

theorem Unjotted.view_closeChunk : v (closeChunk s) = v s := by
  unfold closeChunk
  split
  next => rfl
  next n _ => exact (h.view_deltaProgram _).trans ((h.journal _ _).trans (h.view_modChunk s n _))

theorem Unjotted.view_putRecord (n : Nat) (r : Rec) : v (putRecord s n r) = v s := by
  unfold putRecord
  dsimp only
  split
  next => exact (h.view_closeChunk _).trans (h.view_modChunk s n _)
  next => exact h.view_modChunk s n _

theorem Unjotted.view_withOpenChunk : v (withOpenChunk s) = v s := by
  unfold withOpenChunk
  split
  next => exact h.journal s _
  next => rfl

theorem Unjotted.view_putOpen (r : Rec) : v (putOpen s r) = v s := by
  unfold putOpen
  split
  next => rfl
  next n _ => exact h.view_putRecord s n r

theorem Unjotted.view_jot (r : Rec) : v (jot s r) = v s := (h.view_putOpen _ r).trans ((h.view_withOpenChunk _).trans (h.journal s _))

end

/-! ### What closings leave alone -/

/-- What decides whether the entry into DRYDOWN goes on: the media mode, the entry, and a halt. -/
def drydownView (s : State) : Nat × Bool × Bool := (s.mediaMode, s.upkeep.drydownEntry, s.hk.halt)

theorem drydownView_unjotted : Unjotted drydownView where
  journal _ _ := rfl
  chunks _ _ := rfl
  media _ _ _ := rfl

section
variable (s : State)

theorem drydownView_onMedia (f : Media → Media) : drydownView (s.onMedia f) = drydownView s := rfl
theorem drydownView_onPath (f : Path → Path) : drydownView (s.onPath f) = drydownView s := rfl
theorem drydownView_onPort (p : PortId) (f : Port → Port) : drydownView (s.onPort p f) = drydownView s := by cases p <;> rfl
theorem drydownView_onUpkeep {f : Upkeep → Upkeep} (h : (f s.upkeep).drydownEntry = s.upkeep.drydownEntry) :
    drydownView (s.onUpkeep f) = drydownView s := congrArg (fun d => (s.mediaMode, d, s.hk.halt)) h

theorem drydownView_modSb (n : Nat) (f : SuperBlock → SuperBlock) : drydownView (modSb s n f) = drydownView s := drydownView_onMedia s _
theorem drydownView_modDie (n : Nat) (f : Die → Die) : drydownView (modDie s n f) = drydownView s := drydownView_onMedia s _
theorem drydownView_modStripe (sb k : Nat) (f : Stripe → Stripe) : drydownView (modStripe s sb k f) = drydownView s := drydownView_onMedia s _
theorem drydownView_jot (r : Rec) : drydownView (jot s r) = drydownView s := drydownView_unjotted.view_jot s r

theorem drydownView_queueProgram (sb m d : Nat) (closing : Bool) : drydownView (queueProgram s sb m d closing) = drydownView s := by
  unfold queueProgram
  split
  next => rfl
  next =>
    dsimp only
    split
    next => rfl
    next => exact drydownView_modDie s _ _

theorem drydownView_withStripe (sb k : Nat) : drydownView (withStripe s sb k) = drydownView s := by
  unfold withStripe
  split
  next => rfl
  next => exact drydownView_onMedia s _

theorem drydownView_putElement (sb k j : Nat) (e : Element) (closing : Bool) :
    drydownView (putElement s sb k j e closing) = drydownView s := by
  have added : drydownView (modStripe (withStripe s sb k) sb k fun t => addElement t j e) = drydownView s :=
    (drydownView_modStripe _ sb k _).trans (drydownView_withStripe s sb k)
  unfold putElement
  dsimp only
  split
  next =>
    split
    next => exact (foldl_view _ (fun s m => drydownView_queueProgram s sb m _ closing) _ _).trans added
    next => exact added
  next => exact added

theorem drydownView_fillStripe (sb k : Nat) : drydownView (fillStripe s sb k) = drydownView s := by
  have filled (s : State) (j : Nat) : drydownView (putElement (noteFiller s sb k j) sb k j fillerElement true) = drydownView s :=
    (drydownView_putElement (noteFiller s sb k j) sb k j fillerElement true).trans (drydownView_modSb s sb _)
  refine foldl_view _ (fun s j => ?_) _ s
  split
  next =>
    split
    next => exact filled s j
    next => rfl
  next => exact filled s j

theorem drydownView_endStripe (sb k : Nat) : drydownView (endStripe s sb k) = drydownView s := by
  unfold endStripe
  split
  next => exact drydownView_fillStripe _ sb k
  next => rfl

theorem drydownView_addFillers (sb : Nat) (ks : List Nat) : drydownView (addFillers s sb ks) = drydownView s := by
  induction ks generalizing s with
  | nil => rfl
  | cons k ks ih =>
    unfold addFillers
    split
    next => exact (ih _).trans ((drydownView_fillStripe _ sb k).trans (drydownView_modSb s sb _))
    next => exact (ih _).trans (drydownView_modSb s sb _)

theorem drydownView_closeFull (sb : Nat) : drydownView (closeFull s sb) = drydownView s := by
  unfold closeFull
  split
  next => rfl
  next =>
    split
    next => exact (drydownView_modSb _ sb _).trans (drydownView_jot s _)
    next => rfl

theorem drydownView_closeStripes (sb : Nat) (f : Nat → Bool) : drydownView (closeStripes s sb f) = drydownView s := by
  have ended (l : List Nat) : drydownView (l.foldl (fun s k => endStripe s sb k) s) = drydownView s :=
    foldl_view _ (fun s k => drydownView_endStripe s sb k) l s
  unfold closeStripes
  split
  next => rfl
  next =>
    dsimp only
    split
    next => exact ended _
    next => exact (drydownView_closeFull _ sb).trans ((drydownView_addFillers _ sb _).trans (ended _))

theorem drydownView_closeSb (sb : Nat) (qf : Option Nat) : drydownView (closeSb s sb qf) = drydownView s := by
  unfold closeSb
  split
  next => rfl
  next =>
    split
    next => rfl
    next =>
      exact (drydownView_modSb _ sb _).trans
        ((drydownView_jot _ _).trans ((drydownView_closeStripes _ sb _).trans (drydownView_modSb s sb _)))

theorem drydownView_drydownSeal : drydownView (drydownSeal s) = drydownView s := by
  unfold drydownSeal
  split
  next =>
    exact (foldl_view _ (fun s n => drydownView_closeSb s n none) _ _).trans
      (foldl_view _ (fun s n => drydownView_closeStripes s n _) _ s)
  next => rfl

theorem drydownView_ioDone (p : PortId) (sq cid : Nat) (st : Status) (dw0 dw1 : BitVec 32) :
    drydownView (ioDone s p sq cid st dw0 dw1) = drydownView s :=
  (drydownView_onPort _ p _).trans ((drydownView_onPort _ p _).trans (drydownView_onUpkeep s rfl))

theorem drydownView_horizonDone (p : PortId) : drydownView (horizonDone s p) = drydownView s := by
  refine foldl_view _ (fun s c => ?_) _ s
  split
  next =>
    split
    next => exact drydownView_ioDone ..
    next => rfl
  next =>
    split
    next =>
      split
      next =>
        split
        next => exact drydownView_ioDone ..
        next => rfl
      next => rfl
    next => rfl

theorem drydownView_advanceHorizon : drydownView (advanceHorizon s) = drydownView s := by
  have moved (u : State) (h : Nat) : drydownView (horizonDone (horizonDone (jot (u.onPath fun p => { p with horizon := h }) (.horizon h)) .A) .B) =
      drydownView u :=
    (drydownView_horizonDone _ .B).trans ((drydownView_horizonDone _ .A).trans ((drydownView_jot _ _).trans (drydownView_onPath u _)))
  have kept (u : State) (c : Prop) [Decidable c] (h : Nat) : drydownView (if c then u else
      horizonDone (horizonDone (jot (u.onPath fun p => { p with horizon := h }) (.horizon h)) .A) .B) = drydownView u := by
    split
    next => rfl
    next => exact moved u h
  exact (kept _ _ _).trans (drydownView_onPath s _)

end

/-! ### The cursor becomes ready (R363 steps 3 and 4, R366, R367) -/

/-- Nothing of the entry is left once step 3 has gone as far as it goes. -/
def entryOver (s : State) : Prop := s.path.unsealed = [] ∧ s.path.copies = []

theorem cursorIsReady_of_entry {s : State} (hm : s.mediaMode = 2) (he : s.upkeep.drydownEntry = true) (hh : s.hk.halt = false) :
    let u := advanceHorizon (drydownSeal s)
    (entryOver u → cursorIsReady s = notice (u.onUpkeep fun x => { x with
      drydownEntry := false, cursorRepeat := false, cursorState := 2, cursor := cursorExtents u
      cursorGen := if x.cursorRepeat then x.cursorGen else x.cursorGen + 1 }) 0xC5 true) ∧
    (¬entryOver u → cursorIsReady s = u) := by
  intro u
  have view : drydownView u = (2, true, false) := by
    rw [drydownView_advanceHorizon, drydownView_drydownSeal, drydownView, hm, he, hh]
  obtain ⟨mode, entry, halt⟩ : u.mediaMode = 2 ∧ u.upkeep.drydownEntry = true ∧ u.hk.halt = false := by
    simpa [drydownView] using view
  have stops : (u.mediaMode ≠ 2 ∨ (!u.upkeep.drydownEntry) = true ∨ u.hk.halt = true ∨ (!u.path.unsealed.isEmpty) = true ∨
      (!u.path.copies.isEmpty) = true) ↔ ¬entryOver u := by
    simp only [mode, entry, halt, entryOver, Bool.not_eq_true', Bool.not_true, Bool.false_eq_true, ne_eq,
      not_true_eq_false, false_or, List.isEmpty_eq_false_iff, not_and_or]
  exact ⟨fun h => if_neg (mt stops.1 (not_not_intro h)), fun h => if_pos (stops.2 h)⟩

/-- Settles O25: the closings and the horizon leave the entry as it was (`drydownView`), so that only what is left decides. -/
theorem cursorBecomesReady : Obligations.CursorBecomesReady := by
  intro s hm he hh u
  obtain ⟨ready, left⟩ := cursorIsReady_of_entry hm he hh
  refine ⟨fun h1 h2 => congrArg _ (ready ⟨h1, h2⟩), fun h => congrArg _ (left fun e => ?_)⟩
  exact h.elim (absurd e.1) (absurd e.2)

end Sys2Proof.Machine
end

section
/-! The fetch of an I/O command (R70 to R72, R78, R94, R130, R566), case by case. -/
namespace Sys2Proof.Machine

theorem takeCredit_cmds (q : Sq) (pt : Port) : (takeCredit q pt).cmds = pt.cmds := by
  unfold takeCredit
  split <;> rfl

/-- Arbitration accounts for its choice and leaves the port's commands as they are. -/
theorem chooseSq_cmds {pt : Port} {r : Sq × Port} (h : chooseSq pt = some r) : r.2.cmds = pt.cmds := by
  have taken {o : Option Sq} {b : Nat} {l : List Nat} (h : (o.map fun q =>
      (q, takeCredit q { pt with wrrLeft := l, rrPtr := q.id, curSq := q.id, burstLeft := b })) = some r) : r.2.cmds = pt.cmds := by
    obtain ⟨q, -, rfl⟩ := Option.map_eq_some_iff.1 h
    exact takeCredit_cmds q _
  unfold chooseSq at h
  dsimp only at h
  split at h
  next =>
    cases h
    exact takeCredit_cmds _ _
  next =>
    split at h
    next => exact taken h
    next =>
      split at h
      next =>
        cases h
        exact takeCredit_cmds _ _
      next =>
        split at h
        next => cases h
        next => exact taken h

section
variable {s : State} {p : PortId} {q : Sq} {pt : Port} {e : IoEntry} {rest : List IoEntry}

/-- The command that a fetch makes of an entry. -/
def fetchedCmd (p : PortId) (q : Sq) (e : IoEntry) : OutCmd := { port := p, sq := q.id, entry := e, stage := .fetched }

/-- The state once a fetch has taken an entry: it stands last in port order, the link's counts have grown, and the drive is not idle. -/
def tookEntry (s : State) (p : PortId) (q : Sq) (pt : Port) (e : IoEntry) (rest : List IoEntry) : State :=
  ((linkErrors (s.onPort p fun _ => { pt with
    sqs := pt.sqs.map fun x => if x.id = q.id then { x with entries := rest } else x
    cmds := pt.cmds ++ [fetchedCmd p q e], peak := max pt.peak (pt.cmds.length + 1) }) p).onUpkeep fun x => { x with idle := false }).onMisc
      fun m => { m with lastIo := some s.now }

theorem linkErrors_cmds (s : State) (p : PortId) : ((linkErrors s p).port p).cmds = (s.port p).cmds := by cases p <;> rfl

theorem tookEntry_cmds (h : chooseSq (s.port p) = some (q, pt)) :
    ((tookEntry s p q pt e rest).port p).cmds = (s.port p).cmds ++ [fetchedCmd p q e] := by
  have kept : pt.cmds = (s.port p).cmds := chooseSq_cmds h
  refine (linkErrors_cmds _ p).trans ?_
  rw [onPort_port, kept]

/-- A fetch leaves the power state of the drive as it was, so that the state before it says whether the port wakes. -/
theorem wakePs_tookEntry : wakePs (tookEntry s p q pt e rest) p =
    if 3 ≤ s.misc.drivePs then
      takePs ((tookEntry s p q pt e rest).onPort p fun pt => if 3 ≤ pt.selPs then { pt with selPs := pt.lastOpPs } else pt)
    else tookEntry s p q pt e rest := by
  cases p <;> rfl

theorem fetchOne_idle (h : mayFetch s p = false ∨ slotFree s p = false ∨ chooseSq (s.port p) = none) : fetchOne s p = s := by
  unfold fetchOne
  obtain h | h | h := h
  · simp [h]
  · simp [h]
  · simp [h]

/-- What a fetch completes at once, in the order in which the cases are looked at (R70, R78, R566). -/
def endFetch (v : State) (c : OutCmd) : State :=
  if notReady v then ioEnd v c .namespaceNotReady
  else match c.entry.ptr, c.entry.op with
    | .sglOther, _ => ioEnd v c .sglTypeInvalid
    | _, .unsupported _ => ioDone v c.port c.sq c.entry.cid .invalidOpcode
    | _, .dsmOther => ioDone v c.port c.sq c.entry.cid .success
    | _, _ => v

theorem fetchOne_takes (hm : mayFetch s p = true) (hs : slotFree s p = true) (hc : chooseSq (s.port p) = some (q, pt))
    (he : q.entries = e :: rest) : fetchOne s p = endFetch (wakePs (tookEntry s p q pt e rest) p) (fetchedCmd p q e) := by
  unfold fetchOne
  simp only [hm, hs, hc, he, Bool.not_true, Bool.or_self, if_false, Bool.false_eq_true]
  cases p <;> rfl

end

section
variable {v : State} {c : OutCmd}

theorem endFetch_notReady (h : notReady v = true) : endFetch v c = ioEnd v c .namespaceNotReady := if_pos h

variable (h : notReady v = false)
include h

theorem endFetch_sgl (hp : c.entry.ptr = .sglOther) : endFetch v c = ioEnd v c .sglTypeInvalid := by
  simp only [endFetch, h, hp, Bool.false_eq_true, if_false]

theorem endFetch_unsupported (hp : c.entry.ptr ≠ .sglOther) {k : Nat} (ho : c.entry.op = .unsupported k) :
    endFetch v c = ioDone v c.port c.sq c.entry.cid .invalidOpcode := by
  simp only [endFetch, h, ho, Bool.false_eq_true, if_false]

theorem endFetch_dsmOther (hp : c.entry.ptr ≠ .sglOther) (ho : c.entry.op = .dsmOther) :
    endFetch v c = ioDone v c.port c.sq c.entry.cid .success := by
  simp only [endFetch, h, ho, Bool.false_eq_true, if_false]

theorem endFetch_runs (hp : c.entry.ptr ≠ .sglOther) (hu : ∀ k, c.entry.op ≠ .unsupported k) (hd : c.entry.op ≠ .dsmOther) : endFetch v c = v := by
  simp only [endFetch, h, Bool.false_eq_true, if_false]

end

/-- Settles O26. -/
theorem fetchKeepsPortOrder : Obligations.FetchKeepsPortOrder := by
  refine ⟨?taken, fun p s h => congrArg _ (fetchOne_idle h)⟩
  case taken =>
    intro p q pt e rest s hm hs hc he c u v
    have woken : wakePs (tookEntry s p q pt e rest) p = v := wakePs_tookEntry
    have run : exec (.commandFetch p) s = .next (endFetch v c) :=
      congrArg Host.Outcome.next ((fetchOne_takes hm hs hc he).trans (congrArg (endFetch · c) woken))
    exact ⟨tookEntry_cmds hc, fun h => run.trans (congrArg _ (endFetch_notReady h)), fun h hp => run.trans (congrArg _ (endFetch_sgl h hp)),
      fun h hp k ho => run.trans (congrArg _ (endFetch_unsupported h hp ho)),
      fun h hp ho => run.trans (congrArg _ (endFetch_dsmOther h hp ho)),
      fun h hp hu hd => run.trans (congrArg _ (endFetch_runs h hp hu hd))⟩

end Sys2Proof.Machine
end

section
/-! MAP's acceptance, reads and the decision of a write (R75, R99, R117, R131 to R135, R144, R149, R193), case by case. -/
namespace Sys2Proof.Machine

/-! ### Acceptance by MAP (R75, R131, R132) -/

section
variable {s : State} {c : OutCmd} {p : PortId}

theorem readyForMap_iff : readyForMap s p = some c ↔ nextInOrder s p = some c ∧
    (if isWriteOp c.entry.op then c.stage = .admitted ∧ seqAllowed s = true else c.stage = .fetched) := by
  have taken (d : OutCmd) (q : Prop) [Decidable q] : (if q then some d else none) = some c ↔ d = c ∧ q := by
    by_cases hq : q
    · simp [hq]
    · simp [hq]
  unfold readyForMap
  cases nextInOrder s p with
  | none => simp
  | some d =>
    cases hw : isWriteOp d.entry.op with
    | false =>
      simp only [hw, Bool.false_eq_true, if_false, taken, Option.some.injEq]
      exact and_congr_right fun e => by simp [← e, hw]
    | true =>
      simp only [hw, if_true, taken, Option.some.injEq]
      exact and_congr_right fun e => by simp [← e, hw]

/-- MAP's turn: the owner's command that is ready, or else the other port's (R131). -/
def mapsNext (s : State) (c : OutCmd) : Prop :=
  readyForMap s s.own.owner = some c ∨ (readyForMap s s.own.owner = none ∧ readyForMap s s.own.owner.other = some c)

theorem acceptOne_takes (h : mapsNext s c) : acceptOne s = if isWriteOp c.entry.op then acceptWrite s c else acceptRead s c := by
  unfold acceptOne
  obtain h | ⟨h, k⟩ := h
  · rw [h]
  · rw [h, k]

theorem acceptOne_idle (h : readyForMap s s.own.owner = none) (k : readyForMap s s.own.owner.other = none) : acceptOne s = s := by
  unfold acceptOne
  rw [h, k]

theorem acceptOne_read (h : mapsNext s c) (hw : isWriteOp c.entry.op = false) : acceptOne s = acceptRead s c :=
  (acceptOne_takes h).trans (if_neg (Bool.eq_false_iff.1 hw))

theorem acceptOne_write (h : mapsNext s c) (hw : isWriteOp c.entry.op = true) : acceptOne s = acceptWrite s c :=
  (acceptOne_takes h).trans (if_pos hw)

theorem acceptWrite_gone (h : findNs s c.entry.nsid = none) : acceptWrite s c = failWrite s c .invalidNamespace := by
  unfold acceptWrite
  rw [h]

end

/-- Settles O27. -/
theorem mapAcceptsInOrder : Obligations.MapAcceptsInOrder := by
  refine ⟨?taken, fun p c s => readyForMap_iff, fun s h k => congrArg _ (acceptOne_idle h k)⟩
  case taken =>
    intro c s h
    refine ⟨fun hw => congrArg _ (acceptOne_read h hw),
      fun hw hn => congrArg _ ((acceptOne_write h hw).trans (acceptWrite_gone hn)), fun n hw hn => ?number⟩
    case number =>
      refine congrArg Host.Outcome.next ((acceptOne_write h hw).trans ?_)
      unfold acceptWrite
      rw [hn]
      rfl

/-! ### Reads (R134, R157, R287) -/

section
variable {s : State} {c : OutCmd} {p : PortId} {sq cid : Nat}

theorem startRead_refused {st : Status} (h : rangeCheck s c.entry = .inr st) : startRead s c = ioDone s c.port c.sq c.entry.cid st := by
  unfold startRead
  rw [h]

/-- The sub-units of a read that no read-ahead buffer gave (R291). -/
def unserved (s : State) (n : Namespace) (c : OutCmd) : List (Nat × Nat) :=
  (subsOf s n c.entry.op).filter fun x => !(c.subs.any fun h => decide (h.iu = x.1) && decide (h.sub = x.2))

theorem startRead_begins {n : Namespace} (h : rangeCheck s c.entry = .inl n) : startRead s c =
    finishRead (modCmd (selectSubs c n (c.snapshot.getD 0) s (unserved s n c)).1 c.port c.sq c.entry.cid fun x => { x with
      stage := .running, subs := c.subs ++ (selectSubs c n (c.snapshot.getD 0) s (unserved s n c)).2 }) c.port c.sq c.entry.cid := by
  unfold startRead
  rw [h]
  rfl

theorem runRead_accepted (h : findCmd s p sq cid = some c) (hs : c.stage = .accepted) {slba nlb : Nat} (ho : c.entry.op = .read slba nlb) :
    runRead s p sq cid = startRead (trackStream s p c.entry.nsid slba nlb) c := by
  simp only [runRead, h, ho, hs, if_true]

theorem runVerify_accepted (h : findCmd s p sq cid = some c) (hs : c.stage = .accepted) {slba nlb : Nat} (ho : c.entry.op = .verify slba nlb) :
    runVerify s p sq cid = startRead s c := by
  simp only [runVerify, h, ho, hs, if_true]

theorem runRead_left (h : findCmd s p sq cid = some c) (hs : c.stage ≠ .accepted ∨ ∀ a k, c.entry.op ≠ .read a k) : runRead s p sq cid = s := by
  unfold runRead
  simp only [h]
  split
  next a k ho =>
    exact if_neg (hs.resolve_right fun hn => hn a k ho)
  next => rfl

theorem runVerify_left (h : findCmd s p sq cid = some c) (hs : c.stage ≠ .accepted ∨ ∀ a k, c.entry.op ≠ .verify a k) :
    runVerify s p sq cid = s := by
  unfold runVerify
  simp only [h]
  split
  next a k ho =>
    exact if_neg (hs.resolve_right fun hn => hn a k ho)
  next => rfl

theorem runRead_unknown (h : findCmd s p sq cid = none) : runRead s p sq cid = s := by simp only [runRead, h]
theorem runVerify_unknown (h : findCmd s p sq cid = none) : runVerify s p sq cid = s := by simp only [runVerify, h]

end

/-- Settles O28. -/
theorem readAndVerifyRun : Obligations.ReadAndVerifyRun := by
  refine ⟨?accepted, fun p sq cid c s h => ⟨fun hs => congrArg _ (runRead_left h hs), fun hs => congrArg _ (runVerify_left h hs)⟩,
    fun p sq cid s h => ⟨congrArg _ (runRead_unknown h), congrArg _ (runVerify_unknown h)⟩⟩
  case accepted =>
    intro p sq cid slba nlb c s h hs begun
    refine ⟨fun ho => ?read, fun ho => ?verify⟩
    case read =>
      have run : exec (.read p sq cid) s = .next (startRead (trackStream s p c.entry.nsid slba nlb) c) :=
        congrArg Host.Outcome.next (runRead_accepted h hs ho)
      exact ⟨fun n hn => run.trans (congrArg _ (startRead_begins hn)), fun st hr => run.trans (congrArg _ (startRead_refused hr))⟩
    case verify =>
      have run : exec (.verify p sq cid) s = .next (startRead s c) := congrArg Host.Outcome.next (runVerify_accepted h hs ho)
      exact ⟨fun n hn => run.trans (congrArg _ (startRead_begins hn)), fun st hr => run.trans (congrArg _ (startRead_refused hr))⟩

/-! ### What the outstanding commands of a port are after a completion or a change of one -/

theorem findCmd_modCmd {s : State} {p : PortId} {sq cid : Nat} {c : OutCmd} {f : OutCmd → OutCmd} (h : findCmd s p sq cid = some c)
    (hf : ∀ x, sameCmd sq cid (f x) = sameCmd sq cid x) : findCmd (modCmd s p sq cid f) p sq cid = some (f c) := by
  unfold findCmd modCmd at *
  rw [onPort_port, List.find?_map]
  have same : (sameCmd sq cid ∘ fun x => if sameCmd sq cid x then f x else x) = sameCmd sq cid := by
    funext x
    cases hx : sameCmd sq cid x <;> simp [hx, hf]
  rw [same, h]
  simp [List.find?_some h]

theorem postCqe_cmds (s : State) (p : PortId) (e : Cqe) : ((postCqe s p e).port p).cmds = (s.port p).cmds := by
  rw [postCqe, onPort_port]
  obtain ⟨_, _, _, h⟩ := pushCqe_parts (s.port p) e
  rw [h]

theorem findCmd_ioDone (s : State) (p : PortId) (sq cid : Nat) (st : Status) (dw0 dw1 : BitVec 32) :
    findCmd (ioDone s p sq cid st dw0 dw1) p sq cid = none := by
  unfold findCmd ioDone
  rw [postCqe_cmds, dropCmd, onPort_port]
  simp

/-! ### Writes: held, refused and decided (R99, R117, R193, R359) -/

section
variable {s : State} {c : OutCmd} {p : PortId} {sq cid : Nat}

theorem startWrite_held (hs : c.stage = .fetched) (hp : s.own.phase = .handover) (fua : Bool) :
    startWrite s c fua = modCmd s c.port c.sq c.entry.cid fun x => { x with stage := .held } := by
  simp only [startWrite, hs, hp, ne_eq, not_true_eq_false, if_true, if_false]

theorem startWrite_refused (hs : c.stage = .fetched) (hp : s.own.phase ≠ .handover) (ho : s.own.owner ≠ c.port ∨ s.mediaMode ≠ 0) (fua : Bool) :
    startWrite s c fua = ioDone s c.port c.sq c.entry.cid .nsWriteProtected := by
  have stop : (!isOwner s c.port || decide (s.mediaMode ≠ 0)) = true := by
    obtain h | h := ho
    · simp [isOwner_of_observer h]
    · simp [h]
  unfold startWrite
  rw [if_neg (not_not_intro hs), if_neg hp, if_pos stop]

/-- A write that is evaluated acts as FUA where it says so, the volatile write cache is off, or the hold-up is not ready (R79, R373). -/
def marksFua (s : State) (c : OutCmd) (fua : Bool) : State :=
  modCmd s c.port c.sq c.entry.cid fun x => { x with fua := fua || s.path.vwcOff || !s.hk.holdupReady }

section
variable (hs : c.stage = .fetched) (hp : s.own.phase ≠ .handover) (ho : s.own.owner = c.port) (hm : s.mediaMode = 0) (fua : Bool)
include hs hp ho hm

theorem startWrite_outOfRange {st : Status} (hr : rangeCheck s c.entry = .inr st) :
    startWrite s c fua = ioDone s c.port c.sq c.entry.cid st := by
  have runs : ¬(!isOwner s c.port || decide (s.mediaMode ≠ 0)) = true := by simp [isOwner_of_owner ho, hm]
  unfold startWrite
  rw [if_neg (not_not_intro hs), if_neg hp, if_neg runs, hr]

section
variable {n : Namespace} (hr : rangeCheck s c.entry = .inl n)
include hr

theorem startWrite_noHandle (hh : handleOf s n c.entry.op = none) :
    startWrite s c fua = fdpEvent (ioDone s c.port c.sq c.entry.cid .invalidField) 4 0 := by
  have runs : ¬(!isOwner s c.port || decide (s.mediaMode ≠ 0)) = true := by simp [isOwner_of_owner ho, hm]
  unfold startWrite
  simp only [if_neg (not_not_intro hs), if_neg hp, if_neg runs, hr, hh]

variable {h : Nat} (hh : handleOf s n c.entry.op = some h)
include hh

theorem startWrite_decided {u : State} {pls : List IuPlan}
    (hd : decideAll n (hasData c.entry.op) (marksFua s c fua) (coverOf s n (rangesOf c.entry.op)) = some (u, pls)) :
    startWrite s c fua = modCmd (marksFua s c fua) c.port c.sq c.entry.cid fun x => { x with
      stage := .waiting, plans := pls
      need := needOf (marksFua s c fua) (hasData c.entry.op) pls (coverOf s n (rangesOf c.entry.op)) } := by
  have runs : ¬(!isOwner s c.port || decide (s.mediaMode ≠ 0)) = true := by simp [isOwner_of_owner ho, hm]
  unfold startWrite
  unfold marksFua at hd ⊢
  simp only [if_neg (not_not_intro hs), if_neg hp, if_neg runs, hr, hh, hd]

theorem startWrite_undecided (hd : decideAll n (hasData c.entry.op) (marksFua s c fua) (coverOf s n (rangesOf c.entry.op)) = none) :
    startWrite s c fua = if isTurn (marksFua s c fua) c then ioDone (marksFua s c fua) c.port c.sq c.entry.cid .writeFault
      else modCmd (marksFua s c fua) c.port c.sq c.entry.cid fun x => { x with stage := .waiting } := by
  have runs : ¬(!isOwner s c.port || decide (s.mediaMode ≠ 0)) = true := by simp [isOwner_of_owner ho, hm]
  unfold startWrite
  unfold marksFua at hd ⊢
  simp only [if_neg (not_not_intro hs), if_neg hp, if_neg runs, hr, hh, hd]

end
end

section
variable (h : findCmd s p sq cid = some c)
include h

theorem runWrite_of_write {a k : Nat} {fua : Bool} {d : Option Nat} (ho : c.entry.op = .write a k fua d) :
    runWrite s p sq cid = startWrite s c fua := by
  simp only [runWrite, h, ho]

theorem runWriteZeroes_of_writeZeroes {a k : Nat} {d fua : Bool} (ho : c.entry.op = .writeZeroes a k d fua) :
    runWriteZeroes s p sq cid = admitIfFree (startWrite s c fua) p sq cid := by
  simp only [runWriteZeroes, h, ho]

theorem runDeallocate_of_deallocate {rs : List (Nat × Nat)} (ho : c.entry.op = .deallocate rs) :
    runDeallocate s p sq cid = admitIfFree (startWrite s c false) p sq cid := by
  simp only [runDeallocate, h, ho]

theorem admitIfFree_admits (hs : c.stage = .waiting) (hn : c.need = 0) (ht : isTurn s c = true) : admitIfFree s p sq cid = admitWrite s c := by
  simp only [admitIfFree, h]
  exact if_pos ⟨hs, hn, ht⟩

theorem admitIfFree_left (hl : c.stage ≠ .waiting ∨ c.need ≠ 0 ∨ isTurn s c = false) : admitIfFree s p sq cid = s := by
  simp only [admitIfFree, h]
  refine if_neg fun ⟨hs, hn, ht⟩ => ?_
  simp [hs, hn, ht] at hl

end

theorem admitIfFree_unknown (h : findCmd s p sq cid = none) : admitIfFree s p sq cid = s := by simp only [admitIfFree, h]

end

/-- Settles O29: a command without data that is refused is gone, and one that is held no longer waits, so that neither is admitted. -/
theorem writesAreRefusedOrHeld : Obligations.WritesAreRefusedOrHeld := by
  intro p sq cid c s h hp hq hc hs
  subst hp hq hc
  refine ⟨fun ph no => ?refused, fun ph => ?held⟩
  case refused =>
    have e (fua : Bool) := startWrite_refused hs ph no fua
    have gone : findCmd (ioDone s c.port c.sq c.entry.cid .nsWriteProtected) c.port c.sq c.entry.cid = none := findCmd_ioDone ..
    exact ⟨fun a k fua d ho => congrArg _ ((runWrite_of_write h ho).trans (e fua)),
      fun a k d fua ho => congrArg _ ((runWriteZeroes_of_writeZeroes h ho).trans ((e fua).symm ▸ admitIfFree_unknown gone)),
      fun rs ho => congrArg _ ((runDeallocate_of_deallocate h ho).trans ((e false).symm ▸ admitIfFree_unknown gone))⟩
  case held =>
    have e (fua : Bool) := startWrite_held hs ph fua
    have stays : findCmd (modCmd s c.port c.sq c.entry.cid fun x => { x with stage := .held }) c.port c.sq c.entry.cid =
        some { c with stage := .held } := findCmd_modCmd h fun _ => rfl
    have left := admitIfFree_left stays (.inl (by simp))
    exact ⟨fun a k fua d ho => congrArg _ ((runWrite_of_write h ho).trans (e fua)),
      fun a k d fua ho => congrArg _ ((runWriteZeroes_of_writeZeroes h ho).trans ((e fua).symm ▸ left)),
      fun rs ho => congrArg _ ((runDeallocate_of_deallocate h ho).trans ((e false).symm ▸ left))⟩

/-- Settles O30. -/
theorem writesAreDecided : Obligations.WritesAreDecided := by
  refine ⟨?decided, fun p sq cid c s h => ?runs, fun p sq cid c s h =>
    ⟨fun hs hn ht => admitIfFree_admits h hs hn ht, fun hl => admitIfFree_left h hl⟩⟩
  case decided =>
    intro c fua s hs hp ho hm
    refine ⟨fun st hr => startWrite_outOfRange hs hp ho hm fua hr, fun n hr =>
      ⟨fun hh => startWrite_noHandle hs hp ho hm fua hr hh, fun h hh => ⟨?treated, ?inTurn, ?waits⟩⟩⟩
    case treated => exact fun u pls hd => startWrite_decided hs hp ho hm fua hr hh hd
    case inTurn => exact fun hd ht => (startWrite_undecided hs hp ho hm fua hr hh hd).trans (if_pos ht)
    case waits => exact fun hd ht => (startWrite_undecided hs hp ho hm fua hr hh hd).trans (if_neg (Bool.eq_false_iff.1 ht))
  case runs =>
    exact ⟨fun a k fua d ho => congrArg _ (runWrite_of_write h ho), fun a k d fua ho => congrArg _ (runWriteZeroes_of_writeZeroes h ho),
      fun rs ho => congrArg _ (runDeallocate_of_deallocate h ho)⟩

end Sys2Proof.Machine
end

section
/-! Writes from their admission to the release of their flacons, Flush and Seal (R123, R135, R138 to R153, R190 to R216, R360), case by case. -/
namespace Sys2Proof.Machine

/-! ### Admission (R144): staging a write leaves the outstanding commands as they are -/

section
variable (s : State) (p : PortId)

theorem checkUrgent_port : (checkUrgent s).port p = s.port p := rfl

theorem ovlReserve_port (mi sub : Nat) : (ovlReserve s mi sub).port p = s.port p := by
  unfold ovlReserve
  split
  next => rfl
  next => split <;> rfl

theorem allotOverlay_port (h : Nat) (x : FSub) : (allotOverlay s h x).port p = s.port p := rfl

theorem allotWhole_port (h per n : Nat) (ius : List (List FSub)) : (allotWhole h per n s ius).port p = s.port p := by
  induction n generalizing s ius with
  | zero => rfl
  | succ n ih =>
    unfold allotWhole
    split
    next => rfl
    next => exact (ih _ _).trans (onPath_port s _ p)

end

section
variable {n : Namespace} {data : Bool} {p : PortId}

theorem decideIu_port {s t : State} {x : Nat × List (Nat × Nat)} {pl : IuPlan} (h : decideIu s n data x = some (t, pl)) :
    t.port p = s.port p := by
  unfold decideIu at h
  dsimp only at h
  split at h
  next =>
    cases h
    rfl
  next =>
    split at h
    next =>
      cases h
      exact foldl_view (·.port p) (fun s i => ovlReserve_port s p _ i) _ s
    next =>
      split at h
      next => cases h
      next =>
        cases h
        rfl

theorem decideAll_port {s t : State} {cov : List (Nat × List (Nat × Nat))} {pls : List IuPlan}
    (h : decideAll n data s cov = some (t, pls)) : t.port p = s.port p := by
  induction cov generalizing s t pls with
  | nil =>
    cases h
    rfl
  | cons x xs ih =>
    unfold decideAll at h
    split at h
    next => cases h
    next u pl hx =>
      split at h
      next => cases h
      next w pls' hxs =>
        cases h
        exact (ih hxs).trans (decideIu_port hx)

end

section
variable {s : State} {c : OutCmd} {p : PortId}

/-- What an admission takes before the command is admitted: the clean flag is cleared, the units are counted and claimed, and the staged
sub-units have their flacons (R144, R190, R414). -/
def takesUnits (v t : State) (need h : Nat) (staged : List (List FSub)) : State :=
  let t := if t.journal.anchor.clean then putAnchor t fun a => { a with clean := false } else t
  let t := t.onUpkeep fun u => { u with
    hostAdmitted := if u.urgent then u.hostAdmitted + need else u.hostAdmitted, hostUnits := u.hostUnits + need }
  let t := t.onPath fun x => { x with claimed := x.claimed + need }
  let whole := staged.filter fun l => l.any fun x => decide (x.kind = 0)
  let t := allotWhole h (16 / subsPerIu v) whole.length t whole
  (staged.flatten.filter fun x => decide (x.kind = 1)).foldl (fun t x => allotOverlay t h x) t

theorem takesUnits_port (v t : State) (need h : Nat) (staged : List (List FSub)) : (takesUnits v t need h staged).port p = t.port p := by
  have cleared : (if t.journal.anchor.clean then putAnchor t fun a => { a with clean := false } else t).port p = t.port p := by
    split <;> rfl
  exact (foldl_view (·.port p) (fun s x => allotOverlay_port s p h x) _ _).trans ((allotWhole_port _ p _ _ _ _).trans cleared)

theorem admitNext_idle (h : nextInOrder s p = none ∨ ∃ c, nextInOrder s p = some c ∧ c.stage ≠ .waiting) : admitNext s p = s := by
  unfold admitNext
  obtain h | ⟨c, h, hs⟩ := h
  · rw [h]
  · simp only [h]
    exact if_neg hs

theorem admitNext_waiting (h : nextInOrder s p = some c) (hs : c.stage = .waiting) : admitNext s p = admitWrite s c := by
  unfold admitNext
  simp only [h]
  exact if_pos hs

section
variable {n : Namespace} {u : State} {pls : List IuPlan} {h : Nat} (hr : rangeCheck (checkUrgent s) c.entry = .inl n)
  (hd : decideAll n (hasData c.entry.op) (checkUrgent s) (coverOf (checkUrgent s) n (rangesOf c.entry.op)) = some (u, pls))
  (hh : handleOf (checkUrgent s) n c.entry.op = some h)
include hr hd hh

theorem admitWrite_decided : admitWrite s c =
    let v := checkUrgent s
    let cov := coverOf v n (rangesOf c.entry.op)
    let need := needOf v (hasData c.entry.op) pls cov
    let staged := (pls.zip cov).map fun x => stageIu v n (c.port, c.sq, c.entry.cid) (hasData c.entry.op) x.1 x.2.2
    if 0 < need ∧ (admitAvail v < need ∨ 4096 < v.path.flacons.length + flaconsNeeded v h staged) then
      modCmd v c.port c.sq c.entry.cid fun x => { x with stage := .waiting, plans := pls, need := need }
    else modCmd (takesUnits v u need h staged) c.port c.sq c.entry.cid fun x => { x with stage := .admitted, plans := pls, need := need } := by
  unfold admitWrite
  simp only [hr, hd, hh]
  rfl

end
end

/-- Settles O31: staging the write and taking its units leave the port's commands as they are, so that only the admitted one changes. -/
theorem admissionTakesCredits : Obligations.AdmissionTakesCredits := by
  refine ⟨?head, fun p s h => congrArg _ (admitNext_idle h)⟩
  case head =>
    intro p c n h u pls s v cov need staged hn hp hs hr hd hh
    have run : exec (.writeAdmission p) s = .next (admitWrite s c) := congrArg Host.Outcome.next (admitNext_waiting hn hs)
    have decided := admitWrite_decided hr hd hh
    refine ⟨fun fits => ⟨_, run.trans (congrArg Host.Outcome.next (decided.trans (if_neg ?fit))), ?cmds⟩,
      fun pos short => run.trans (congrArg _ (decided.trans ((if_pos ⟨pos, short⟩).trans (congrArg (modCmd v · _ _ _) hp))))⟩
    case fit =>
      rintro ⟨pos, short⟩
      exact fits.elim (Nat.ne_of_gt pos) fun ⟨units, flacons⟩ => short.elim (Nat.not_lt.2 units) (Nat.not_lt.2 flacons)
    case cmds =>
      rw [modCmd, hp, onPort_port, takesUnits_port, decideAll_port hd, checkUrgent_port]

/-! ### Host data and commitment (R140, R147, R151) -/

section
variable {s : State} {c : OutCmd} {p : PortId} {sq cid : Nat}

section
variable (h : findCmd s p sq cid = some c)
include h

theorem placeData_runs (hs : c.stage = .running) (hd : hasData c.entry.op = true) (hp : c.prot = false) (i : Nat) (data : List Blk) (sram : Bool) :
    placeData s p sq cid i data sram = if sram then failWrite s c .dataTransferError
      else modCmd (restage (modFlacon s i fun f => { f with subs := fillSubs s (p, sq, cid) f.subs data }) i) p sq cid
        fun x => { x with dataBegun := true } := by
  simp only [placeData, h]
  exact if_neg (by simp [hs, hd, hp])

theorem placeData_ignored (hl : c.stage ≠ .running ∨ hasData c.entry.op = false ∨ c.prot = true) (i : Nat) (data : List Blk) (sram : Bool) :
    placeData s p sq cid i data sram = s := by
  simp only [placeData, h]
  exact if_pos (by simpa using hl)

theorem protectIfDone_done (hs : c.stage = .running) {n : Nat} (hn : c.seq = some n) (hp : c.prot = false)
    (hc : allCommitted s (p, sq, cid) = true) (ht : trimsLeft s (some n) = false) : protectIfDone s p sq cid = protectWrite s c := by
  simp only [protectIfDone, h]
  exact if_pos (by simp [hs, hn, hp, hc, ht])

theorem protectIfDone_left {n : Nat} (hn : c.seq = some n) (hl : allCommitted s (p, sq, cid) = false ∨ trimsLeft s (some n) = true) :
    protectIfDone s p sq cid = s := by
  simp only [protectIfDone, h]
  refine if_neg fun ⟨_, _, _, hc, ht⟩ => ?_
  obtain hl | hl := hl
  · simp [hl] at hc
  · simp [hn, hl] at ht

end

theorem protectWrite_posted (hf : c.fua = false) {n : Nat} (hn : c.seq = some n) : protectWrite s c =
    advanceHorizon (ioDone (protectSeq ((flaconsOf s (c.port, c.sq, c.entry.cid)).foldl restage
      (modSubs s (c.port, c.sq, c.entry.cid) fun x => { x with prot := true, writer := none })) n)
      c.port c.sq c.entry.cid .success (BitVec.ofNat 32 n)) := by
  simp only [protectWrite, hf, hn, Option.getD_some, Bool.false_eq_true, if_false]

theorem protectWrite_fua (hf : c.fua = true) {n : Nat} (hn : c.seq = some n) : protectWrite s c =
    advanceHorizon (closeIfDue (modCmd (protectSeq ((flaconsOf s (c.port, c.sq, c.entry.cid)).foldl restage
      (modSubs s (c.port, c.sq, c.entry.cid) fun x => { x with prot := true, writer := none })) n)
      c.port c.sq c.entry.cid fun x => { x with prot := true })) := by
  simp only [protectWrite, hf, hn, Option.getD_some, if_true]

theorem commitFlacon_of_one {i : Nat} {w : PortId × Nat × Nat} (h : ((getFlacon s i).subs.filterMap (·.writer)).dedup = [w]) :
    commitFlacon s i = protectIfDone (commitParts s i) w.1 w.2.1 w.2.2 := by
  unfold commitFlacon
  rw [h]
  rfl

end

/-- Settles O32. -/
theorem hostDataIsPlaced : Obligations.HostDataIsPlaced := by
  intro p sq cid i data c s h
  exact ⟨fun hs hd hp => ⟨congrArg _ ((placeData_runs h hs hd hp i data false).trans (if_neg Bool.false_ne_true)),
    congrArg _ ((placeData_runs h hs hd hp i data true).trans (if_pos rfl))⟩,
    fun hl sram => congrArg _ (placeData_ignored h hl i data sram)⟩

/-- Settles O33. -/
theorem flaconCommitProtects : Obligations.FlaconCommitProtects := by
  intro p sq cid i n c s u w v one h hp hq hc hs hn hprot
  subst hp hq hc
  have run : exec (.flaconCommit i) s = .next (protectIfDone u c.port c.sq c.entry.cid) := congrArg Host.Outcome.next (commitFlacon_of_one one)
  have found : findCmd u c.port c.sq c.entry.cid = some c := h
  refine ⟨fun done noTrim => ?durable, fun left => run.trans (congrArg _ (protectIfDone_left found hn left))⟩
  case durable =>
    have e := protectIfDone_done found hs hn hprot done noTrim
    exact ⟨fun hf => run.trans (congrArg _ (e.trans (protectWrite_posted hf hn))),
      fun hf => run.trans (congrArg _ (e.trans (protectWrite_fua hf hn)))⟩

/-! ### Packing (R142, R202, R203, R210, R216) -/

section
variable {s : State} {h n : Nat}

theorem placeFor_slc {b : SuperBlock} (hb : sbWithRoom s .slc h n = some b) : placeFor s h n = some b := by simp only [placeFor, hb]

theorem placeFor_unit {b : SuperBlock} (hs : sbWithRoom s .slc h n = none) (hb : sbWithRoom s .hostRu h n = some b) :
    placeFor s h n = some b := by simp only [placeFor, hs, hb]

theorem placeFor_collection (hs : sbWithRoom s .slc h n = none) (hb : sbWithRoom s .hostRu h n = none) :
    placeFor s h n = if formationAllowed s .hostRu then none else sbWithRoom s .collection h n := by simp only [placeFor, hs, hb]

variable {i : Nat}

theorem packFlacon_left (hl : (getFlacon s i).st ≠ .ready ∨ (getFlacon s i).subs = [] ∨ mediaLive s = false) : packFlacon s i = s :=
  if_pos (by simpa using hl)

/-- The state in which a flacon finds its place: super-blocks are ready to take its slots. -/
def placesMade (s : State) (i : Nat) : State := makePlace s (getFlacon s i).handle (flaconSlots s (getFlacon s i))

/-- The slots of a flacon, packed into a super-block. -/
def packedInto (s : State) (i : Nat) (b : SuperBlock) : Option (State × List Nat) :=
  packFlaconSlots b.num (getFlacon s i) (subsPerIu s) (flaconSlots s (getFlacon s i)) (notePlace (placesMade s i) b (getFlacon s i).handle) []

section
variable (hs : (getFlacon s i).st = .ready) (hu : (getFlacon s i).subs ≠ []) (hm : mediaLive s = true)
include hs hu hm

theorem packFlacon_unplaced (hp : placeFor (placesMade s i) (getFlacon s i).handle (flaconSlots s (getFlacon s i)) = none) :
    packFlacon s i = placesMade s i := by
  refine (if_neg (by simp [hs, hu, hm])).trans ?_
  unfold placesMade at hp
  simp only [hp]
  rfl

variable {b : SuperBlock} (hp : placeFor (placesMade s i) (getFlacon s i).handle (flaconSlots s (getFlacon s i)) = some b)
include hp

theorem packFlacon_full (hf : packedInto s i b = none) : packFlacon s i = placesMade s i := by
  refine (if_neg (by simp [hs, hu, hm])).trans ?_
  unfold packedInto at hf
  unfold placesMade at hp hf
  simp only [hp, hf]
  rfl

theorem packFlacon_packs {u : State} {slots : List Nat} (hf : packedInto s i b = some (u, slots)) :
    packFlacon s i = drydownSeal (formSuccessor (closeIfDue (modFlacon u i fun f => { f with
      st := .packed, place := some { sb := b.num, slots := slots } })) b.num) := by
  refine (if_neg (by simp [hs, hu, hm])).trans ?_
  unfold packedInto at hf
  unfold placesMade at hp hf
  simp only [hp, hf]

end
end

/-- Settles O34. That a flacon is packed whole into one super-block, in as many slots as it needs, is the model's choice (log entry 76). -/
theorem packPlacesFlacon : Obligations.PackPlacesFlacon := by
  refine ⟨fun i s => ⟨fun hs hu hm => ⟨fun b hb => ⟨fun u slots hf => ?packs, fun hf => ?full⟩, fun hp => ?unplaced⟩, fun hl => ?left⟩,
    fun h n s => ⟨fun b => placeFor_slc, fun b => placeFor_unit, placeFor_collection⟩⟩
  case packs => exact congrArg _ (packFlacon_packs hs hu hm hb hf)
  case full => exact congrArg _ (packFlacon_full hs hu hm hb hf)
  case unplaced => exact congrArg _ (packFlacon_unplaced hs hu hm hp)
  case left => exact congrArg _ (packFlacon_left hl)

/-! ### Versions and trims are applied, and flacons released (R138, R143, R149) -/

section
variable {s : State} {i id : Nat}

theorem execVersionApply_held {trim : Bool} (h : rateHeld s trim id = true) : exec (.versionApply trim id) s = .next (fire s (mjSource 4)) :=
  congrArg Host.Outcome.next (if_pos h)

theorem execVersionApply_looks {trim : Bool} (h : rateHeld s trim id = false) :
    exec (.versionApply trim id) s = .next (judgeExposure (applyVersion s trim id)) :=
  congrArg Host.Outcome.next (if_neg (Bool.eq_false_iff.1 h))

/-- A read still has to select a version of an IU of the flacon. -/
def readsHold (s : State) (i : Nat) : Bool := (getFlacon s i).subs.any fun x => reselects s x.nsid x.iu

theorem applyFlacon_applies {pl : Place} (hp : (getFlacon s i).place = some pl) (hs : (getFlacon s i).st = .safe)
    (hr : ringReady s (2 * (getFlacon s i).subs.length) = true) (hsel : selecting s = false) (hh : readsHold s i = false)
    (hm : mediaLive s = true) : applyFlacon s i = advanceHorizon (modFlacon
      ((List.range (getFlacon s i).subs.length).foldl (fun t k => applyAt t (getFlacon s i) pl k) s) i
      fun f => { f with subs := f.subs.map fun x => { x with applied := true } }) := by
  simp only [applyFlacon, hp]
  unfold readsHold at hh
  exact if_neg (by simp [hs, hr, hsel, hh, hm])

theorem applyFlacon_left {pl : Place} (hp : (getFlacon s i).place = some pl) (hl : (getFlacon s i).st ≠ .safe ∨
    ringReady s (2 * (getFlacon s i).subs.length) = false ∨ selecting s = true ∨ readsHold s i = true ∨ mediaLive s = false) :
    applyFlacon s i = s := by
  simp only [applyFlacon, hp]
  unfold readsHold at hl
  exact if_pos (by simpa only [Bool.not_eq_true'] using hl)

section
variable {t : TrimVer} (ht : s.path.trims.find? (fun t => t.id = id) = some t)
include ht

/-- Data of the trim's number is staged and not yet committed. -/
def uncommitted (s : State) (t : TrimVer) : Bool := s.path.flacons.any fun e => e.2.subs.any fun x => decide (x.seq = t.seq) && !x.comm

omit ht in
theorem uncommitted_iff : uncommitted s t = true ↔ ∃ e ∈ s.path.flacons, ∃ x ∈ e.2.subs, x.seq = t.seq ∧ x.comm = false := by
  simp [uncommitted]

theorem applyTrim_waits (hu : uncommitted s t = true) : applyTrim s id = s := by
  unfold applyTrim
  simp only [ht]
  unfold uncommitted at hu
  exact if_pos (by simp [hu])

section
variable (hr : ringReady s (2 * t.subs.length + 1) = true) (hs : selecting s = false) (hh : reselects s t.nsid t.iu = false)
  (hm : mediaLive s = true) (hu : uncommitted s t = false)
include hr hs hh hm hu

theorem applyTrim_protects {c : OutCmd} (hc : cmdOfSeq (trimNow s t) t.seq = some c) :
    applyTrim s id = advanceHorizon (protectIfDone (trimNow s t) c.port c.sq c.entry.cid) := by
  unfold applyTrim
  unfold uncommitted at hu
  simp only [ht, hc]
  exact if_neg (by simp [hr, hs, hh, hm, hu])

theorem applyTrim_alone (hc : cmdOfSeq (trimNow s t) t.seq = none) : applyTrim s id = advanceHorizon (trimNow s t) := by
  unfold applyTrim
  unfold uncommitted at hu
  simp only [ht, hc]
  exact if_neg (by simp [hr, hs, hh, hm, hu])

end
end

theorem forgetApplied_flacons (s : State) (n : Namespace) (iu : Nat) : (forgetApplied s n iu).path.flacons = s.path.flacons := by
  unfold forgetApplied
  dsimp only
  generalize (_ || _ : Bool) = staged
  cases staged <;> rfl

theorem releaseFlacon_frees (hs : (getFlacon s i).st = .safe) (hp : (getFlacon s i).pins = 0)
    (ha : ∀ x ∈ (getFlacon s i).subs, x.applied = true ∨ x.stale = true) :
    (releaseFlacon s i).path.flacons = (modFlacon s i fun _ => {}).path.flacons := by
  have settled : (getFlacon s i).subs.all (fun x => x.applied || x.stale) = true := List.all_eq_true.2 fun x hx => by simpa using ha x hx
  have goes : ¬((getFlacon s i).st ≠ .safe ∨ 0 < (getFlacon s i).pins ∨ (!(getFlacon s i).subs.all fun x => x.applied || x.stale) = true) := by
    simp only [hs, hp, settled, ne_eq, not_true_eq_false, Nat.lt_irrefl, Bool.not_true, Bool.false_eq_true, or_self, not_false_eq_true]
  unfold releaseFlacon
  rw [if_neg goes]
  refine foldl_view (·.path.flacons) (fun s x => ?_) _ _
  split
  next n _ => exact forgetApplied_flacons s n x.2
  next => rfl

theorem releaseFlacon_left (hl : (getFlacon s i).st ≠ .safe ∨ (getFlacon s i).pins ≠ 0 ∨
    ∃ x ∈ (getFlacon s i).subs, x.applied = false ∧ x.stale = false) : releaseFlacon s i = s :=
  if_pos (by simpa [Nat.pos_iff_ne_zero] using hl)

end

/-- Settles O35. That a version waits while an accepted read has still to select, or a read waits for a version of its IU, is log entry 12. -/
theorem versionsApplyAndRelease : Obligations.VersionsApplyAndRelease := by
  refine ⟨?flacon, fun id s => execVersionApply_held, ?trim, fun i s => ⟨fun hs hp ha => ⟨_, rfl, releaseFlacon_frees hs hp ha⟩,
    fun hl => congrArg _ (releaseFlacon_left hl)⟩⟩
  case flacon =>
    intro i pl s hp held
    exact ⟨execVersionApply_held, fun hr hs hg hsel hh hm => (execVersionApply_looks hr).trans
      (congrArg (Host.Outcome.next <| judgeExposure ·) (applyFlacon_applies hp hs hg hsel hh hm)),
      fun hr hl => (execVersionApply_looks hr).trans (congrArg (Host.Outcome.next <| judgeExposure ·) (applyFlacon_left hp hl))⟩
  case trim =>
    intro id t s ht hr hg hs hh hm
    have run (u : State) (h : applyTrim s id = u) : exec (.versionApply true id) s = .next (judgeExposure u) :=
      (execVersionApply_looks hr).trans (congrArg (Host.Outcome.next <| judgeExposure ·) h)
    refine ⟨fun all => ?committed, fun h => run _ (applyTrim_waits ht (uncommitted_iff.2 h))⟩
    case committed =>
      have hu : uncommitted s t = false := by
        rw [Bool.eq_false_iff, ne_eq, uncommitted_iff]
        rintro ⟨e, he, x, hx, hq, hc⟩
        simp [all e he x hx hq] at hc
      exact ⟨fun c hc => run _ (applyTrim_protects ht hg hs hh hm hu hc), fun hc => run _ (applyTrim_alone ht hg hs hh hm hu hc)⟩

/-! ### Flush, Seal and the delay of a Pad (R123, R135, R139, R150, R152, R153) -/

section
variable {s : State} {c : OutCmd} {p : PortId} {sq cid : Nat}

section
variable (h : findCmd s p sq cid = some c)
include h

theorem runFlush_accepted (ho : c.entry.op = .flush) (hs : c.stage = .accepted) : runFlush s p sq cid =
    horizonDone (advanceHorizon (closeIfDue (modCmd s p sq cid fun x => { x with stage := .running }))) p := by
  simp only [runFlush, h, ho, hs, if_true]

theorem runFlush_left (ho : c.entry.op = .flush) (hs : c.stage ≠ .accepted) : runFlush s p sq cid = s := by
  simp only [runFlush, h, ho, hs, if_false]

section
variable {token : Nat} {pad bad : Bool} (ho : c.entry.op = .seal pad token bad)
include ho

theorem runSeal_left (hs : c.stage ≠ .accepted) : runSeal s p sq cid = s := by
  simp only [runSeal, h, ho]
  exact if_pos hs

section
variable (hs : c.stage = .accepted) (fresh : tokenLook (s.port p) token 0x81 (tokenPrint [token, b2n pad, 0, b2n bad, 0, 0] []) = .fresh)
include hs fresh

theorem runSeal_reserved (hb : bad = true) : runSeal s p sq cid =
    sealDone s p sq cid ⟨token, 0x81, tokenPrint [token, b2n pad, 0, b2n bad, 0, 0] [], .invalidField, 0, 0⟩ := by
  simp only [runSeal, h, ho, fresh]
  exact (if_neg (not_not_intro hs)).trans (if_pos hb)

/-- The completion of a Seal: the horizon that MAP_ACCEPT recorded, with the token stored (R123, R152). -/
def sealedAt (s : State) (c : OutCmd) (p : PortId) (sq cid token : Nat) (print : BitVec 32) : State :=
  sealDone s p sq cid ⟨token, 0x81, print, .success, BitVec.ofNat 32 c.sealAt, BitVec.ofNat 32 (c.sealAt / 4294967296)⟩

theorem runSeal_done (hb : bad = false) : runSeal s p sq cid =
    if pad then closeUpTo (sealedAt s c p sq cid token (tokenPrint [token, b2n pad, 0, b2n bad, 0, 0] [])) (c.snapshot.getD 0)
    else sealedAt s c p sq cid token (tokenPrint [token, b2n pad, 0, b2n bad, 0, 0] []) := by
  simp only [runSeal, h, ho, fresh]
  exact (if_neg (not_not_intro hs)).trans (if_neg (Bool.eq_false_iff.1 hb))

end
end

variable {n : Namespace} (hn : findNs s c.entry.nsid = some n)
include hn

theorem endWait_read (hw : isWriteOp c.entry.op = false) (hs : c.stage = .running) :
    endWait s p sq cid = finishRead (reselectRead s c n) p sq cid := by
  simp only [endWait, h, hn, hw, hs, if_true, if_false, Bool.false_eq_true]

theorem endWait_left (hw : isWriteOp c.entry.op = false) (hs : c.stage ≠ .running) : endWait s p sq cid = s := by
  simp only [endWait, h, hn, hw, hs, if_false, Bool.false_eq_true]

theorem endWait_write (hw : isWriteOp c.entry.op = true) : endWait s p sq cid =
    ((s.path.flacons.flatMap fun e => e.2.subs).filter fun x => decide (x.writer = some (p, sq, cid)) && x.waits.isSome).foldl
      (fun s x => fetchOld s c n (c.seq.getD 0) x) (modSubs s (p, sq, cid) fun x => { x with waits := none }) := by
  simp only [endWait, h, hn, hw, if_true]

end

theorem padDelay_idle (h : dropSealed s s.path.unsealed = []) : padDelay s = s := by simp only [padDelay, h]

section
variable {r : SeqRec} {rs : List SeqRec} (h : dropSealed s s.path.unsealed = r :: rs)
include h

theorem padDelay_unprotected (hp : r.protAt = none) : padDelay s = s := by simp only [padDelay, h, hp]

theorem padDelay_protected {t : Nat} (hp : r.protAt = some t) : padDelay s =
    if elapsed s t s.policy.sealPadDelay ∧ stripeIncomplete s r.seq then closeUpTo s r.seq else s := by simp only [padDelay, h, hp]

end
end

/-- Settles O36. -/
theorem flushAndSeal : Obligations.FlushAndSeal := by
  refine ⟨fun p sq cid c s h ho => ⟨fun hs => congrArg _ (runFlush_accepted h ho hs), fun hs => congrArg _ (runFlush_left h ho hs)⟩, ?seals⟩
  case seals =>
    intro p sq cid token pad bad c s h ho print hz done
    exact ⟨fun hs fresh => ⟨fun hb => congrArg _ (runSeal_done h ho hs fresh hb), fun hb => congrArg _ (runSeal_reserved h ho hs fresh hb)⟩,
      fun hs => congrArg _ (runSeal_left h ho hs)⟩

/-- Settles O37. -/
theorem readWaitsAndPadDelay : Obligations.ReadWaitsAndPadDelay := by
  refine ⟨?waits, ?delay, fun s h => congrArg _ (padDelay_idle h)⟩
  case waits =>
    intro p sq cid c n s h hn
    exact ⟨fun hw hs => congrArg _ (endWait_read h hn hw hs), fun hw hs => congrArg _ (endWait_left h hn hw hs),
      fun hw => congrArg _ (endWait_write h hn hw)⟩
  case delay =>
    intro r rs s h
    refine ⟨fun t ht => ⟨fun late part => ?due, fun early => ?early⟩, fun hp => congrArg _ (padDelay_unprotected h hp)⟩
    case due => exact congrArg _ ((padDelay_protected h ht).trans (if_pos ⟨decide_eq_true late, part⟩))
    case early =>
      refine congrArg _ ((padDelay_protected h ht).trans (if_neg fun ⟨late, part⟩ => ?_))
      exact early.elim (Nat.not_lt.2 (of_decide_eq_true late)) fun whole => by simp [whole] at part

end Sys2Proof.Machine
end

section
/-! Doorbells (R30, R59, R71, R503), and the operations of the dies: their start and their grants (R243 to R246, R252, R263, R493, R494), and a counterexample to
the statement about programs and erases. -/
namespace Sys2Proof.Machine

/-! ### Doorbells (R30, R59, R71, R503) -/

section
variable {s : State} {p : PortId} {qid n : Nat}

/-- A doorbell of the admin queue, and one of a port without REFCLK, changes nothing (R30; log entry 7). -/
def doorbellIdle (s : State) (p : PortId) (qid : Nat) : Prop := qid = 0 ∨ (s.port p).refclk = false

theorem ringTail_idle (h : doorbellIdle s p qid) (entries : List IoEntry) : ringTail s p qid n entries = s :=
  if_pos (h.imp_right fun h => by simp [h])

theorem ringHead_idle (h : doorbellIdle s p qid) : ringHead s p qid n = s := if_pos (h.imp_right fun h => by simp [h])

section
variable (hq : qid ≠ 0) (hr : (s.port p).refclk = true)
include hq hr

theorem doorbell_runs : ¬(qid = 0 ∨ (!(s.port p).refclk) = true) := by simp [hq, hr]

theorem ringTail_unknown (h : ∀ q ∈ (s.port p).sqs, q.id ≠ qid) (entries : List IoEntry) :
    ringTail s p qid n entries = fire s (hfeSource p 4) := by
  have none : (s.port p).sqs.find? (fun q => q.id = qid) = none := List.find?_eq_none.2 fun q hq => by simpa using h q hq
  refine (if_neg (doorbell_runs hq hr)).trans ?_
  simp only [none]
  rfl

theorem ringHead_unknown (h : ∀ q ∈ (s.port p).cqs, q.id ≠ qid) : ringHead s p qid n = fire s (hfeSource p 4) := by
  have none : (s.port p).cqs.find? (fun q => q.id = qid) = none := List.find?_eq_none.2 fun q hq => by simpa using h q hq
  refine (if_neg (doorbell_runs hq hr)).trans ?_
  simp only [none]
  rfl

theorem ringTail_known {q : Sq} (h : (s.port p).sqs.find? (fun q => q.id = qid) = some q) (tail : Nat) (entries : List IoEntry) :
    ringTail s p qid tail entries =
      if q.size ≤ tail ∨ q.size ≤ q.entries.length + (tail + q.size - q.tail) % q.size ∨ entries.length ≠ (tail + q.size - q.tail) % q.size then
        fire s (hfeSource p 4)
      else s.onPort p fun pt => { pt with
        sqs := pt.sqs.map fun x => if x.id = qid then { x with tail := tail, entries := x.entries ++ entries } else x } := by
  refine (if_neg (doorbell_runs hq hr)).trans ?_
  simp only [h]
  rfl

theorem ringHead_known {q : Cq} (h : (s.port p).cqs.find? (fun q => q.id = qid) = some q) (head : Nat) :
    ringHead s p qid head =
      if q.size ≤ head ∨ (q.tail + q.size - q.head) % q.size < (head + q.size - q.head) % q.size then fire s (hfeSource p 4)
      else s.onPort p fun pt => postWaiting { pt with cqs := pt.cqs.map fun x => if x.id = qid then { x with head := head } else x } := by
  refine (if_neg (doorbell_runs hq hr)).trans ?_
  simp only [h]
  rfl

end
end

/-- Settles O38. That a doorbell of the admin queue changes nothing is the model's choice (log entry 7). -/
theorem doorbellsMoveQueues : Obligations.DoorbellsMoveQueues := by
  refine ⟨?tail, ?head, fun p qid n entries s hq hr => ⟨fun h => congrArg _ (ringTail_unknown hq hr h entries),
    fun h => congrArg _ (ringHead_unknown hq hr h)⟩, fun p qid n entries s h => ⟨congrArg _ (ringTail_idle h entries), congrArg _ (ringHead_idle h)⟩⟩
  case tail =>
    intro p qid tail entries q s hq hr h n
    have e := ringTail_known hq hr h tail entries
    refine ⟨fun place room len => congrArg _ (e.trans (if_neg ?moves)), fun bad => congrArg _ (e.trans (if_pos ?fires))⟩
    case moves =>
      rintro (h | h | h)
      · omega
      · omega
      · exact h len
    case fires => exact bad.imp_right .inl
  case head =>
    intro p qid head q s hq hr h freed posted
    have e := ringHead_known hq hr h head
    refine ⟨fun place within => congrArg _ (e.trans (if_neg ?frees)), fun bad => congrArg _ (e.trans (if_pos bad))⟩
    case frees => exact not_or.2 ⟨Nat.not_le.2 place, Nat.not_lt.2 within⟩

/-! ### A table after a change of one entry -/

/-- A value that is not the default is read back from any table, canonical or not. -/
theorem tget_tput_of_ne {α : Type} [DecidableEq α] {d v : α} (hv : v ≠ d) (t : Tbl α) (k : Nat) : tget d (tput d t k v) k = v := by
  induction t with
  | nil => simp [tput, tget, hv]
  | cons x r ih =>
    obtain ⟨k', v'⟩ := x
    unfold tput
    split
    next => simp [tget]
    next hk =>
      split
      next => simp [tget]
      next => simp [tget, hk, ih]

section
variable {s : State} {n : Nat}

theorem getDie_modDie {f : Die → Die} (h : f (getDie s n) ≠ {}) : getDie (modDie s n f) n = f (getDie s n) :=
  tget_tput_of_ne h s.media.dies n

theorem getDie_modDie_ne {d : Nat} (h : d ≠ n) (f : Die → Die) : getDie (modDie s n f) d = getDie s d := tget_tmod_other s.media.dies h f

theorem getChan_modChan {f : Channel → Channel} (h : f (getChan s n) ≠ {}) : getChan (modChan s n f) n = f (getChan s n) :=
  tget_tput_of_ne h s.media.chans n

end

/-! ### Starts (R243, R246, R252, R263) -/

/-- What a start marks on jobs, super-blocks and RLT leaves the dies, the channels and the governor as they are. -/
def seqView (s : State) : Tbl Die × Tbl Channel × Hk := (s.media.dies, s.media.chans, s.hk)

section
variable (s : State) (die : Nat) (k : OpKind)

theorem seqView_markFirstPass : seqView (markFirstPass s die k) = seqView s := by
  have marked (sb idx : Nat) : seqView (markFirstPass s die (.program sb idx)) = seqView s := by
    unfold markFirstPass
    dsimp only
    split
    next => rfl
    next => split <;> rfl
  cases k with
  | coarse sb idx => exact marked sb idx
  | program sb idx => exact marked sb idx
  | fine => rfl
  | sense => rfl
  | erase => rfl
  | marginCheck => rfl

theorem seqView_markSense : seqView (markSense s die k) = seqView s := by cases k <;> rfl

theorem seqView_markRunAhead : seqView (markRunAhead s die k) = seqView s := by
  unfold markRunAhead
  split
  next =>
    split
    next => rfl
    next =>
      split
      next => rfl
      next => split <;> rfl
  next => rfl

/-- A die, the time and the governor, as a journal record leaves them. -/
def dieView (s : State) : Tbl Die × Nat × Hk := (s.media.dies, s.now, s.hk)

theorem dieView_unjotted : Unjotted dieView where
  journal _ _ := rfl
  chunks _ _ := rfl
  media s _ h := congrArg (fun d => (d, s.now, s.hk)) (h s.media)

/-- The state in which an operation begins: an erase has journaled its begin record (R247). -/
def begun (s : State) (die : Nat) : OpKind → State
  | .erase b _ _ => jot s (.eraseBegin die b)
  | _ => s

theorem dieView_begun : dieView (begun s die k) = dieView s := by
  cases k with
  | erase b u again => exact dieView_unjotted.view_jot s _
  | coarse => rfl
  | fine => rfl
  | program => rfl
  | sense => rfl
  | marginCheck => rfl

/-- A die as an operation begins on it. -/
def startedDie (s : State) (o : DieOp) (d : Die) : Die := { d with
  busy := some o, queue := d.queue.erase o, runFrom := s.now
  agedServed := if o.cls = 3 then false else if aged s o then true else d.agedServed
  served := if d.susp.isSome && isRead o.kind then d.served + 1 else d.served
  suspends := match o.kind with
    | .erase .. => 0
    | _ => d.suspends }

/-- The die runs the operation. -/
def onDie (s : State) (die : Nat) (o : DieOp) : State := modDie (begun s die o.kind) die (startedDie (begun s die o.kind) o)

theorem beginOp_eq (o : DieOp) :
    beginOp s die o = modChan (onDie s die o) (dieChan die) fun c => { c with lastStart := some (onDie s die o).now } := by
  obtain ⟨kind, cls, queuedAt, granted, waited, ahead⟩ := o
  cases kind <;> rfl

end

section
variable {s : State} {die : Nat} {o : DieOp}

/-- An operation has started: the marks of its start follow its beginning. -/
def started (s : State) (die : Nat) (o : DieOp) : State :=
  markRunAhead (markSense (markFirstPass (beginOp s die o) die o.kind) die o.kind) die o.kind

theorem seqView_started : seqView (started s die o) = seqView (beginOp s die o) :=
  (seqView_markRunAhead _ _ _).trans ((seqView_markSense _ _ _).trans (seqView_markFirstPass _ _ _))

theorem started_parts :
    (getDie (started s die o) die).busy = some o ∧ (getDie (started s die o) die).runFrom = s.now ∧
      (getChan (started s die o) (dieChan die)).lastStart = some s.now ∧ (∀ d, d ≠ die → getDie (started s die o) d = getDie s d) ∧
      (started s die o).hk = s.hk := by
  obtain ⟨dies, chans, hk⟩ : (started s die o).media.dies = (beginOp s die o).media.dies ∧
      (started s die o).media.chans = (beginOp s die o).media.chans ∧ (started s die o).hk = (beginOp s die o).hk := by
    simpa [seqView] using seqView_started (s := s) (die := die) (o := o)
  obtain ⟨dies', now', hk'⟩ : (begun s die o.kind).media.dies = s.media.dies ∧ (begun s die o.kind).now = s.now ∧ (begun s die o.kind).hk = s.hk := by
    simpa [dieView] using dieView_begun s die o.kind
  have same (d : Nat) : getDie (started s die o) d = getDie (onDie s die o) d := by
    rw [getDie, dies, beginOp_eq]
    rfl
  have itself : getDie (started s die o) die = startedDie (begun s die o.kind) o (getDie (begun s die o.kind) die) :=
    (same die).trans (getDie_modDie fun h => by simpa [startedDie] using congrArg Die.busy h)
  have chan : getChan (started s die o) (dieChan die) = { getChan (onDie s die o) (dieChan die) with lastStart := some (onDie s die o).now } := by
    rw [getChan, chans, beginOp_eq]
    exact getChan_modChan fun h => by simpa using congrArg Channel.lastStart h
  refine ⟨by rw [itself, startedDie], by rw [itself, startedDie, now'], by rw [chan]; exact congrArg some now', fun d hd => ?_, hk.trans ?_⟩
  · rw [same, onDie, getDie_modDie_ne hd, getDie, dies', getDie]
  · rw [beginOp_eq]
    exact hk'

theorem startOp_idle (h : nextOp s (getDie s die) = none ∨ ∃ o, nextOp s (getDie s die) = some o ∧ canStart s die o = false) :
    startOp s die = s := by
  unfold startOp
  obtain h | ⟨o, h, hc⟩ := h
  · rw [h]
  · simp only [h, hc, Bool.not_false, if_true]

theorem startOp_of_next (h : nextOp s (getDie s die) = some o) (hc : canStart s die o = true) : startOp s die =
    if o.cls = 1 ∨ o.granted then started s die o
    else if die ∈ s.hk.waiting then s
    else s.onHk fun h => { h with waiting := h.waiting ++ [die] } := by
  unfold startOp
  simp only [h, hc, Bool.not_true, Bool.false_eq_true, if_false]
  rfl

/-! ### Grants (R493, R494) -/

/-- A start leaves what is in use, the active dies and the count of waits as they are. -/
theorem startOp_hk (s : State) (die : Nat) : (startOp s die).hk.inUse = s.hk.inUse ∧ (startOp s die).hk.activeDies = s.hk.activeDies ∧
    (startOp s die).hk.waits = s.hk.waits := by
  cases h : nextOp s (getDie s die) with
  | none =>
    rw [startOp_idle (.inl h)]
    exact ⟨rfl, rfl, rfl⟩
  | some o =>
    cases hc : canStart s die o with
    | false =>
      rw [startOp_idle (.inr ⟨o, h, hc⟩)]
      exact ⟨rfl, rfl, rfl⟩
    | true =>
      rw [startOp_of_next h hc]
      split
      next =>
        obtain ⟨-, -, -, -, hk⟩ := started_parts (s := s) (die := die) (o := o)
        rw [hk]
        exact ⟨rfl, rfl, rfl⟩
      next => split <;> exact ⟨rfl, rfl, rfl⟩

theorem grantOne_none (h : nextGrant s = none) : grantOne s = s.onHk fun h => { h with waiting := [] } := by simp only [grantOne, h]

theorem grantOne_waits (h : nextGrant s = some (die, o)) (hf : grantFits s o = false) :
    grantOne s = s.onHk fun h => { h with waits := satAdd 65535 h.waits 1 } := by
  simp only [grantOne, h, hf, Bool.false_eq_true, if_false]

/-- A request is granted: its weight is in use, its die is active and waits no more, and its operation holds the grant. -/
def granted (s : State) (die : Nat) (o : DieOp) : State :=
  modDie (s.onHk fun h => { h with
    inUse := h.inUse + opWeight s o.kind, activeDies := addOnce die h.activeDies
    waiting := h.waiting.filter (· ≠ die), grantPtr := (dieChan die + 1) % 32 }) die
    fun d => { d with queue := d.queue.map fun x => if x = o then { x with granted := true } else x }

theorem grantOne_fits (h : nextGrant s = some (die, o)) (hf : grantFits s o = true) : grantOne s = startOp (granted s die o) die := by
  simp only [grantOne, h, hf, if_true]
  rfl

theorem grantOne_fits_hk (h : nextGrant s = some (die, o)) (hf : grantFits s o = true) :
    (grantOne s).hk.inUse = s.hk.inUse + opWeight s o.kind ∧ die ∈ (grantOne s).hk.activeDies ∧ (grantOne s).hk.waits = s.hk.waits := by
  obtain ⟨use, active, waits⟩ := startOp_hk (granted s die o) die
  rw [grantOne_fits h hf, use, active, waits]
  exact ⟨rfl, mem_addOnce _ _, rfl⟩

end

/-- Settles O39. -/
theorem dieOperationsStart : Obligations.DieOperationsStart := by
  refine ⟨?starts, fun die s h => congrArg _ (startOp_idle h), fun die o s h => ⟨fun hf => ⟨_, rfl, grantOne_fits_hk h hf⟩,
    fun hf => congrArg _ (grantOne_waits h hf)⟩, fun s h => congrArg _ (grantOne_none h)⟩
  case starts =>
    intro die o s h hc
    have e := startOp_of_next h hc
    refine ⟨fun may => ?runs, fun class1 ungranted new => ?asks, fun class1 ungranted asked => ?asked⟩
    case runs =>
      obtain ⟨busy, run, chan, others, -⟩ := started_parts (s := s) (die := die) (o := o)
      exact ⟨_, congrArg Host.Outcome.next (e.trans (if_pos may)), busy, run, chan, others⟩
    case asks => exact congrArg _ (e.trans ((if_neg (by simp [class1, ungranted])).trans (if_neg new)))
    case asked => exact congrArg _ (e.trans ((if_neg (by simp [class1, ungranted])).trans (if_pos asked)))

/-! ### Programs and erases: a counterexample -/

/-- A read that waits behind an erase and has been counted as one that waits. -/
def waitedRead : DieOp := { kind := .sense 0 0 0 none, cls := 3, queuedAt := 0, waited := true }

/-- An erase of block 3. -/
def runningErase : DieOp := { kind := .erase 3 .hostRu false, cls := 7, queuedAt := 0 }

/-- Die 0 runs an erase that may not be suspended, with a read behind it that has been counted, and the table of the channels lists channel 0
twice, first with the default. No command leaves such a table behind, but the statement holds for every state. -/
def twiceListed : State :=
  { ({} : State) with
    media := { dies := [(0, { busy := some runningErase, queue := [waitedRead] })], chans := [(0, {}), (0, { suspendRefused := 5 })] } }

/-- Refutes O40: its clause on an erase that is not suspended reads back the channel's count of waiting reads. To a channel that is listed with the
default, and twice, no new waiting read is counted; the entry of the default goes, and the second entry, with another count, is read. -/
theorem not_programsAndErasesRun : ¬Obligations.ProgramsAndErasesRun := by
  intro h
  obtain ⟨-, -, suspends, -, -⟩ := h
  obtain ⟨-, waits, -⟩ := suspends 0 3 .hostRu false runningErase twiceListed (by decide) rfl
  obtain ⟨t, run, -, counted⟩ := waits (by decide) (.inl (by decide))
  obtain rfl : suspendErase twiceListed 0 = t := Host.Outcome.next.inj run
  revert counted
  decide

end Sys2Proof.Machine
end

section
/-! Super-blocks are formed and released (R202 to R215, R299, R330, R401), and collection, wear moves, folds and rebuild work (R199 to R211, R317 to R346),
case by case. -/
namespace Sys2Proof.Machine

/-! ### Formation (R202, R203, R210, R215, R299) -/

section
variable {s : State} {u : SbUse} {h : Nat}

theorem exec_form_due (hd : formDue (beforeForm s u) u h = true) : exec (.superBlockFormation u h) s =
    .next (formSb (formBefore (beforeForm s u) u) u (formHandle u h)) := congrArg Host.Outcome.next (if_pos hd)

theorem exec_form_not_due (hd : formDue (beforeForm s u) u h = false) : exec (.superBlockFormation u h) s = .next (beforeForm s u) :=
  congrArg Host.Outcome.next (if_neg (Bool.eq_false_iff.1 hd))

/-- A handle's data waits for a place: a READY flacon of it, or a copy of a fold of its SLC cache (R202, R211). -/
theorem waits_iff : (packWaits s h || groupWaits s (.hostRu, h)) = true ↔ packWaits s h = true ∨ groupWaits s (.hostRu, h) = true :=
  Bool.or_eq_true_iff

theorem unitDue_of_none (ho : openOf s .hostRu h = []) : unitDue s h = (packWaits s h || groupWaits s (.hostRu, h)) := by
  simp only [unitDue, ho]

theorem unitDue_of_one {b : SuperBlock} (ho : openOf s .hostRu h = [b]) : unitDue s h = decide (sbRoom s b * 8 < ruUnits s) := by
  simp only [unitDue, ho]

theorem unitDue_of_more {a b : SuperBlock} {l : List SuperBlock} (ho : openOf s .hostRu h = a :: b :: l) :
    unitDue s h = ((packWaits s h || groupWaits s (.hostRu, h)) && (sbWithRoom s .hostRu h 1).isNone) := by
  simp only [unitDue, ho]

theorem slcDue_iff : slcDue s h = true ↔ packWaits s h = true ∧ openOf s .slc h = [] ∧ slcCount s < slcCacheSize s ∧ slcAllowed s = true := by
  simp [slcDue, and_assoc]

theorem formSb_withheld (hw : freeSbNum s = none ∨ chansGood s < 18 ∨ (pickChans s 18 []).length < 18 ∨ formationAllowed s u = false ∨
    s.journal.anchor.clean = true ∨ mediaLive s = false) : formSb s u h = s := by
  cases hn : freeSbNum s with
  | none => simp only [formSb, hn]
  | some n =>
    simp only [formSb, hn]
    exact if_pos (by simpa [hn] using hw)

end

/-! ### Release and the limit of an open unit (R206, R207, R330, R401) -/

section
variable {s : State} {sb : Nat} {b : SuperBlock} (hb : findSb s sb = some b)
include hb

theorem releaseIfDue_held (hh : b.st ≠ .closed ∨ b.valid ≠ 0 ∨ b.pins ≠ 0 ∨ sbReferenced s b = true ∨ (b.use = .journal ∧ journalSpent s b = false)) :
    releaseIfDue s sb = s := by
  simp only [releaseIfDue, hb]
  exact if_pos (by simpa using hh)

section
variable (hc : b.st = .closed) (hv : b.valid = 0) (hp : b.pins = 0) (hr : sbReferenced s b = false)
include hc hv hp hr

theorem releaseIfDue_data (hu : b.use ≠ .journal) : releaseIfDue s sb = checkUrgent (checkPreserve (releaseSb s sb)) := by
  simp only [releaseIfDue, hb]
  refine (if_neg (by simp [hc, hv, hp, hr, hu])).trans ?_
  rw [if_neg hu]

/-- What the release of a journal super-block forgets: its segments, its chunks that no other holds, and its place in the anchor (R401). -/
def forgetJournalSb (s : State) (sb : Nat) (b : SuperBlock) : State :=
  let held := fun (n : Nat) => s.media.sbs.any fun x => decide (x.use = .journal) && decide (n ∈ x.chunks)
  putAnchor (s.onJournal fun j => { j with
    segments := j.segments.filter fun g => g.sb ≠ sb
    chunks := j.chunks.filter fun c => !(c.inDelta && decide (c.serial ∈ b.chunks) && !held c.serial) })
    fun a => { a with sbs := a.sbs.filter (· ≠ sb) }

omit hb hc hv hp hr in
theorem forgetJournalSb_parts (t : State) : sb ∉ (forgetJournalSb t sb b).journal.anchor.sbs ∧
    (∀ g ∈ (forgetJournalSb t sb b).journal.segments, g.sb ≠ sb) ∧ (forgetJournalSb t sb b).media = t.media := by
  refine ⟨fun h => ?_, fun g hg => ?_, rfl⟩
  · exact of_decide_eq_true (List.mem_filter.1 h).2 rfl
  · exact of_decide_eq_true (List.mem_filter.1 hg).2

theorem releaseIfDue_journal (hu : b.use = .journal) (hs : journalSpent s b = true) :
    releaseIfDue s sb = checkUrgent (checkPreserve (forgetJournalSb (releaseSb s sb) sb b)) := by
  simp only [releaseIfDue, hb]
  refine (if_neg (by simp [hc, hv, hp, hr, hs])).trans ?_
  rw [if_pos hu]
  rfl

end

theorem unitTooOld_eq : unitTooOld s sb =
    if b.use = .hostRu ∧ b.st = .isOpen ∧ s.policy.ruActiveLimit ≠ 0 ∧ elapsed s b.openedAt (s.policy.ruActiveLimit * 3600000000) then
      fdpEvent (fdpEvent (closeUnit s sb none) 2 b.handle) 6 b.handle
    else s := by
  simp only [unitTooOld, hb]

end

/-- Settles O42. That a super-block is formed only for a use that is due one, and none for the refuge, is log entry 45. -/
theorem superBlocksFormAndRelease : Obligations.SuperBlocksFormAndRelease := by
  refine ⟨?forms, fun u h s => formSb_withheld, ?releases, ?limit⟩
  case forms =>
    intro h s form
    have some' {o : Option SuperBlock} (ho : o ≠ none) : o.isNone = false :=
      Option.isNone_eq_false_iff.2 (Option.isSome_iff_ne_none.2 ho)
    refine ⟨fun hn => exec_form_due (by simp [beforeForm, formDue, hn]), fun hn => exec_form_due (by simp [beforeForm, formDue, hn]),
      fun hn => exec_form_not_due (some' hn), fun hn => exec_form_not_due (some' hn), fun hn => exec_form_due (by simp [beforeForm, formDue, hn]),
      fun hn => exec_form_not_due (by simpa [beforeForm, formDue] using hn), rfl, ?host⟩
    intro waits
    refine ⟨fun hw ho => exec_form_due ((unitDue_of_none ho).trans (waits_iff.2 hw)),
      fun hw ho => exec_form_not_due ((unitDue_of_none ho).trans (Bool.eq_false_iff.2 (mt waits_iff.1 hw))),
      fun b ho hr => exec_form_due ((unitDue_of_one ho).trans (decide_eq_true hr)),
      fun b ho hr => exec_form_not_due ((unitDue_of_one ho).trans (decide_eq_false (Nat.not_lt.2 hr))), ?more,
      fun hw ho hc ha => exec_form_due (slcDue_iff.2 ⟨hw, ho, hc, ha⟩), fun hn => exec_form_not_due (Bool.eq_false_iff.2 fun hd => ?slc)⟩
    case more =>
      intro a b l ho
      refine ⟨fun hw hn => exec_form_due ((unitDue_of_more ho).trans ?_), fun hn => exec_form_not_due ((unitDue_of_more ho).trans ?_)⟩
      · rw [waits_iff.2 hw, hn]
        rfl
      · refine Bool.and_eq_false_iff.2 (hn.imp (fun hw => Bool.eq_false_iff.2 (mt waits_iff.1 hw)) some')
    case slc =>
      obtain ⟨hw, ho, hc, ha⟩ := slcDue_iff.1 hd
      obtain k | k | k | k := hn
      · exact Bool.false_ne_true (k.symm.trans hw)
      · exact k ho
      · exact Nat.not_lt.2 k hc
      · exact Bool.false_ne_true (k.symm.trans ha)
  case releases =>
    intro sb b s hb
    refine ⟨fun hu hc hv hp hr => congrArg _ (releaseIfDue_data hb hc hv hp hr hu), fun hu hc hv hp hr hs => ?journal,
      fun hh => congrArg _ (releaseIfDue_held hb hh)⟩
    case journal => exact ⟨_, congrArg Host.Outcome.next (releaseIfDue_journal hb hc hv hp hr hu hs), forgetJournalSb_parts _⟩
  case limit =>
    intro sb b s hb due
    exact ⟨fun hd => congrArg _ ((unitTooOld_eq hb).trans (if_pos hd)), fun hd => congrArg _ ((unitTooOld_eq hb).trans (if_neg hd))⟩

/-! ### Collection, copies, wear moves and folds (R199, R211, R331, R332, R337, R346) -/

section
variable {s : State}

theorem startCollection_takes {b : SuperBlock} (h : upkeepRuns (checkUrgent s) = true ∧ victims (checkUrgent s) < victimLimit (checkUrgent s))
    (hb : nextVictim (checkUrgent s) = some b) :
    startCollection s = modSb (checkUrgent s) b.num fun x => { x with victim := true, copied := 0 } := by
  refine (if_pos h).trans ?_
  rw [hb]

theorem startCollection_left (h : ¬(upkeepRuns (checkUrgent s) = true ∧ victims (checkUrgent s) < victimLimit (checkUrgent s)) ∨
    nextVictim (checkUrgent s) = none) : startCollection s = checkUrgent s := by
  by_cases may : upkeepRuns (checkUrgent s) = true ∧ victims (checkUrgent s) < victimLimit (checkUrgent s)
  · refine (if_pos may).trans ?_
    rw [h.resolve_left (not_not_intro may)]
  · exact if_neg may

section
variable {sb : Nat} {b : SuperBlock} (hb : findSb s sb = some b)
include hb

theorem copyNextUnit_left (h : upkeepRuns s = false ∨ copyKindOf s b = none) : copyNextUnit s sb = s := by
  have none : (if upkeepRuns s then copyKindOf s b else none) = none := by
    obtain h | h := h
    · simp [h]
    · simp [h]
  simp only [copyNextUnit, hb, none]

theorem copyNextUnit_copies {kind : CopyKind} {u : SrcUnit} (hr : upkeepRuns s = true) (hk : copyKindOf s b = some kind) (hs : kind ≠ .scrub)
    (hu : minBy unitKey ((sbUnits s sb).filter fun x => !inCopy s x) = some u) : copyNextUnit s sb = startCopy s kind 7 u := by
  simp only [copyNextUnit, hb, hr, hk, hs, hu, if_true, if_false, false_and]

theorem copyNextUnit_relocates {u : SrcUnit} (hr : upkeepRuns s = true) (hk : copyKindOf s b = some .scrub)
    (hu : minBy unitKey (((sbUnits s sb).filter fun x => !inCopy s x).filter (toRelocate s sb)) = some u)
    (hn : (startCopy s .scrub 7 u).path.copyNext ≠ s.path.copyNext) :
    copyNextUnit s sb = modSb (startCopy s .scrub 7 u) sb fun b => { b with relocated := b.relocated + 1 } := by
  simp only [copyNextUnit, hb, hr, hk, hu, if_true]
  exact if_pos ⟨trivial, hn⟩

theorem foldSlc_eq : foldSlc s sb = if b.use = .slc ∧ b.st = .closed ∧ upkeepRuns s ∧ (s.upkeep.idle ∨ slcOver s) then
    modSb s sb fun x => { x with victim := true } else s := by
  simp only [foldSlc, hb]

end

/-- The spread asks for wear moves (R346). -/
def levelled (s : State) : State := s.onUpkeep fun u => { u with
  levelling := decide (s.policy.wearSpread < eraseSpread s) || (s.upkeep.levelling && decide (s.policy.wearSpread * 3 / 4 < eraseSpread s)) }

/-- A wear move may start (R346, R359). -/
def mayMove (s : State) : Prop :=
  upkeepRuns s = true ∧ s.mediaMode = 0 ∧ gcUrgentNow s = false ∧ s.upkeep.levelling = true ∧ s.upkeep.wearing = none

/-- The least worn collectable super-block (R346). -/
def leastWorn (s : State) : Option SuperBlock :=
  minBy (fun b => sbErases s b * 4294967296 + b.serial) (s.media.sbs.filter (collectable s))

/-- A wear move takes a super-block, once the spread has been looked at. -/
def takeMove (s : State) : State :=
  if upkeepRuns s ∧ s.mediaMode = 0 ∧ !gcUrgentNow s ∧ s.upkeep.levelling ∧ s.upkeep.wearing = none then
    match leastWorn s with
    | some b => modSb (s.onUpkeep fun u => { u with wearing := some b.num }) b.num fun x => { x with copied := 0 }
    | none => s
  else s

theorem startWearMove_eq : startWearMove s = takeMove (levelled s) := rfl

theorem takeMove_moves {b : SuperBlock} (h : mayMove s) (hb : leastWorn s = some b) :
    takeMove s = modSb (s.onUpkeep fun u => { u with wearing := some b.num }) b.num fun x => { x with copied := 0 } := by
  obtain ⟨hr, hm, hg, hl, hw⟩ := h
  refine (if_pos ⟨hr, hm, by simpa using hg, hl, hw⟩).trans ?_
  rw [hb]

theorem takeMove_left (h : ¬mayMove s) : takeMove s = s :=
  if_neg fun ⟨hr, hm, hg, hl, hw⟩ => h ⟨hr, hm, by simpa using hg, hl, hw⟩

section
variable {nsid iu : Nat} {n : Namespace} (hn : findNs s nsid = some n)
include hn

theorem foldIu_eq : foldIu s nsid iu =
    if !upkeepRuns s ∨ !foldDue s (mapIndex s n iu) ∨
        (s.path.copies.any fun c => decide (c.kind = .fold) && decide (c.nsid = nsid) && decide (c.iu = iu) && !c.dead) ∨
        (getMap s (mapIndex s n iu)).poisoned ∨ !copyRoom s (subsPerIu s) then s
    else startFold s n iu := by
  simp only [foldIu, hn]

/-- An IU may be folded: it is due, in no fold, not poisoned, and copies have room (R199, R333). -/
def mayFold (s : State) (n : Namespace) (nsid iu : Nat) : Prop :=
  upkeepRuns s = true ∧ foldDue s (mapIndex s n iu) = true ∧ (∀ c ∈ s.path.copies, c.kind = .fold → c.nsid = nsid → c.iu = iu → c.dead = true) ∧
    (getMap s (mapIndex s n iu)).poisoned = false ∧ copyRoom s (subsPerIu s) = true

omit hn in
theorem mayFold_iff : mayFold s n nsid iu ↔ ¬((!upkeepRuns s) = true ∨ (!foldDue s (mapIndex s n iu)) = true ∨
    (s.path.copies.any fun c => decide (c.kind = .fold) && decide (c.nsid = nsid) && decide (c.iu = iu) && !c.dead) = true ∨
    (getMap s (mapIndex s n iu)).poisoned = true ∨ (!copyRoom s (subsPerIu s)) = true) := by
  simp [mayFold]

theorem foldIu_folds (h : mayFold s n nsid iu) : foldIu s nsid iu = startFold s n iu := (foldIu_eq hn).trans (if_neg (mayFold_iff.1 h))

theorem foldIu_left (h : ¬mayFold s n nsid iu) : foldIu s nsid iu = s :=
  (foldIu_eq hn).trans (if_pos (not_not.1 (mt mayFold_iff.2 h)))

end

/-! ### Rebuild (R317, R319, R322) -/

theorem rebuildStripe_done (h : rebuildUnits s = []) : rebuildStripe s = endRebuild s := if_pos (by simp [h])

/-- Rebuild is under way. -/
def rebuilds (s : State) : State := s.onUpkeep fun u => { u with rebuilding := true }

section
variable (h : rebuildUnits s ≠ [])
include h

theorem rebuildStripe_paused (hr : rebuildRuns (rebuilds s) = false) : rebuildStripe s = rebuilds s := by
  have none : (if rebuildRuns (rebuilds s) then
      minBy (rebuildKey (rebuilds s)) ((rebuildUnits s).filter fun x => !inCopy (rebuilds s) x.2) else none) = none := by simp [hr]
  refine (if_neg (by simp [h])).trans ?_
  unfold rebuilds at none
  simp only [none]
  rfl

theorem rebuildStripe_next {x : SuperBlock × SrcUnit} (hr : rebuildRuns (rebuilds s) = true)
    (hx : minBy (rebuildKey (rebuilds s)) ((rebuildUnits s).filter fun y => !inCopy (rebuilds s) y.2) = some x) :
    rebuildStripe s = ((rebuildUnits s).filter fun y => decide (y.1.num = x.1.num) &&
      decide (unitStripe (rebuilds s) y.2 = unitStripe (rebuilds s) x.2) && !inCopy (rebuilds s) y.2).foldl
        (fun s y => startCopy s .rebuild (rebuildClass s) y.2) (rebuilds s) := by
  have next : (if rebuildRuns (rebuilds s) then
      minBy (rebuildKey (rebuilds s)) ((rebuildUnits s).filter fun y => !inCopy (rebuilds s) y.2) else none) = some x := by rw [if_pos hr, hx]
  refine (if_neg (by simp [h])).trans ?_
  unfold rebuilds at next
  simp only [next]
  rfl

end
end

/-- Settles O43. Class 7 and the closed sources of folds are log entry 43, the exposed notice at the end of a rebuild is 44, the order of idle
victims is 77. -/
theorem collectionAndRebuildWork : Obligations.CollectionAndRebuildWork := by
  refine ⟨fun s => ?idle, fun s => ?collect, ?copy, fun s => ?wear, ?fold, ?slc, fun s h => ?done, fun s h => ?rebuild⟩
  case idle =>
    intro due
    exact ⟨fun hd => congrArg _ (if_pos hd), fun hd => congrArg _ (if_neg hd)⟩
  case collect =>
    intro t may
    exact ⟨fun b hm hb => congrArg _ (startCollection_takes hm hb), fun hn => congrArg _ (startCollection_left hn)⟩
  case copy =>
    intro sb b s hb
    exact ⟨fun kind u hr hk hs hu => congrArg _ (copyNextUnit_copies hb hr hk hs hu),
      fun u hr hk hu hn => congrArg _ (copyNextUnit_relocates hb hr hk hu hn), fun h => congrArg _ (copyNextUnit_left hb h)⟩
  case wear =>
    intro level t may
    exact ⟨fun b hm hb => congrArg Host.Outcome.next (startWearMove_eq.trans (takeMove_moves hm hb)),
      fun hm => congrArg Host.Outcome.next (startWearMove_eq.trans (takeMove_left hm))⟩
  case fold =>
    intro nsid iu n s hn mi may
    exact ⟨fun hm => congrArg _ (foldIu_folds hn hm), fun hm => congrArg _ (foldIu_left hn hm)⟩
  case slc =>
    intro sb b s hb may
    exact ⟨fun hm => congrArg _ ((foldSlc_eq hb).trans (if_pos hm)), fun hm => congrArg _ ((foldSlc_eq hb).trans (if_neg hm))⟩
  case done =>
    have e := rebuildStripe_done h
    refine ⟨fun hr => congrArg _ (e.trans (if_pos ⟨hr, h⟩)), fun hr hd => congrArg _ (e.trans (if_neg fun ⟨hn, _⟩ => ?_))⟩
    simp [hr, hd] at hn
  case rebuild =>
    intro t mine
    exact ⟨fun x hr hx => congrArg _ (rebuildStripe_next h hr hx), fun hr => congrArg _ (rebuildStripe_paused h hr)⟩

end Sys2Proof.Machine
end

section
/-! The journal's own work and recovery (R388, R394, R398, R399, R402, R405, R412 to R414, R566), case by case. -/
namespace Sys2Proof.Machine

/-! ### What a program changes -/

/-- A program of a journal super-block changes the media only. -/
def OnlyMedia (s t : State) : Prop := ∃ m, t = { s with media := m }

section
variable {s t u : State}

theorem OnlyMedia.refl (s : State) : OnlyMedia s s := ⟨s.media, rfl⟩

theorem OnlyMedia.trans (h : OnlyMedia s t) (k : OnlyMedia t u) : OnlyMedia s u := by
  obtain ⟨m, rfl⟩ := h
  obtain ⟨n, rfl⟩ := k
  exact ⟨n, rfl⟩

theorem OnlyMedia.onMedia (s : State) (f : Media → Media) : OnlyMedia s (s.onMedia f) := ⟨f s.media, rfl⟩

theorem OnlyMedia.foldl {α : Type} {f : State → α → State} (h : ∀ s x, OnlyMedia s (f s x)) (l : List α) (s : State) : OnlyMedia s (l.foldl f s) := by
  induction l generalizing s with
  | nil => exact .refl s
  | cons x xs ih => exact (h s x).trans (ih _)

theorem programMember_onlyMedia (sb : Nat) (t : Stripe) (s : State) (m : Nat) : OnlyMedia s (programMember sb t s m) := by
  unfold programMember
  split
  next => exact .refl s
  next =>
    dsimp only
    split
    next => exact .refl s
    next => exact (OnlyMedia.onMedia s _).trans ((OnlyMedia.onMedia _ _).trans (OnlyMedia.onMedia _ _))

theorem programSystem_onlyMedia (s : State) (sb n : Nat) (el : Nat → Element) : OnlyMedia s (programSystem s sb n el) := by
  unfold programSystem
  split
  next => exact .refl s
  next =>
    exact (OnlyMedia.foldl (fun s i => OnlyMedia.foldl (fun s m => programMember_onlyMedia sb _ s m) _ s) _ s).trans (OnlyMedia.onMedia _ _)

end

/-! ### Numbers, chunks and segments (R388, R394, R398, R399, R402) -/

section
variable {s : State}

theorem reserveSeqs_due (hr : Running s) (hn : s.path.ceiling < s.path.nextSeq) : reserveSeqs s =
    (jot s (.seqReserve (s.path.ceiling + 1048576))).onPath fun p => { p with ceiling := s.path.ceiling + 1048576 } :=
  if_neg (by simp [hr.1, hr.2, hn])

theorem reserveSeqs_left (h : ¬Running s ∨ s.path.nextSeq ≤ s.path.ceiling) : reserveSeqs s = s := by
  refine if_pos ?_
  obtain h | h := h
  · by_cases hr : s.run = .running
    · exact .inr (.inl (Bool.not_eq_false _ ▸ fun hl => h ⟨hl, hr⟩))
    · exact .inl hr
  · exact .inr (.inr h)

theorem expireChunk_of_open {c : Chunk} {t : Nat} (hc : s.journal.chunks.find? (fun c => !c.closed) = some c) (ht : c.firstAt = some t) :
    expireChunk s = if mediaLive s && elapsed s t (s.policy.journalFlushMs * 1000) then closeChunk s else s := by
  simp only [expireChunk, hc, ht]

/-- The segment that is due, and where it goes. -/
def dueSeg (s : State) (b : SuperBlock) : Segment := { newSegment s (dueSegment s) b.num with first := b.nextSlot / 4 }

/-- The state in which a segment has been programmed and counted (R398, R399). -/
def segmentWritten (s : State) (b : SuperBlock) : State :=
  countSegment (modSb (programSystem s b.num segmentStripes (segmentElement s (dueSeg s b))) b.num
    fun x => { x with segments := x.segments ++ [dueSegment s] }) (dueSeg s b)

theorem segmentWritten_counts (b : SuperBlock) : ∃ m, segmentWritten s b = countSegment { s with media := m } (dueSeg s b) := by
  obtain ⟨m, h⟩ := (programSystem_onlyMedia s b.num segmentStripes (segmentElement s (dueSeg s b))).trans (OnlyMedia.onMedia _
    fun m => { m with sbs := m.sbs.map fun x => if x.num = b.num then { x with segments := x.segments ++ [dueSegment s] } else x })
  exact ⟨m, congrArg (countSegment · (dueSeg s b)) h⟩

theorem startSegment_due {b : SuperBlock} (hd : segmentDue s = true) (hb : journalSb s = some b) (room : b.nextSlot + 516 ≤ stripesIn s 0 * 4) :
    startSegment s = jot (segmentWritten s b) (.ckptDone (dueSegment s) (dueSeg s b).startChunk (dueSeg s b).startRec b.num
      (b.nextSlot / 4 / diesPerChan s)) := by
  have place : diesPerChan (segmentWritten s b) = diesPerChan s := by
    obtain ⟨m, h⟩ := segmentWritten_counts (s := s) b
    rw [h]
    rfl
  rw [← place]
  unfold startSegment
  simp only [hd, hb, if_true]
  exact if_neg (Nat.not_lt.2 room)

theorem startSegment_none (h : (if segmentDue s then journalSb s else none) = none) : startSegment s = s := by
  unfold startSegment
  simp only [h]

theorem startSegment_left (h : segmentDue s = false ∨ journalSb s = none ∨ ∃ b, journalSb s = some b ∧ stripesIn s 0 * 4 < b.nextSlot + 516) :
    startSegment s = s := by
  cases hd : segmentDue s with
  | false => exact startSegment_none (if_neg (Bool.eq_false_iff.1 hd))
  | true =>
    obtain h | h | ⟨b, hb, full⟩ := h
    · exact Bool.noConfusion (hd.symm.trans h)
    · exact startSegment_none ((if_pos hd).trans h)
    · unfold startSegment
      simp only [hd, hb, if_true]
      exact if_pos full

theorem newSegment_position (i sb : Nat) :
    (∀ c, s.journal.chunks.find? (fun c => !c.closed) = some c →
      (newSegment s i sb).startChunk = c.serial ∧ (newSegment s i sb).startRec = c.recs.length + 1) ∧
    (s.journal.chunks.find? (fun c => !c.closed) = none →
      (newSegment s i sb).startChunk = s.journal.nextSerial ∧ (newSegment s i sb).startRec = 0) := by
  unfold newSegment
  refine ⟨fun c hc => ?_, fun hn => ?_⟩
  · simp only [hc, and_self]
  · simp only [hn, and_self]

theorem countSegment_parts (g : Segment) :
    g ∈ (countSegment s g).journal.segments ∧
    (s.upkeep.segAgain = [] → (countSegment s g).journal.chunksSince = s.journal.chunksSince - 2 ∧
      (countSegment s g).journal.nextSegment = (g.index + 1) % segmentCount s) ∧
    (∀ k l, s.upkeep.segAgain = k :: l → (countSegment s g).upkeep.segAgain = l ∧
      (countSegment s g).journal.chunksSince = s.journal.chunksSince ∧ (countSegment s g).journal.nextSegment = s.journal.nextSegment) := by
  refine ⟨List.mem_append_right _ (List.mem_singleton.2 rfl), fun h => ?_, fun k l h => ?_⟩
  · simp [countSegment, h]
  · simp [countSegment, h]

/-! ### Refuge sets (R413) -/

/-- The refuge set that a number names. -/
def setOf (s : State) (set : Nat) : RefugeSet := if set = 0 then s.journal.setA else s.journal.setB

theorem releaseSet_frees {set : Nat} {f : Flush} (hf : (setOf s set).flush = some f) (hr : Running s) (hs : (setOf s set).st = .inUse)
    (hd : stagedFrom s f.serial = false) : releaseSet s set = refreshRefuge (putAnchor ((setOf s set).blocks.foldl
      (fun s x => queueOp s x.1 (.erase x.2 .refuge false) (eraseClass .refuge))
      (s.onJournal (putSet set { setOf s set with st := .releasing, toErase := (setOf s set).blocks, flush := none }))) id) := by
  unfold releaseSet
  unfold setOf at hf hs
  simp only [hf]
  exact if_neg (by simp [hs, hr.1, hr.2, hd])

theorem releaseSet_left {set : Nat} {f : Flush} (hf : (setOf s set).flush = some f)
    (hl : ¬Running s ∨ (setOf s set).st ≠ .inUse ∨ stagedFrom s f.serial = true) : releaseSet s set = s := by
  unfold releaseSet
  unfold setOf at hf hl
  simp only [hf]
  refine if_pos ?_
  obtain h | h | h := hl
  · by_cases hr : s.run = .running
    · exact .inr (.inr (.inl (Bool.not_eq_false _ ▸ fun hl => h ⟨hl, hr⟩)))
    · exact .inr (.inl hr)
  · exact .inl h
  · exact .inr (.inr (.inr h))

/-! ### The end of recovery (R414, R566) -/

theorem recover_ends {env : RecoveryEnv} (hr : s.run = .recovery) (hl : s.fh.latch = false) (hb : s.boot.stage = 7) :
    recover s env = drydownAgain (sanitizeAgain (takePs (beReady (restore s env) env))) := if_neg (by simp [hr, hl, hb])

theorem recover_left {env : RecoveryEnv} (h : s.run ≠ .recovery ∨ s.fh.latch = true ∨ s.boot.stage ≠ 7) : recover s env = s := if_pos h

theorem restore_clears {env : RecoveryEnv} (h : s.journal.anchor.clean = true) : (restore s env).journal.anchor.clean = false := by
  unfold restore
  simp only [h, if_true]
  rfl

theorem dueOn_rdy (pt : Port) (page : Nat) (again : Bool) : (dueOn pt page again).rdy = pt.rdy := by
  have answered (q : Port) (cid : Nat) : (answerAer q page cid).rdy = q.rdy := by
    obtain ⟨_, _, _, h⟩ := pushCqe_parts { q with aers := q.aers.tail }
      { sq := 0, cid := cid, status := .success, dnr := false, dw0 := noticeDw0 page, dw1 := 0 }
    rw [answerAer, h]
  have blocked : (if 0xC0 ≤ page then { pt with blocked := addOnce page pt.blocked } else pt).rdy = pt.rdy := by split <;> rfl
  unfold dueOn
  split
  next => rfl
  next =>
    dsimp only
    split
    next => exact blocked
    next => exact (answered _ _).trans blocked

theorem notice_rdy (s : State) (page : Nat) (again : Bool) (q : PortId) : ((notice s page again).port q).rdy = (s.port q).rdy := by
  refine foldl_view (fun s => (s.port q).rdy) (fun s p => ?_) _ s
  by_cases hq : q = p
  · rw [hq, onPort_port]
    exact dueOn_rdy _ _ _
  · rw [onPort_port_ne s _ hq]

theorem notice_run_stage (s : State) (page : Nat) (again : Bool) : (notice s page again).run = s.run ∧ (notice s page again).boot = s.boot :=
  ⟨foldl_view State.run (fun s p => onPort_run s p _) _ s, foldl_view State.boot (fun s p => onPort_boot s p _) _ s⟩

theorem phaseAtStart_ports (s : State) (p : PortId) : (phaseAtStart s).port p = s.port p := by
  unfold phaseAtStart
  dsimp only
  split <;> rfl

theorem phaseAtStart_run (s : State) : (phaseAtStart s).run = s.run := by
  unfold phaseAtStart
  dsimp only
  split <;> rfl

/-- The drive as recovery leaves it, before the notice that it was late (R566). -/
def readied (s : State) (env : RecoveryEnv) : State :=
  (((refreshRefuge (phaseAtStart { s with run := .running })).onBoth fun p => { p with rdy := p.ccEn }).onBoot fun b => { b with
    stage := 8, ready10ms := min 65535 ((b.preMs + env.tookMs) / 10), lateRdy := false }).onJournal fun j => { j with recMs := min 65535 env.tookMs }

theorem refreshRefuge_run (s : State) : (refreshRefuge s).run = s.run := rfl
theorem refreshRefuge_port (s : State) (p : PortId) : (refreshRefuge s).port p = s.port p := rfl

theorem readied_parts (env : RecoveryEnv) : (readied s env).run = .running ∧ (readied s env).boot.stage = 8 ∧
    ∀ p, ((readied s env).port p).rdy = (s.port p).ccEn := by
  refine ⟨?_, rfl, fun p => ?_⟩
  · simp only [readied, onJournal_run, onBoot_run, onBoth_run, refreshRefuge_run, phaseAtStart_run]
  · simp only [readied, onJournal_port, onBoot_port, onBoth_port, refreshRefuge_port, phaseAtStart_ports]
    cases p <;> rfl

theorem beReady_cases (env : RecoveryEnv) : beReady s env = readied s env ∨ beReady s env = notice (readied s env) 0xC0 := by
  unfold beReady
  dsimp only
  split
  next => exact .inr rfl
  next => exact .inl rfl

theorem beReady_parts (env : RecoveryEnv) : (beReady s env).run = .running ∧ (beReady s env).boot.stage = 8 ∧
    ∀ p, ((beReady s env).port p).rdy = (s.port p).ccEn := by
  obtain ⟨run, stage, rdy⟩ := readied_parts (s := s) env
  obtain h | h := beReady_cases (s := s) env
  · rw [h]
    exact ⟨run, stage, rdy⟩
  · obtain ⟨run', boot'⟩ := notice_run_stage (readied s env) 0xC0 false
    rw [h, run', boot']
    exact ⟨run, stage, fun p => (notice_rdy _ _ _ p).trans (rdy p)⟩

end

/-- Settles O45. That a segment is written whole in the one step, and CKPT_DONE with it, is the model's choice (log entry 8). -/
theorem journalAndRecoveryWork : Obligations.JournalAndRecoveryWork := by
  refine ⟨⟨fun s => ⟨fun hr hn => congrArg _ (reserveSeqs_due hr hn), fun h => congrArg _ (reserveSeqs_left h)⟩, ?chunk, ?segment,
    fun s h => congrArg _ (startSegment_left h), ?refuge⟩, ?recovers, fun env s => beReady_parts env, fun env s h => congrArg _ (recover_left h), ?late⟩
  case chunk =>
    intro c t s hc ht
    have e := expireChunk_of_open hc ht
    exact ⟨fun hl hd => congrArg _ (e.trans (if_pos (Bool.and_eq_true_iff.2 ⟨hl, hd⟩))),
      fun h => congrArg _ (e.trans (if_neg (Bool.eq_false_iff.1 (Bool.and_eq_false_iff.2 h))))⟩
  case segment =>
    intro b s hd hb room i
    obtain ⟨m, h⟩ := segmentWritten_counts (s := s) b
    obtain ⟨listed, turn, again⟩ := countSegment_parts (s := { s with media := m }) (dueSeg s b)
    obtain ⟨inChunk, newChunk⟩ := newSegment_position (s := s) (dueSegment s) b.num
    refine ⟨segmentWritten s b, dueSeg s b, congrArg Host.Outcome.next (startSegment_due hd hb room), ?_⟩
    rw [h]
    refine ⟨listed, rfl, rfl, rfl, rfl, inChunk, newChunk, fun none => ⟨?_, turn none⟩, fun k l some => ⟨?_, again k l some⟩⟩
    · simp only [i, dueSegment, none, List.head?_nil, Option.getD_none]
    · simp only [i, dueSegment, some, List.head?_cons, Option.getD_some]
  case refuge =>
    intro set f s r hf
    exact ⟨fun hr hs hd => congrArg _ (releaseSet_frees hf hr hs hd), fun h => congrArg _ (releaseSet_left hf h)⟩
  case recovers => exact fun env s hr hl hb => ⟨congrArg _ (recover_ends hr hl hb), restore_clears⟩
  case late =>
    intro p s due
    refine ⟨fun ⟨hr, hc, hn, ht⟩ => congrArg _ (if_pos ⟨hr, hc, by simpa using hn, ht⟩), fun h => congrArg _ (if_neg fun ⟨hr, hc, hn, ht⟩ => ?_)⟩
    exact h ⟨hr, hc, by simpa using hn, ht⟩

end Sys2Proof.Machine
end

section
/-! Supplies, POR_N and PWR_FAIL_N (R371, R376, R382, R384, R524, R543 to R549, R558), case by case. -/
namespace Sys2Proof.Machine

/-! ### Supplies and pins -/

section
variable {s : State}

theorem suppliesRise_on (h : s.run = .inReset) (env : StartEnv) (board : List (Nat × BitVec 8)) : suppliesRise s env board =
    if s.boot.porLow then { sampleStraps (boardWrites s board) env with run := .porHeld }
    else startUp (sampleStraps (boardWrites s board) env) env 0 := by
  have pin : (sampleStraps (boardWrites s board) env).boot.porLow = s.boot.porLow := by
    unfold sampleStraps
    cases h : s.boot.strapsSampled <;> simp [boardWrites, h]
  rw [← pin]
  exact if_neg (not_not_intro h)

theorem suppliesRise_left (h : s.run ≠ .inReset) (env : StartEnv) (board : List (Nat × BitVec 8)) : suppliesRise s env board = s := if_pos h

/-- The controller works, so that a power failure is answered (R371, R384, R525). -/
def answersFailure (s : State) : Prop := (s.run = .running ∨ s.run = .recovery ∨ s.run = .subsystemReset) ∧ s.fh.latch = false

/-- A power failure has been noted. -/
def failureNoted (s : State) : State := s.onJournal fun j => { j with pwrFail := true }

theorem flushNeeded_iff : flushNeeded s = true ↔ s.journal.pls = 1 ∧ s.journal.anchor.clean = false := by simp [flushNeeded]

theorem pwrFailLow_answers (h : answersFailure s) : pwrFailLow s = powerFails (failureNoted s) := by
  obtain ⟨h | h | h, hl⟩ := h
  all_goals
    unfold pwrFailLow
    dsimp only [onJournal_run]
    rw [h]
    exact if_neg (Bool.eq_false_iff.1 hl)

theorem pwrFailLow_notes (h : ¬answersFailure s) : pwrFailLow s = failureNoted s := by
  have held (hr : s.run = .running ∨ s.run = .recovery ∨ s.run = .subsystemReset) : s.fh.latch = true :=
    Bool.not_eq_false _ ▸ fun hl => h ⟨hr, hl⟩
  unfold pwrFailLow
  dsimp only [onJournal_run]
  split
  next hr => exact if_pos (held (.inl hr))
  next hr => exact if_pos (held (.inr (.inl hr)))
  next hr => exact if_pos (held (.inr (.inr hr)))
  next => rfl

theorem powerFails_flushes (hp : s.journal.pls = 1) (hc : s.journal.anchor.clean = false) :
    powerFails s = { beginFlush s 1 with run := .flushing } := if_pos (flushNeeded_iff.2 ⟨hp, hc⟩)

theorem powerFails_idles (h : s.journal.pls ≠ 1 ∨ s.journal.anchor.clean = true) : powerFails s = { noFlush s with run := .idle } :=
  if_neg fun hf => by
    obtain ⟨hp, hc⟩ := flushNeeded_iff.1 hf
    simp [hp, hc] at h

/-- The flush has ended; in SAFE its cause is kept (R382, R524). -/
def flushOver (s : State) : State :=
  if (endFlush s).fh.latch then (endFlush s).onBoot fun b => { b with prevSafe := (endFlush s).fh.safe } else endFlush s

theorem flushEnds_eq (h : s.journal.pls = 2) : flushEnds s = if (flushOver s).journal.porAfter then holdInReset (flushOver s)
    else if (flushOver s).run = .safe then flushOver s else { flushOver s with run := .idle } := if_neg (not_not_intro h)

theorem flushEnds_left (h : s.journal.pls ≠ 2) : flushEnds s = s := if_pos h

/-! ### POR_N (R546, R549) -/

/-- The pin is low. -/
def porIsLow (s : State) : State := s.onBoot fun b => { b with porLow := true }

theorem porFalls_low (h : s.boot.porLow = true) : porFalls s = s := if_pos h

section
variable (h : s.boot.porLow = false)
include h

theorem porFalls_inReset (hr : s.run = .inReset ∨ s.run = .porHeld) : porFalls s = porIsLow s := by
  refine (if_neg (Bool.eq_false_iff.1 h)).trans ?_
  dsimp only [onBoot_run]
  obtain hr | hr := hr
  · rw [hr]
    rfl
  · rw [hr]
    rfl

theorem porFalls_flushing (hr : s.run = .flushing) : porFalls s = (porIsLow s).onJournal fun j => { j with porAfter := true } := by
  refine (if_neg (Bool.eq_false_iff.1 h)).trans ?_
  dsimp only [onBoot_run]
  rw [hr]
  rfl

theorem porFalls_works (h1 : s.run ≠ .inReset) (h2 : s.run ≠ .porHeld) (h3 : s.run ≠ .flushing) : porFalls s =
    if s.journal.pls = 2 then (porIsLow s).onJournal fun j => { j with porAfter := true }
    else if s.fh.latch ∨ !flushNeeded (porIsLow s) then holdInReset (porIsLow s)
    else ({ beginFlush (porIsLow s) 1 with run := .flushing }).onJournal fun j => { j with porAfter := true } := by
  refine (if_neg (Bool.eq_false_iff.1 h)).trans ?_
  dsimp only [onBoot_run]
  split
  next hr => exact absurd hr h1
  next hr => exact absurd hr h2
  next hr => exact absurd hr h3
  next => rfl

end

section
variable (env : StartEnv) (board : List (Nat × BitVec 8))

theorem porRises_held (h : s.run = .porHeld) :
    porRises s env board = startUp ((boardWrites s board).onBoot fun b => { b with porLow := false }) env s.boot.nextCause := by
  unfold porRises
  rw [h]
  rfl

theorem porRises_inReset (h : s.run = .inReset) : porRises s env board = (boardWrites s board).onBoot fun b => { b with porLow := false } := by
  unfold porRises
  rw [h]

theorem porRises_left (h1 : s.run ≠ .porHeld) (h2 : s.run ≠ .inReset) : porRises s env board = s := by
  unfold porRises
  split
  next hr => exact absurd hr h1
  next hr => exact absurd hr h2
  next => rfl

end
end

/-- Settles O46. A restart with the straps kept is log entry 19; that a pin's release changes nothing but its note elsewhere is log entry 58. -/
theorem powerFailsAndReturns : Obligations.PowerFailsAndReturns := by
  refine ⟨?supplies, fun s => rfl, fun s => ?fails, fun s => ?flushed, ?release, fun s hp => ?por, fun s h => congrArg _ (porFalls_low h), ?rises, ?waited⟩
  case supplies =>
    intro env board s
    exact ⟨fun h hp => congrArg _ ((suppliesRise_on h env board).trans (if_neg (Bool.eq_false_iff.1 hp))),
      fun h hp => congrArg _ ((suppliesRise_on h env board).trans (if_pos hp)), fun h => congrArg _ (suppliesRise_left h env board)⟩
  case fails =>
    intro u works
    exact ⟨fun hw hp hc => congrArg Host.Outcome.next ((pwrFailLow_answers hw).trans (powerFails_flushes hp hc)),
      fun hw h => congrArg Host.Outcome.next ((pwrFailLow_answers hw).trans (powerFails_idles h)), fun hw => congrArg _ (pwrFailLow_notes hw)⟩
  case flushed =>
    intro e f
    refine ⟨fun h hp => congrArg _ ((flushEnds_eq h).trans (if_pos hp)),
      fun h hp hr => congrArg _ ((flushEnds_eq h).trans ((if_neg (Bool.eq_false_iff.1 hp)).trans (if_pos hr))),
      fun h hp hr => congrArg _ ((flushEnds_eq h).trans ((if_neg (Bool.eq_false_iff.1 hp)).trans (if_neg hr))),
      fun h => congrArg _ (flushEnds_left h)⟩
  case release =>
    intro env s u
    exact ⟨fun h => congrArg Host.Outcome.next (if_pos h), fun h => congrArg Host.Outcome.next (if_neg h)⟩
  case por =>
    intro u after
    refine ⟨fun hr => congrArg _ (porFalls_inReset hp hr), fun hr => ?flushes, fun h1 h2 h3 h4 => ?works⟩
    case flushes =>
      obtain hr | ⟨h1, h2, h4⟩ := hr
      · exact congrArg _ (porFalls_flushing hp hr)
      · by_cases h3 : s.run = .flushing
        · exact congrArg _ (porFalls_flushing hp h3)
        · exact congrArg _ ((porFalls_works hp h1 h2 h3).trans (if_pos h4))
    case works =>
      have e := (porFalls_works hp h1 h2 h3).trans (if_neg h4)
      refine ⟨fun hl h1 hc => congrArg _ (e.trans (if_neg ?needed)), fun h => congrArg _ (e.trans (if_pos ?notNeeded))⟩
      case needed =>
        have flush : flushNeeded (porIsLow s) = true := flushNeeded_iff.2 ⟨h1, hc⟩
        simp [hl, flush]
      case notNeeded =>
        refine h.imp_right fun h => ?_
        by_cases hf : flushNeeded (porIsLow s) = true
        · obtain ⟨hp, hc⟩ := flushNeeded_iff.1 hf
          exact absurd h (not_or.2 ⟨not_not_intro hp, Bool.eq_false_iff.1 hc⟩)
        · simpa using hf
  case rises =>
    intro env board s u
    exact ⟨fun h => congrArg _ (porRises_held env board h), fun h => congrArg _ (porRises_inReset env board h),
      fun h1 h2 => congrArg _ (porRises_left env board h1 h2)⟩
  case waited =>
    intro env s
    exact ⟨fun h => congrArg Host.Outcome.next (if_pos h), fun h => congrArg Host.Outcome.next (if_neg h)⟩

end Sys2Proof.Machine
end

section
/-! Shutdown, NVM subsystem reset and power states (R73, R92 to R95, R159, R251, R414, R525, R567, R568), and the pins, links and controllers of the ports (R30,
R54 to R66, R97, R103, R106, R119, R160, R499, R547, R548, R561), case by case. -/
namespace Sys2Proof.Machine

/-! ### Shutdown (R414, R567) -/

section
variable {s : State} {p : PortId}

theorem notifyShutdown_left (h : hfeRuns s p = false ∨ (s.port p).ccEn = false) : notifyShutdown s p = s := by
  refine if_pos ?_
  obtain h | h := h
  · simp [h]
  · simp [h]

theorem notifyShutdown_runs (hr : hfeRuns s p = true) (hc : (s.port p).ccEn = true) : notifyShutdown s p =
    if s.fh.latch || !isOwner s p then s.onPort p fun pt => { pt with ccShn := 1, shst := 2 }
    else closeUpTo (s.onPort p fun pt => { pt with ccShn := 1, shst := 1 }) (s.path.nextSeq - 1) := if_neg (by simp [hr, hc])

theorem isOwner_eq_false (h : s.own.owner ≠ p) : isOwner s p = false := decide_eq_false h

theorem shutdownEnds_due (hr : Running s) (hs : (s.port s.own.owner).shst = 1) (ha : allSealed s = true) :
    shutdownEnds s = markClean ((advanceHorizon s).onPort s.own.owner fun pt => { pt with shst := 2 }) :=
  if_neg (by simp [hr.1, hr.2, hs, ha])

theorem shutdownEnds_left (h : ¬(Running s ∧ (s.port s.own.owner).shst = 1 ∧ allSealed s = true)) : shutdownEnds s = s := by
  refine if_pos (Classical.byContradiction fun no => h ?_)
  simp only [not_or, not_not, Bool.not_eq_true', Bool.not_eq_false, Bool.not_eq_true] at no
  obtain ⟨hr, hl, hs, ha⟩ := no
  exact ⟨⟨hl, hr⟩, hs, ha⟩

/-! ### NVM subsystem reset (R73, R568) -/

/-- A subsystem reset stops what runs, and nothing else (R568). -/
def stoppable (s : State) : Prop := s.run = .running ∨ s.run = .recovery ∨ s.run = .safe ∨ s.run = .pfWait

/-- The ports have stopped for a subsystem reset of a cause. -/
def portsStopped (s : State) (cause : Nat) : State := (stopPorts s).onBoot fun b => { b with nextCause := cause }

theorem subsystemResetFrom_stops (h : stoppable s) (hp : s.journal.pls ≠ 2) (cause : Nat) : subsystemResetFrom s cause =
    { (if s.fh.latch || decide (s.boot.stage ≠ 8) then portsStopped s cause
       else closeUpTo (portsStopped s cause) ((portsStopped s cause).path.nextSeq - 1)) with run := .subsystemReset } := by
  have idle : ¬decide (s.journal.pls = 2) = true := by simpa using hp
  unfold subsystemResetFrom
  split
  next => exact if_neg idle
  next => exact if_neg idle
  next => exact if_neg idle
  next => exact if_neg idle
  next h1 h2 h3 h4 => exact absurd h (not_or.2 ⟨h1, not_or.2 ⟨h2, not_or.2 ⟨h3, h4⟩⟩⟩)

theorem subsystemResetFrom_left (h : ¬stoppable s ∨ s.journal.pls = 2) (cause : Nat) : subsystemResetFrom s cause = s := by
  have busy (hs : stoppable s) : decide (s.journal.pls = 2) = true := decide_eq_true (h.resolve_left (not_not_intro hs))
  unfold subsystemResetFrom
  split
  next hr => exact if_pos (busy (.inl hr))
  next hr => exact if_pos (busy (.inr (.inl hr)))
  next hr => exact if_pos (busy (.inr (.inr (.inl hr))))
  next hr => exact if_pos (busy (.inr (.inr (.inr hr))))
  next => rfl

/-- The port may ask for a subsystem reset: the owner's, or either in SAFE (R73, R525). -/
def mayReset (s : State) (p : PortId) : Prop := hfeRuns s p = true ∧ (s.own.owner = p ∨ s.fh.latch = true)

theorem mayReset_iff : (hfeRuns s p && (isOwner s p || s.fh.latch)) = true ↔ mayReset s p := by simp [mayReset, isOwner]

theorem writeNssr_runs (h : mayReset s p) : writeNssr s p = subsystemResetFrom s 2 := if_pos (mayReset_iff.2 h)

theorem writeNssr_left (h : ¬mayReset s p ∨ ¬stoppable s ∨ s.journal.pls = 2) : writeNssr s p = s := by
  by_cases may : mayReset s p
  · exact (writeNssr_runs may).trans (subsystemResetFrom_left (h.resolve_left (not_not_intro may)) 2)
  · exact if_neg (mt mayReset_iff.1 may)

/-- Staging is written before a subsystem reset goes on: outside SAFE, once recovery has ended (R568). -/
def stagingCounts (s : State) : Prop := s.fh.latch = false ∧ s.boot.stage = 8

theorem stagingCounts_iff : (!s.fh.latch && decide (s.boot.stage = 8)) = true ↔ stagingCounts s := by simp [stagingCounts]

theorem stagingWritten_left {env : StartEnv} (h : s.run ≠ .subsystemReset ∨ (stagingCounts s ∧ allSealed s = false)) : stagingWritten s env = s :=
  if_pos (h.imp_right fun ⟨hw, ha⟩ => ⟨stagingCounts_iff.2 hw, by simp [ha]⟩)

theorem stagingWritten_goes {env : StartEnv} (hr : s.run = .subsystemReset) (h : stagingCounts s → allSealed s = true) : stagingWritten s env =
    (startUp (enterReset (if !s.fh.latch && decide (s.boot.stage = 8) then markClean (advanceHorizon s) else s) true s.now) env
      s.boot.nextCause).onBoth fun p => { p with nssro := true } := by
  refine if_neg ?_
  rintro (hn | ⟨hw, hn⟩)
  · exact hn hr
  · simp [h (stagingCounts_iff.1 hw)] at hn

/-! ### Power states (R92 to R95, R159, R251) -/

/-- An idle port's selection becomes non-operational (R94). -/
def maySelect (s : State) (p : PortId) (ps : Nat) : Prop :=
  (ps = 3 ∨ ps = 4) ∧ tget 0 (s.port p).features 0x0C % 2 = 1 ∧ (s.port p).cmds = [] ∧ adminLive s p = true ∧ s.fh.latch = false

theorem maySelect_iff {ps : Nat} : maySelect s p ps ↔ ¬((ps ≠ 3 ∧ ps ≠ 4) ∨ tget 0 (s.port p).features 0x0C % 2 = 0 ∨
    (!(s.port p).cmds.isEmpty) = true ∨ (!adminLive s p) = true ∨ s.fh.latch = true) := by
  simp only [maySelect, not_or, not_and_or, not_not, Nat.mod_two_ne_zero, ne_eq, Bool.not_eq_true', Bool.not_eq_false, List.isEmpty_iff,
    Bool.not_eq_true]

theorem idleSelects_selects {ps : Nat} (h : maySelect s p ps) : idleSelects s p ps = takePs (s.onPort p fun pt => { pt with selPs := ps }) :=
  if_neg (maySelect_iff.1 h)

theorem idleSelects_left {ps : Nat} (h : ¬maySelect s p ps) : idleSelects s p ps = s := if_pos (not_not.1 (mt maySelect_iff.2 h))

/-- No die is busy or holds a suspended erase (R251). -/
def diesStill (s : State) : Prop := ∀ e ∈ s.media.dies, e.2.busy = none ∧ e.2.susp = none

theorem diesStill_iff : diesStill s ↔ ¬(s.media.dies.any fun e => e.2.busy.isSome || e.2.susp.isSome) = true := by simp [diesStill]

section
variable {t : Nat} (h : s.misc.psEntering = some t)
include h

theorem entryEnds_waits (hw : (3 ≤ t ∧ ¬diesStill s) ∨ (t = 4 ∧ allSealed s = false)) : entryEnds s = s := by
  simp only [entryEnds, h]
  refine if_pos (hw.imp (fun ⟨h3, hd⟩ => ⟨h3, ?_⟩) fun ⟨h4, ha⟩ => ⟨h4, by simp [ha]⟩)
  exact not_not.1 (mt diesStill_iff.2 hd)

theorem entryEnds_ends (hd : t < 3 ∨ diesStill s) (ha : t = 4 → allSealed s = true) : entryEnds s =
    takePs (if t = 4 then selfRefreshAll (advanceHorizon (s.onMisc fun m => { m with psEntering := none }))
      else s.onMisc fun m => { m with psEntering := none }) := by
  simp only [entryEnds, h]
  refine if_neg ?_
  rintro (⟨h3, busy⟩ | ⟨h4, hn⟩)
  · exact hd.elim (Nat.not_lt.2 h3) fun still => diesStill_iff.1 still busy
  · simp [ha h4] at hn

end

theorem entryEnds_none (h : s.misc.psEntering = none) : entryEnds s = s := by simp only [entryEnds, h]
theorem exitEnds_none (h : s.misc.psExiting = none) : exitEnds s = s := by simp only [exitEnds, h]

theorem exitEnds_ends {t : Nat} (h : s.misc.psExiting = some t) : exitEnds s = takePs ({ s with dcs := tvals {} s.dcs fun (d : Dc) =>
    if d.st = DcState.selfRefresh then { d with st := .active } else d }.onMisc fun m => { m with drivePs := t, psExiting := none }) := by
  simp only [exitEnds, h]

end

/-- Settles O47. SHST complete at once in SAFE, and a subsystem reset before stage 8 that goes on at once, are log entry 58; that an entry under way ends before
another selection is taken is 27. -/
theorem shutdownResetAndPowerStates : Obligations.ShutdownResetAndPowerStates := by
  refine ⟨⟨fun p s => ?notify, fun s => ?complete, fun p s => ?reset, fun env s => ?staged, fun p s => rfl⟩,
    fun p ps s => ⟨fun h => congrArg _ (idleSelects_selects h), fun h => congrArg _ (idleSelects_left h)⟩, fun t s h => ?entry,
    fun t s h => congrArg _ (exitEnds_ends h), fun s => ⟨fun h => congrArg _ (entryEnds_none h), fun h => congrArg _ (exitEnds_none h)⟩⟩
  case notify =>
    refine ⟨fun hr hc hl ho => congrArg _ ((notifyShutdown_runs hr hc).trans (if_neg (by simp [hl, isOwner_of_owner ho]))),
      fun hr hc h => congrArg _ ((notifyShutdown_runs hr hc).trans (if_pos ?_)), fun h => congrArg _ (notifyShutdown_left h)⟩
    obtain h | h := h
    · simp [h]
    · simp [isOwner_eq_false h]
  case complete =>
    intro due
    exact ⟨fun ⟨hr, hs, ha⟩ => congrArg _ (shutdownEnds_due hr hs ha), fun h => congrArg _ (shutdownEnds_left h)⟩
  case reset =>
    intro may u on
    have e (hm : may) (ho : on) (hp : s.journal.pls ≠ 2) := (writeNssr_runs hm).trans (subsystemResetFrom_stops ho hp 2)
    refine ⟨fun hm ho hp hl hb => congrArg Host.Outcome.next ((e hm ho hp).trans ?writes), fun hm ho hp hq => congrArg Host.Outcome.next ((e hm ho hp).trans ?quiet),
      fun h => congrArg _ (writeNssr_left h)⟩
    case writes =>
      rw [if_neg (by simp [hl, hb])]
      rfl
    case quiet =>
      rw [if_pos (by simpa using hq)]
      rfl
  case staged =>
    intro writes go
    refine ⟨fun hr hw ha => congrArg Host.Outcome.next ((stagingWritten_goes hr fun _ => ha).trans ?_),
      fun hr hw => congrArg Host.Outcome.next ((stagingWritten_goes hr fun hw' => absurd hw' hw).trans ?_), fun h => congrArg _ (stagingWritten_left h)⟩
    · rw [if_pos (stagingCounts_iff.2 hw)]
    · rw [if_neg (mt stagingCounts_iff.1 hw)]
  case entry =>
    intro still u
    refine ⟨fun h4 hd => congrArg Host.Outcome.next ((entryEnds_ends h hd fun e => absurd e h4).trans ?_),
      fun h4 hd ha => congrArg Host.Outcome.next ((entryEnds_ends h (.inr hd) fun _ => ha).trans ?_),
      fun h3 hd => congrArg _ (entryEnds_waits h (.inl ⟨h3, hd⟩)), fun h4 ha => congrArg _ (entryEnds_waits h (.inr ⟨h4, ha⟩))⟩
    · rw [if_neg h4]
    · rw [if_pos h4]

/-! ### Pins and links (R30, R54 to R58, R106, R548) -/

section
variable {s : State} {p : PortId}

/-- What a low pulse of PERST# that resets the port does (R56, R65, R97). -/
def pulled (s : State) (p : PortId) : State :=
  let t := s.onPort p fun pt => { pt with perst := true, wake := false, replayCount := 0, fecCorrected := 0 }
  if hfePowered s p then linkEnds t p .detect else t

theorem hfePowered_onPort (f : Port → Port) : hfePowered (s.onPort p f) p = hfePowered s p := by
  rw [hfePowered, hfePowered, ports_onPort, onPort_run]

theorem pulled_eq : pulled s p = if hfePowered (s.onPort p fun pt => { pt with perst := true, wake := false, replayCount := 0, fecCorrected := 0 }) p then
    linkEnds (s.onPort p fun pt => { pt with perst := true, wake := false, replayCount := 0, fecCorrected := 0 }) p .detect
    else s.onPort p fun pt => { pt with perst := true, wake := false, replayCount := 0, fecCorrected := 0 } := by
  rw [hfePowered_onPort]
  rfl

variable {lowNs : Nat}

theorem perstLow_long (h : 1000 ≤ lowNs) : perstLow s p lowNs = pulled s p := by
  simp only [perstLow, pulseResets, if_pos h, Bool.not_true, Bool.false_eq_true, if_false, pulled_eq]

theorem perstLow_short (h : lowNs ≤ 100) : perstLow s p lowNs = s := by
  simp only [perstLow, pulseResets, if_neg (show ¬1000 ≤ lowNs by omega), if_pos h, Bool.not_false, if_true]

theorem perstLow_between (h : 100 < lowNs) (k : lowNs < 1000) : perstLow s p lowNs =
    if Config.freePulse s.freeCtr then pulled { s with freeCtr := s.freeCtr + 1 } p else { s with freeCtr := s.freeCtr + 1 } := by
  simp only [perstLow, pulseResets, if_neg (Nat.not_le.2 h), if_neg (Nat.not_le.2 k), pulled_eq]
  cases Config.freePulse s.freeCtr <;> rfl

theorem linkRises_trains {speed width : Nat} {flit rev : Bool} (hr : hfeRuns s p = true) (hp : (s.port p).perst = false)
    (ht : trains s speed width flit = true) : linkRises s p speed width flit rev = takePs (ownerUp (s.onPort p fun pt => { pt with
      ltssm := .l0, speed := speed, width := width, flit := flit, laneReversed := rev, inL2 := false }) p) := by
  have clocked : (s.port p).refclk = true := (Bool.and_eq_true_iff.1 hr).2
  exact if_neg (by simp [hr, hp, ht, clocked])

theorem linkRises_left {speed width : Nat} {flit rev : Bool}
    (h : ¬(hfeRuns s p = true ∧ (s.port p).perst = false ∧ trains s speed width flit = true)) : linkRises s p speed width flit rev = s := by
  refine if_pos (Classical.byContradiction fun no => h ?_)
  simp only [Bool.or_eq_true, Bool.not_eq_true', not_or, Bool.not_eq_false, Bool.not_eq_true] at no
  obtain ⟨⟨⟨hr, hp⟩, -⟩, ht⟩ := no
  exact ⟨hr, hp, ht⟩

theorem trains_bounds {speed width : Nat} {flit : Bool} (h : trains s speed width flit = true) : 1 ≤ speed ∧ speed ≤ 6 ∧ (speed = 6 → flit = true) ∧
    (width = 1 ∨ width = 2 ∨ (width = 4 ∧ s.boot.strapPort = false)) := by
  simp only [trains, Bool.and_eq_true, Bool.or_eq_true, decide_eq_true_eq, Bool.not_eq_true', ne_eq] at h
  obtain ⟨⟨⟨hw, h1⟩, h6⟩, hf⟩ := h
  exact ⟨h1, h6, fun e => hf.resolve_left (not_not_intro e), or_assoc.1 hw⟩

theorem enableCtrl_enables (hr : hfeRuns s p = true) (hc : (s.port p).ccEn = false) (hh : (s.port p).resetHeld = false) (ams : Nat) :
    enableCtrl s p ams = s.onPort p fun pt => { pt with
      ccEn := true, ccAms := ams, ccEnAt := s.now, rdy := decide (s.run = .running) || s.fh.latch } := if_neg (by simp [hr, hc, hh])

theorem enableCtrl_left (h : hfeRuns s p = false ∨ (s.port p).ccEn = true ∨ (s.port p).resetHeld = true) (ams : Nat) : enableCtrl s p ams = s :=
  if_pos (by simpa [or_assoc] using h)

theorem disableCtrl_left (h : hfeRuns s p = false ∨ (s.port p).ccEn = false) : disableCtrl s p = s :=
  if_neg (Bool.eq_false_iff.1 (Bool.and_eq_false_iff.2 h))

/-! ### Configuration requests (R63, R66, R119, R561, R562) -/

theorem configure_unanswered (h : configIdentity s = none ∨ hfeRuns s p = false) (r : CfgReq) : configure s p r = s := by
  unfold configure
  split
  next => rfl
  next i hi =>
    have off : hfeRuns s p = false := h.resolve_left (by simp [hi])
    exact if_pos (by simp [off])

/-- What a configuration request does once the identity is loaded and the port's HFE runs (R63, R66, R119, R561, R562). -/
def configured (s : State) (p : PortId) (i : Identity) : CfgReq → State
  | .readId => s.onPort p fun pt => { pt with hostData := cfgBytes i }
  | .readSupport f => s.onPort p fun pt => { pt with hostData := leBytes 1 (pcieSupport s.boot.strapPort f) }
  | .readBar n => s.onPort p fun pt => { pt with hostData := leBytes 4 (barShape n).1 ++ leBytes 1 (barShape n).2 }
  | .setControl f on => s.onPort p (setControl s.boot.strapPort f on)
  | .setL1 on => s.onPort p (setL1 on)
  | .setL0p on => s.onPort p (setL0p s.boot.strapPort on)
  | .setMaxPayload b => if sizeOk 128 1024 b then s.onPort p fun pt => { pt with maxPayload := b } else s
  | .setMaxReadRequest b => if sizeOk 128 4096 b then s.onPort p fun pt => { pt with maxReadReq := b } else s
  | .setPmeEn on => s.onPort p fun pt => { pt with pmeEn := on }
  | .setPowerD3hot on => s.onPort p fun pt => { pt with d3hot := on }
  | .setL2 on => setL2 s p on
  | .initiateFlr => flr s p

theorem configure_answers {i : Identity} (hi : configIdentity s = some i) (hr : hfeRuns s p = true) (r : CfgReq) :
    configure s p r = configured s p i r := by
  unfold configure
  simp only [hi, hr, Bool.not_true, Bool.false_eq_true, if_false]
  rfl

theorem setL2_enters (h : linkUp (s.port p) = true) :
    setL2 s p true = takePs (endHandoverWrites (ownerDown (s.onPort p fun pt => { downIn .l2 pt with inL2 := true }) p) p) := if_pos (by simp [h])

theorem setL2_stays_down (h : linkUp (s.port p) = false) : setL2 s p true = s := by simp [setL2, h]

theorem setL2_leaves (h : (s.port p).inL2 = true) : setL2 s p false = s.onPort p fun pt => { downIn .detect pt with inL2 := false } := by
  simp [setL2, h]

theorem setL2_stays_out (h : (s.port p).inL2 = false) : setL2 s p false = s := by simp [setL2, h]

end

/-- Settles O48. The free value of a pulse between the limits is log entry 2, a LINK_UP at another speed or width 21, CC.EN while a reset is held 40, and the form
of the answers 95; the bits and places of configuration space are the base specification's (log entry 3). -/
theorem linksAndControllersAnswer : Obligations.LinksAndControllersAnswer := by
  refine ⟨⟨fun p lowNs s => ?perst, fun p s => rfl, fun p s => ⟨rfl, rfl⟩, fun p s => ?falls, fun p speed width flit rev s => ?rises,
    fun p ams s => ?enable⟩, fun p r s h => congrArg _ (configure_unanswered h r), fun p i s hi hr => ?config⟩
  case perst =>
    intro low hit u
    have same (t : State) : hit t = pulled t p := rfl
    exact ⟨fun h => congrArg _ (perstLow_long h), fun h => congrArg _ (perstLow_short h),
      fun h k => congrArg Host.Outcome.next ((perstLow_between h k).trans (by rw [same]))⟩
  case falls =>
    have up {a b : Bool} (ha : a = true) (hb : b = true) : (a && b) = true := by rw [ha, hb]; rfl
    have off {a b : Bool} (h : a = false ∨ b = false) : ¬(a && b) = true := Bool.eq_false_iff.1 (Bool.and_eq_false_iff.2 h)
    exact ⟨fun hp hl => congrArg Host.Outcome.next (if_pos (up hp (by simp [hl]))),
      fun h => congrArg Host.Outcome.next (if_neg (off (h.imp_right fun h => by simp [h]))),
      fun hr hl => ⟨congrArg Host.Outcome.next (if_pos (up hr hl)), congrArg Host.Outcome.next (if_pos (up hr hl))⟩,
      fun h => ⟨congrArg Host.Outcome.next (if_neg (off h)), congrArg Host.Outcome.next (if_neg (off h))⟩⟩
  case rises =>
    intro may
    exact ⟨fun ⟨hr, hp, ht⟩ => congrArg _ (linkRises_trains hr hp ht), fun h => congrArg _ (linkRises_left h), trains_bounds⟩
  case enable =>
    intro reset
    exact ⟨fun hr => congrArg Host.Outcome.next (if_pos hr), fun hr hc => congrArg Host.Outcome.next (if_pos (Bool.and_eq_true_iff.2 ⟨hr, hc⟩)),
      fun hr hc hh => congrArg _ (enableCtrl_enables hr hc hh ams), fun hc => congrArg _ (disableCtrl_left (.inr hc)),
      fun h => congrArg _ (enableCtrl_left (.inr h) ams),
      fun hr => ⟨congrArg Host.Outcome.next (if_neg (Bool.eq_false_iff.1 hr)), congrArg _ (disableCtrl_left (.inl hr)), congrArg _ (enableCtrl_left (.inl hr) ams)⟩⟩
  case config =>
    intro port dual
    have run (r : CfgReq) : exec (.configurationRequest p r) s = .next (configured s p i r) := congrArg Host.Outcome.next (configure_answers hi hr r)
    exact ⟨run _, fun f => run _, fun n => run _, fun f on => ⟨run _, run _, run _, run _, run _⟩, fun b => ⟨run _, run _⟩,
      (run _).trans (congrArg Host.Outcome.next (if_pos hr)), fun h => (run _).trans (congrArg _ (setL2_enters h)),
      fun h => (run _).trans (congrArg _ (setL2_stays_down h)), fun h => (run _).trans (congrArg _ (setL2_leaves h)),
      fun h => (run _).trans (congrArg _ (setL2_stays_out h))⟩

end Sys2Proof.Machine
end

section
/-! Housekeeping (R474, R476 to R478, R484, R489, R491), the sources that fire (R223, R264, R498, R503, R523), and what follows a fault reaction (R255 to R258, R264,
R499, R509, R511, R528), case by case. -/
namespace Sys2Proof.Machine

/-! ### Housekeeping -/

section
variable {s : State}

section
variable {t : Nat} (h : s.hk.roundAt = some t)
include h

theorem startRound_early (hn : ¬(hkRuns s = true ∧ elapsed s t (roundUs s) = true)) : startRound s = s := by
  have early : (!hkRuns s || !elapsed s t (roundUs s)) = true := by
    rw [← Bool.not_and, Bool.not_eq_true']
    exact Bool.eq_false_iff.2 (mt Bool.and_eq_true_iff.1 hn)
  simp only [startRound, h]
  exact if_pos early

theorem startRound_due (hd : hkRuns s = true ∧ elapsed s t (roundUs s) = true) : startRound s =
    if s.hk.inRound then (if s.hk.late then s else fire (s.onHk fun h => { h with late := true }) (hkSource 22)) else beginRound s := by
  simp only [startRound, h]
  exact if_neg (by simp [hd.1, hd.2])

end

theorem startRound_none (h : s.hk.roundAt = none) : startRound s = s := by simp only [startRound, h]

theorem endRound_left (h : s.hk.inRound = false ∨ hkRuns s = false) (d : RoundData) : endRound s d = s := by
  refine if_pos ?_
  obtain h | h := h
  · simp [h]
  · simp [h]

/-- The state at the end of a round, before a round that is owed starts (R476, R482 to R491). -/
def roundEnded (s : State) (d : RoundData) : State :=
  applyLevel (judgeWarn (judgeHalt (recordEvents s (stepLevel (latchTmt (closeRound s (readRound s d)))))))

theorem endRound_runs (hi : s.hk.inRound = true) (hr : hkRuns s = true) (d : RoundData) :
    endRound s d = if (roundEnded s d).hk.late then beginRound (roundEnded s d) else roundEnded s d := by
  have runs : ¬(!s.hk.inRound || !hkRuns s) = true := by simp [hi, hr]
  unfold roundEnded endRound
  rw [if_neg runs]

theorem closeRound_parts (s t : State) :
    (closeRound s t).hk.inRound = false ∧ (closeRound s t).hk.endedAt = some s.now ∧ (closeRound s t).hk.anyRound = true := by
  simp only [closeRound, onHk_hk, and_self]

theorem holdOver_due {i t : Nat} (h : (nth {} s.hk.inputs i).heldAt = some t) (ht : t + 60000000 ≤ s.now) : holdOver s i =
    s.onHk fun h => { h with inputs := setNth h.inputs i fun x => { x with held := false, warn := false, thr := false, shut := false } } := by
  simp only [holdOver, h]
  exact if_pos (decide_eq_true ht)

theorem holdOver_early {i : Nat} (h : ∀ t, (nth {} s.hk.inputs i).heldAt = some t → s.now < t + 60000000) : holdOver s i = s := by
  unfold holdOver
  split
  next => rfl
  next t ht => exact if_neg fun late => Nat.not_lt.2 (of_decide_eq_true late) (h t ht)

theorem throttleStepNow_eq : throttleStepNow s =
    if hkRuns s = true ∧ s.hk.anyRound = true ∧ elapsed s s.hk.lastStep (1000 * s.policy.throttleStepMs) = true then applyLevel (stepLevel s) else s :=
  if_congr (by simp [and_assoc]) rfl rfl

theorem haltEntryOver_eq : haltEntryOver s =
    if s.hk.halt = true ∧ s.hk.haltEntry = true ∧ ∀ e ∈ s.media.dies, e.2.busy = none ∧ e.2.susp = none then
      applyLevel (s.onHk fun h => { h with haltEntry := false }) else s :=
  if_congr (by simp [and_assoc]) rfl rfl

variable {above : Bool}

theorem leavesWindow_vio : leavesWindow s true above = if s.hk.vioOut = (if above then 2 else 1) then s
    else fire (s.onHk fun h => { h with vioOut := if above then 2 else 1 }) (hkSource 17) := by
  simp only [leavesWindow, if_true]

theorem leavesWindow_vaux : leavesWindow s false above = if s.hk.vauxOut = (if above then 2 else 1) then s
    else fire (s.onHk fun h => { h with vauxOut := if above then 2 else 1 }) (hkSource 17) := by
  simp only [leavesWindow, Bool.false_eq_true, if_false]

end

/-- Settles O49. That an input which is excluded loses its crossed marks is log entry 51. -/
theorem housekeepingRuns : Obligations.HousekeepingRuns := by
  refine ⟨fun t s h => ?starts, fun s h => congrArg _ (startRound_none h), fun d s => ?ends, fun i s => ⟨fun t h ht => congrArg _ (holdOver_due h ht),
    fun h => congrArg _ (holdOver_early h)⟩, fun s => ?throttle, fun s => ?halted, fun above s => ?supplies, fun s => ⟨rfl, rfl⟩⟩
  case starts =>
    intro due
    refine ⟨fun hd hi => congrArg _ ((startRound_due h hd).trans (if_neg (Bool.eq_false_iff.1 hi))),
      fun hd hi hl => congrArg _ ((startRound_due h hd).trans ((if_pos hi).trans (if_neg (Bool.eq_false_iff.1 hl)))),
      fun hn => congrArg Host.Outcome.next ?_⟩
    by_cases hd : due
    · obtain ⟨hi, hl⟩ := hn.resolve_left (not_not_intro hd)
      exact (startRound_due h hd).trans ((if_pos hi).trans (if_pos hl))
    · exact startRound_early h hd
  case ends =>
    intro u v
    have parts : u.hk.inRound = false ∧ u.hk.endedAt = some s.now ∧ u.hk.anyRound = true := closeRound_parts s (readRound s d)
    have ended : roundEnded s d = v := rfl
    exact ⟨fun hi hr => congrArg Host.Outcome.next ((endRound_runs hi hr d).trans (by rw [ended])), parts,
      fun h => congrArg Host.Outcome.next (endRound_left h d)⟩
  case throttle =>
    intro due
    exact ⟨fun hd => congrArg Host.Outcome.next (throttleStepNow_eq.trans (if_pos hd)),
      fun hd => congrArg Host.Outcome.next (throttleStepNow_eq.trans (if_neg hd))⟩
  case halted =>
    intro due
    exact ⟨fun hd => congrArg Host.Outcome.next (haltEntryOver_eq.trans (if_pos hd)),
      fun hd => congrArg Host.Outcome.next (haltEntryOver_eq.trans (if_neg hd))⟩
  case supplies =>
    intro side
    exact ⟨fun h => congrArg Host.Outcome.next (leavesWindow_vio.trans (if_neg h)), fun h => congrArg Host.Outcome.next (leavesWindow_vaux.trans (if_neg h)),
      fun h => congrArg Host.Outcome.next (leavesWindow_vio.trans (if_pos h)), fun h => congrArg Host.Outcome.next (leavesWindow_vaux.trans (if_pos h))⟩

/-! ### Firings (R223, R264, R498, R503, R518, R523) -/

section
variable {s : State}

theorem sourcesFire_spares {fs : List Firing} (h : ∀ f ∈ fs, f.injected = true → f.source ≠ s.fh.injSource) :
    sourcesFire s fs = fs.foldl memoryNote (fireAll (fs.foldl moverFails s) fs) := by
  have hit : (fs.any fun f => f.injected && decide (f.source = s.fh.injSource)) = false := by simpa using h
  simp only [sourcesFire, hit, Bool.false_eq_true, if_false]

theorem sourcesFire_spends {fs : List Firing} (h : ∃ f ∈ fs, f.injected = true ∧ f.source = s.fh.injSource) : sourcesFire s fs =
    fs.foldl memoryNote (fireAll (fs.foldl moverFails (s.onFh fun h => { h with injArmed := false })) fs) := by
  have hit : (fs.any fun f => f.injected && decide (f.source = s.fh.injSource)) = true := by simpa using h
  simp only [sourcesFire, hit, if_true]

/-- The die's operation has run for twice its maximum, or a Reset of its channel for twice t_rst (R223). -/
def busyTooLong (s : State) (die : Nat) : Prop :=
  (∃ o, (getDie s die).busy = some o ∧ elapsed s (getDie s die).runFrom (2 * opMaxUs s die o.kind) = true) ∨
    ((getChan s (dieChan die)).st = .reset ∧ ∃ t, (getChan s (dieChan die)).resetAt = some t ∧ elapsed s t (2 * s.image.timing.tRst) = true)

theorem elim_false_iff {α : Type} {o : Option α} {f : α → Bool} : o.elim false f = true ↔ ∃ a, o = some a ∧ f a = true := by
  cases o <;> simp

theorem busyTooLong_iff {die : Nat} : ((getDie s die).busy.elim false (fun o => elapsed s (getDie s die).runFrom (2 * opMaxUs s die o.kind)) ||
    resetTooLong s (dieChan die)) = true ↔ busyTooLong s die := by
  rw [Bool.or_eq_true, elim_false_iff, resetTooLong, Bool.and_eq_true, elim_false_iff, decide_eq_true_eq, busyTooLong]

theorem busyTimedOut_fires {die : Nat} (h : busyTooLong s die) : busyTimedOut s die = fire s (csSource (dieChan die) 0) := if_pos (busyTooLong_iff.2 h)
theorem busyTimedOut_left {die : Nat} (h : ¬busyTooLong s die) : busyTimedOut s die = s := if_neg (mt busyTooLong_iff.1 h)

/-- A decoder has not finished within twice its bound (R264). -/
def decodesLate (s : State) (g : Nat) (soft : Bool) (d : Decoding) : Prop := 2 * decodeMaxNs s g soft ≤ 1000 * (s.now - d.since)

theorem decoderLate_iff {g : Nat} : decoderLate s g = true ↔ (getCluster s g).st ≠ .reset ∧
    ((∃ d ∈ (getCluster s g).hardDec, decodesLate s g false d) ∨ ∃ d ∈ (getCluster s g).softDec, decodesLate s g true d) := by
  simp [decoderLate, decodesLate]

section
variable {p : PortId} {sq cid : Nat} {c : OutCmd} (h : findCmd s p sq cid = some c)
include h

theorem completionTimedOut_protected (hp : c.prot = true) : completionTimedOut s p sq cid = s := by
  simp only [completionTimedOut, h, hp, if_true]

theorem completionTimedOut_write (hp : c.prot = false) (hw : isWriteOp c.entry.op = true) :
    completionTimedOut s p sq cid = fire (failWrite s c .dataTransferError) (hfeSource p 1) := by
  simp only [completionTimedOut, h, hp, hw, if_true, if_false, Bool.false_eq_true]

theorem completionTimedOut_other (hp : c.prot = false) (hw : isWriteOp c.entry.op = false) :
    completionTimedOut s p sq cid = fire (ioDone (abandonRead s c) p sq cid .dataTransferError) (hfeSource p 1) := by
  simp only [completionTimedOut, h, hp, hw, if_false, Bool.false_eq_true]

end

/-- A fault of the hub's own is noted (R523, R531). -/
def selfNoted (s : State) (c : SelfCause) : State := s.onFh fun h => { h with selfBits := setBit h.selfBits (selfBit c), cycle := h.cycle + 1 }

/-- What the latch captures of a fault of the hub's own. -/
def selfCapture (s : State) : Capture := { valid := true, cls := 4, source := 0x1FF, isSelf := true, timeUs := sinceStart s }

theorem hubFault_fresh (h1 : s.run ≠ .inReset) (h2 : s.run ≠ .porHeld) (hl : s.fh.latch = false) (c : SelfCause) : hubFault s c =
    enterSafe (recordFiring (selfNoted s c) 0x1FF 4 16 0xFFFF 0 false) (selfCapture (recordFiring (selfNoted s c) 0x1FF 4 16 0xFFFF 0 false)) := by
  unfold hubFault
  rw [if_neg (not_or.2 ⟨h1, h2⟩)]
  simp only [onFh_fh, hl, Bool.false_eq_true, if_false]
  rfl

theorem hubFault_latched (h1 : s.run ≠ .inReset) (h2 : s.run ≠ .porHeld) (hl : s.fh.latch = true) (c : SelfCause) : hubFault s c = selfNoted s c := by
  unfold hubFault
  rw [if_neg (not_or.2 ⟨h1, h2⟩)]
  simp only [onFh_fh, hl, if_true]
  exact if_pos hl

theorem hubFault_inReset (h : s.run = .inReset ∨ s.run = .porHeld) (c : SelfCause) : hubFault s c = s := if_pos h

end

/-- Settles O50. -/
theorem sourcesFire_holds : Obligations.SourcesFire := by
  refine ⟨fun fs s => ⟨fun h => congrArg _ (sourcesFire_spares h), fun h => congrArg _ (sourcesFire_spends h)⟩, fun die s => ?busy, fun g s => ?decoder,
    fun k s => rfl, fun s => rfl, fun p sq cid s h => ?unknown, fun p sq cid c s h => ?transfer, fun c s => ?self⟩
  case busy =>
    intro late
    exact ⟨fun h => congrArg _ (busyTimedOut_fires h), fun h => congrArg _ (busyTimedOut_left h)⟩
  case decoder =>
    intro c late
    refine ⟨fun hs hd => congrArg Host.Outcome.next (if_pos (decoderLate_iff.2 ⟨hs, hd⟩)), fun h => congrArg Host.Outcome.next (if_neg fun hd => ?_)⟩
    obtain ⟨hs, ⟨d, hd, hl⟩ | ⟨d, hd, hl⟩⟩ := decoderLate_iff.1 hd
    · exact (h.resolve_left hs).1 d hd hl
    · exact (h.resolve_left hs).2 d hd hl
  case unknown =>
    refine congrArg Host.Outcome.next ?_
    simp only [completionTimedOut, h]
  case transfer =>
    exact ⟨fun hp => congrArg _ (completionTimedOut_protected h hp), fun hp hw => congrArg _ (completionTimedOut_write h hp hw),
      fun hp hw => congrArg _ (completionTimedOut_other h hp hw)⟩
  case self =>
    intro u r
    exact ⟨fun h1 h2 hl => congrArg _ (hubFault_fresh h1 h2 hl c), fun h1 h2 hl => congrArg _ (hubFault_latched h1 h2 hl c),
      fun h => congrArg _ (hubFault_inReset h c)⟩

/-! ### What follows a reaction (R255 to R258, R264, R499, R509, R511, R528) -/

section
variable {s : State} {ch : Nat}

theorem csResetEnd_left (h : (getChan s ch).st ≠ .reset ∨ (getChan s ch).resetAt = none) (notReady untrained : List Nat) :
    csResetEnd s ch notReady untrained = s := by
  unfold csResetEnd
  dsimp only
  split
  next => rfl
  next t ht => exact if_pos (h.resolve_right (by simp [ht]))

theorem csBoundOver_left (h : (getChan s ch).st ≠ .reset ∨ (getChan s ch).resetAt = none) : csBoundOver s ch = s := by
  unfold csBoundOver
  dsimp only
  split
  next => rfl
  next t ht => exact if_neg fun ⟨hs, _⟩ => h.resolve_right (by simp [ht]) hs

theorem csBoundOver_of_reset {t0 : Nat} (hs : (getChan s ch).st = .reset) (ht : (getChan s ch).resetAt = some t0) : csBoundOver s ch =
    if elapsed s t0 (2 * s.image.timing.tRst + 517) then
      returnCut (failChannel (modChan s ch fun x => { x with lastResetUs := min 65535 (s.now - t0) }) ch) (getChan s ch).cut
    else s := by
  simp only [csBoundOver, ht, hs, true_and]

/-- The dies that a block reset finds not ready, or on a target that does not train (R256, R258). -/
def badDies (s : State) (ch : Nat) (notReady untrained : List Nat) : List Nat :=
  (diesOf s ch).filter fun d => decide (d ∈ notReady) || decide (d % 32 / 8 ∈ untrained)

/-- Those dies are failed. -/
def diesFailed (s : State) (ch : Nat) (notReady untrained : List Nat) : State :=
  (badDies s ch notReady untrained).foldl (fun s d => modDie s d fun x => { x with isFailed := true }) s

/-- The block resets that count toward the limit, the secondary ones with them (R258). -/
def countedStarts (t : State) (c : Channel) : List Nat := recent t 60000000 (c.resetStarts ++ List.replicate c.pendingSecond t.now)

/-- The channel does not come back: at the reset limit, past its bound, or without a die left (R255, R258). -/
def channelGone (t : State) (c : Channel) (ch t0 : Nat) : Prop :=
  c.failAtEnd = true ∨ t.policy.csResetLimit ≤ (countedStarts t c).length ∨ (∀ d ∈ diesOf t ch, (getDie t d).isFailed = true) ∨
    t0 + 2 * t.image.timing.tRst + 517 < t.now

theorem channelGone_iff {t : State} {c : Channel} {t0 : Nat} : (c.failAtEnd || decide (t.policy.csResetLimit ≤ (countedStarts t c).length) ||
    ((diesOf t ch).all fun d => (getDie t d).isFailed) || decide (t0 + 2 * t.image.timing.tRst + 517 < t.now)) = true ↔ channelGone t c ch t0 := by
  simp [channelGone, or_assoc]

/-- The channel is active again, its block reset over. -/
def resetOver (t : State) (c : Channel) (ch t0 : Nat) (untrained : List Nat) : State :=
  modChan t ch fun x => { x with
    st := .active, resetAt := none, lastResetUs := min 65535 (t.now - t0), resetStarts := countedStarts t c, pendingSecond := 0, cut := []
    trained := x.trained &&& ~~~(untrained.foldl (fun (m : BitVec 4) k => m ||| BitVec.twoPow 4 k) 0) }

section
variable {t0 : Nat} {notReady untrained : List Nat} (hs : (getChan s ch).st = .reset) (ht : (getChan s ch).resetAt = some t0)
include hs ht

theorem csResetEnd_gone (hg : channelGone (diesFailed s ch notReady untrained) (getChan s ch) ch t0) : csResetEnd s ch notReady untrained =
    returnCut (failChannel (resetOver (diesFailed s ch notReady untrained) (getChan s ch) ch t0 untrained) ch) (getChan s ch).cut := by
  unfold csResetEnd
  simp only [ht]
  exact (if_neg (not_not_intro hs)).trans (if_pos (channelGone_iff.2 hg))

theorem csResetEnd_back (hg : ¬channelGone (diesFailed s ch notReady untrained) (getChan s ch) ch t0) : csResetEnd s ch notReady untrained =
    if (badDies s ch notReady untrained).isEmpty then
      returnCut (resetOver (diesFailed s ch notReady untrained) (getChan s ch) ch t0 untrained) (getChan s ch).cut
    else refreshRefuge (packCopies (memberLoss
      (returnCut (resetOver (diesFailed s ch notReady untrained) (getChan s ch) ch t0 untrained) (getChan s ch).cut))) := by
  unfold csResetEnd
  simp only [ht]
  exact (if_neg (not_not_intro hs)).trans (if_neg (mt channelGone_iff.1 hg))

end

theorem unitResetOver_none (h : s.fh.unitReset = none) : unitResetOver s = s := by simp only [unitResetOver, h]

theorem unitResetOver_ends {u : UnitReset} (h : s.fh.unitReset = some u) : unitResetOver s =
    let v := u.sources.foldl unitBack (s.onFh fun h => { h with unitReset := none })
    let w := if v.portA.resetHeld then resetPortNow v .A else v
    if w.portB.resetHeld then resetPortNow w .B else w := by
  simp only [unitResetOver, h]

theorem logCounted_eq (source : Nat) : logCounted s source =
    if 0 < tget 0 s.fh.counted source ∧ elapsed s (tget 0 s.fh.recordedAt source - 1) (1000 * s.policy.fhLogInterval) = true then
      addHistory s source (tget {} s.fh.waiting source).cls (tget {} s.fh.waiting source).flags.toNat (tget {} s.fh.waiting source).primary
        (tget 0 s.fh.counted source) (tget {} s.fh.waiting source).detail
    else s := rfl

theorem aliveToggle_matches {pin : Bool} (h : s.fh.aliveDriving = true) (hp : pin = !s.fh.aliveLevel) :
    aliveToggle s pin = s.onFh fun h => { h with aliveLevel := pin, aliveReadback := pin } := by
  simp [aliveToggle, h, hp]

theorem aliveToggle_differs {pin : Bool} (h : s.fh.aliveDriving = true) (hp : pin = s.fh.aliveLevel) : aliveToggle s pin =
    fire (s.onFh fun h => { h with aliveLevel := !s.fh.aliveLevel, aliveReadback := pin, mismatches := satAdd 65535 h.mismatches 1 })
      (coreSource 22) := by
  simp [aliveToggle, h, hp]

end

/-- Settles O51. That a counted record bears the latest firing's fields is log entry 94, last_reset_us at the bound's expiry is 82, and the count of secondary
firings at a reset's end is 39. -/
theorem reactionsEnd : Obligations.ReactionsEnd := by
  refine ⟨fun ch t0 notReady untrained s hs ht => ?channel, fun ch notReady untrained s h => ⟨congrArg _ (csResetEnd_left h notReady untrained),
    congrArg _ (csBoundOver_left h)⟩, fun g s => ?cluster, fun u s h => congrArg _ (unitResetOver_ends h), fun s h => congrArg _ (unitResetOver_none h),
    fun source s => rfl, fun source s => ?record, fun pin s => ?alive⟩
  case channel =>
    intro c bad t starts gone lost u
    refine ⟨fun hg => congrArg _ (csResetEnd_gone hs ht hg), fun hg hb => congrArg Host.Outcome.next ((csResetEnd_back hs ht hg).trans (if_pos ?_)),
      fun hg hb => congrArg Host.Outcome.next ((csResetEnd_back hs ht hg).trans (if_neg ?_)),
      fun h => congrArg _ ((csBoundOver_of_reset hs ht).trans (if_pos h)),
      fun h => congrArg _ ((csBoundOver_of_reset hs ht).trans (if_neg (Bool.eq_false_iff.1 h)))⟩
    · exact List.isEmpty_iff.2 hb
    · exact mt List.isEmpty_iff.1 hb
  case cluster =>
    intro again
    exact ⟨fun h => congrArg Host.Outcome.next (if_pos h), fun h => congrArg Host.Outcome.next (if_neg h)⟩
  case record =>
    intro n past r
    refine ⟨fun hn hp => congrArg Host.Outcome.next ((logCounted_eq source).trans (if_pos ⟨hn, hp⟩)),
      fun h => congrArg Host.Outcome.next ((logCounted_eq source).trans (if_neg fun ⟨hn, hp⟩ => ?_))⟩
    exact h.elim (Nat.ne_of_gt hn) fun early => early hp
  case alive =>
    exact ⟨fun h => congrArg Host.Outcome.next (if_pos (by simp [h])), fun h hp => congrArg _ (aliveToggle_matches h hp),
      fun h hp => congrArg _ (aliveToggle_differs h hp)⟩

end Sys2Proof.Machine
end

section
/-! The data movers (R455 to R458, R460, R461, R463, R464, R467), case by case, and a counterexample to the statement about the DRAM controllers. -/
namespace Sys2Proof.Machine

/-! ### Mover channels -/

section
variable {s : State} {n : Nat}

theorem giveChain_busy (h : (getMover s n).st ≠ .idle) (head : Nat) : giveChain s n head = s := if_neg h

theorem descriptorArrives_unasked (h : (getMover s n).st ≠ .fetch) (f : DescFetch) : descriptorArrives s n f = s := if_pos h

theorem descriptorArrives_failed (h : (getMover s n).st = .fetch) : descriptorArrives s n .failed = haltMover s n 3 := if_neg (not_not.2 h)

theorem descriptorArrives_desc (h : (getMover s n).st = .fetch) (src dst length control next : Nat) :
    descriptorArrives s n (.desc src dst length control next) =
      if descInvalid s n ⟨src, dst, length, control, next⟩ then
        haltMover (modMover s n fun m => { m with desc := some ⟨src, dst, length, control, next⟩, remain := length % 16777216 }) n 5
      else tryPace (modMover s n fun m => { m with st := .wait, desc := some ⟨src, dst, length, control, next⟩, remain := length, paced := false, owed := 0 }) n :=
  if_neg (not_not.2 h)

theorem tryPace_empty (h : (getMover s n).desc = none) : tryPace s n = s := by simp only [tryPace, h]

theorem tryPace_desc {d : Desc} (h : (getMover s n).desc = some d) : tryPace s n =
    if (getMover s n).st = .wait ∧ (getMover s n).paced = false ∧ paceMet s (getMover s n) d = true then
      modMover s n fun x => { x with st := .move, paced := true, issuedAt := s.now, credits := if ctlPace d = 3 then x.credits - ctlVal d else x.credits }
    else s := by
  simp only [tryPace, h, Bool.not_eq_true']

theorem peripheralAsserts_empty (h : (getMover s n).desc = none) : peripheralAsserts s n = s := by simp only [peripheralAsserts, h]

theorem peripheralAsserts_desc {d : Desc} (h : (getMover s n).desc = some d) : peripheralAsserts s n =
    if (getMover s n).st = .wait ∧ ctlPace d = 1 ∧ 0 < (getMover s n).remain then
      modMover s n fun x => { x with st := .move, paced := true, issuedAt := s.now }
    else s := by
  simp only [peripheralAsserts, h]

section
variable {block : Nat} {ready : List MoverReady}

theorem grantBurst_first {w : MoverReady}
    (h : minBy (fun r => (r.chan + 8 - (getMoverBlock s block).pointer) % 8) (ready.filter (requests s block)) = some w) :
    grantBurst s block ready = modMoverBlock (moveBurst s (globalChan block w.chan) w.poisoned) block fun b =>
      { b with pointer := (w.chan + 1) % 8, grants := satAdd 65535 b.grants 1 } := by
  simp only [grantBurst, h]

theorem grantBurst_none (h : ∀ r ∈ ready, requests s block r = false) : grantBurst s block ready = s := by
  have none : ready.filter (requests s block) = [] := List.filter_eq_nil_iff.2 fun r hr => Bool.eq_false_iff.1 (h r hr)
  simp only [grantBurst, none, minBy]

end

theorem responseArrives_disabled (h : (getMover s n).st = .disabled) : responseArrives s n = s := if_pos h

theorem responseArrives_counts (h : (getMover s n).st ≠ .disabled) :
    responseArrives s n = modMover s n fun m => { m with owed := m.owed - 1 } := if_neg h

/-- The descriptor that channel n runs has moved all of its bytes, and has the responses that it waits for (R457, R458). -/
def descriptorPast (s : State) (n : Nat) (d : Desc) : Prop :=
  (getMover s n).remain = 0 ∧ ((getMover s n).st = .move ∨ (getMover s n).st = .wait ∨ (getMover s n).st = .resp) ∧
    (ctlWresp d = true → (getMover s n).owed = 0)

theorem descriptorPast_iff {d : Desc} : descriptorPast s n d ↔
    (!(decide ((getMover s n).remain = 0) &&
        (decide ((getMover s n).st = .move) || decide ((getMover s n).st = .wait) || decide ((getMover s n).st = .resp))) ||
      (ctlWresp d && decide (0 < (getMover s n).owed))) = false := by
  rw [Bool.or_eq_false_iff, Bool.not_eq_false', Bool.and_eq_true, Bool.or_eq_true, Bool.or_eq_true, or_assoc]
  simp [descriptorPast, and_assoc]

/-- A complete descriptor is counted and signalled (R457). -/
def descriptorCounted (s : State) (n : Nat) (d : Desc) : State :=
  modMover (closeMoverWindow s n) n fun x => { x with
    done := satAdd 4294967295 x.done 1, hops := x.hops + 1, desc := none, paced := false
    signals := if ctlNotify d || ctlLast d then x.signals ++ [(x.descAddr, 0)] else x.signals, prevBurst := x.firstBurst, firstBurst := none }

/-- A complete descriptor gives its pace credits too (R460). -/
def descriptorCredited (s : State) (n : Nat) (d : Desc) : State :=
  if ctlNotify d then addCredits (descriptorCounted s n d) n else descriptorCounted s n d

theorem descriptorDone_empty (h : (getMover s n).desc = none) : descriptorDone s n = s := by simp only [descriptorDone, h]

theorem descriptorDone_left {d : Desc} (h : (getMover s n).desc = some d) (hp : ¬descriptorPast s n d) : descriptorDone s n = s := by
  simp only [descriptorDone, h]
  exact if_pos (Bool.eq_true_of_not_eq_false (mt descriptorPast_iff.2 hp))

theorem descriptorDone_past {d : Desc} (h : (getMover s n).desc = some d) (hp : descriptorPast s n d) : descriptorDone s n =
    if ctlLast d then modMover (descriptorCredited s n d) n fun x => { x with st := .idle, code := 0 }
    else if (descriptorCredited s n d).policy.dmHopLimit ≤ (getMover s n).hops + 1 then haltMover (descriptorCredited s n d) n 2
    else modMover (descriptorCredited s n d) n fun x =>
      { x with st := .fetch, issuedAt := (descriptorCredited s n d).now, descAddr := d.next } := by
  simp only [descriptorDone, h]
  exact if_neg (Bool.eq_false_iff.1 (descriptorPast_iff.1 hp))

/-- Nothing has returned to channel n within dm_bus_timeout, and the DRAM controller it addresses is at work (R467). -/
def moverLate (s : State) (n : Nat) : Prop :=
  timerStands s (getMover s n) = false ∧ elapsed s (getMover s n).issuedAt s.policy.dmBusTimeout = true

theorem moverLate_iff : (!timerStands s (getMover s n) && elapsed s (getMover s n).issuedAt s.policy.dmBusTimeout &&
    (decide ((getMover s n).st = .fetch) || decide ((getMover s n).st = .move) || decide ((getMover s n).st = .resp))) = true ↔
    moverLate s n ∧ ((getMover s n).st = .fetch ∨ (getMover s n).st = .move ∨ (getMover s n).st = .resp) := by
  simp [moverLate, or_assoc]

theorem moverTimedOut_late (hl : moverLate s n) (h : (getMover s n).st = .fetch ∨ (getMover s n).st = .move ∨ (getMover s n).st = .resp) :
    moverTimedOut s n = haltMover s n (if (getMover s n).st = .fetch then 3 else 4) := if_pos (moverLate_iff.2 ⟨hl, h⟩)

theorem moverTimedOut_fetch (hl : moverLate s n) (h : (getMover s n).st = .fetch) : moverTimedOut s n = haltMover s n 3 := by
  rw [moverTimedOut_late hl (.inl h), if_pos h]

theorem moverTimedOut_moves (hl : moverLate s n) (h : (getMover s n).st = .move ∨ (getMover s n).st = .resp) :
    moverTimedOut s n = haltMover s n 4 := by
  have unfetched : (getMover s n).st ≠ .fetch := by obtain h | h := h <;> simp [h]
  rw [moverTimedOut_late hl (.inr h), if_neg unfetched]

theorem moverTimedOut_left
    (h : ¬moverLate s n ∨ ((getMover s n).st ≠ .fetch ∧ (getMover s n).st ≠ .move ∧ (getMover s n).st ≠ .resp)) : moverTimedOut s n = s := by
  refine if_neg fun waits => ?_
  obtain ⟨hl, waits⟩ := moverLate_iff.1 waits
  obtain h | ⟨fetch, move, resp⟩ := h
  · exact h hl
  · exact waits.elim fetch fun w => w.elim move resp

end

/-- Settles O52. -/
theorem moversRunChains : Obligations.MoversRunChains := by
  refine ⟨fun block chan head s => ⟨fun h => congrArg _ (if_pos h), fun h => congrArg _ (giveChain_busy h head)⟩, ?fetch, ?paces, ?asserts, ?empty,
    ?grants, fun block chan s => ⟨fun h => congrArg _ (responseArrives_counts h), fun h => congrArg _ (responseArrives_disabled h)⟩,
    ?completes, ?times⟩
  case fetch =>
    intro block chan s n
    refine ⟨fun h => congrArg _ (descriptorArrives_failed h), ?_, fun f h => congrArg _ (descriptorArrives_unasked h f)⟩
    intro src dst length control next d
    exact ⟨fun h bad => congrArg Host.Outcome.next ((descriptorArrives_desc h ..).trans (if_pos bad)),
      fun h good => congrArg Host.Outcome.next ((descriptorArrives_desc h ..).trans (if_neg (Bool.eq_false_iff.1 good)))⟩
  case paces =>
    intro block chan d s n h may
    exact ⟨fun hm => congrArg _ ((tryPace_desc h).trans (if_pos hm)), fun hm => congrArg _ ((tryPace_desc h).trans (if_neg hm))⟩
  case asserts =>
    intro ch d s h may
    exact ⟨fun hm => congrArg _ ((peripheralAsserts_desc h).trans (if_pos hm)), fun hm => congrArg _ ((peripheralAsserts_desc h).trans (if_neg hm))⟩
  case empty =>
    intro block chan ch s
    exact ⟨fun h => ⟨congrArg _ (tryPace_empty h), congrArg _ (descriptorDone_empty h)⟩, fun h => congrArg _ (peripheralAsserts_empty h)⟩
  case grants =>
    intro block ready s
    exact ⟨fun w h => congrArg _ (grantBurst_first h), fun h => congrArg _ (grantBurst_none h)⟩
  case completes =>
    intro block chan d s n h past x y
    refine ⟨fun hp last => ?_, fun hp more long => ?_, fun hp more short => ?_, fun hp => congrArg _ (descriptorDone_left h hp)⟩
    · exact congrArg Host.Outcome.next ((descriptorDone_past h hp).trans (if_pos last))
    · exact congrArg Host.Outcome.next ((descriptorDone_past h hp).trans ((if_neg (Bool.eq_false_iff.1 more)).trans (if_pos long)))
    · exact congrArg Host.Outcome.next ((descriptorDone_past h hp).trans
        ((if_neg (Bool.eq_false_iff.1 more)).trans (if_neg (Nat.not_le.2 short))))
  case times =>
    intro block chan s m late
    exact ⟨fun hl h => congrArg _ (moverTimedOut_fetch hl h), fun hl h => congrArg _ (moverTimedOut_moves hl h),
      fun h => congrArg _ (moverTimedOut_left h)⟩

/-! ### The DRAM controllers: a counterexample -/

/-- A drive in operation with one DRAM channel, at work at 6,400 MT/s, of which the housekeeping unit wants 3,200 MT/s. -/
def slowPointWanted : State :=
  let u : State := {}
  { u with
    run := .running, image := { u.image with board := { u.image.board with dramChannels := 1 } }
    dcs := [(0, { st := .active })], hk := { u.hk with want3200 := true } }

/-- Refutes O53: its clause on a change of point that no channel's training fails has nothing changed but the channels. In the model the training's
firings then reach the fault hub as a cycle without a firing, and the hub's count of cycles rises by one. -/
theorem not_dramControllersRun : ¬Obligations.DramControllersRun := by
  intro h
  obtain ⟨-, -, -, -, -, changes, -⟩ := h
  obtain ⟨trained, -⟩ := changes [] slowPointWanted
  have run := trained (by decide) (by decide)
  have cycles : (changeFrequency slowPointWanted []).fh.cycle = 0 := congrArg (·.fh.cycle) (Host.Outcome.next.inj run)
  revert cycles
  decide

end Sys2Proof.Machine
end

section
/-! The sideband (R78, R89 to R91, R568): its answers, command by command. -/
namespace Sys2Proof.Machine

theorem miBytes_length (n k : Nat) (ps : List (Nat × List Byte)) : (miBytes n k ps).length = n := length_patched _ _ _

section
variable {s : State}

/-! ### Serving a command -/

theorem miServe_down (h : sidebandUp s = false) (inSafe : Bool) (go : State → State) : miServe s inSafe go = s := by simp [miServe, h]

section
variable (h : sidebandUp s = true)
include h

theorem miServe_safe (go : State → State) : miServe s true go = go s := by simp [miServe, h]

theorem miServe_normal (hl : s.fh.latch = false) (go : State → State) : miServe s false go = go s := by simp [miServe, h, hl]

theorem miServe_refused (hl : s.fh.latch = true) (go : State → State) : miServe s false go = miAnswer s 3 [] := by simp [miServe, h, hl]

/-! ### Data structures and tunnelled commands -/

section
variable {dtype portId ctrlId : Nat}

theorem miRead_some {bs : List Byte} (hb : miStructure s dtype portId ctrlId = some bs) :
    exec (.miReadDataStructure dtype portId ctrlId) s = .next (miAnswer s 0 bs) :=
  congrArg Host.Outcome.next ((miServe_safe h _).trans (by simp only [hb]))

theorem miRead_none (hb : miStructure s dtype portId ctrlId = none) :
    exec (.miReadDataStructure dtype portId ctrlId) s = .next (miAnswer s 4 []) :=
  congrArg Host.Outcome.next ((miServe_safe h _).trans (by simp only [hb]))

end

section
variable {p : PortId} {opcode field nsid : Nat} {r : LogReq}

theorem miTunnel_no_port (hp : p ∉ ports s) : exec (.miTunnelledAdmin p opcode field nsid r) s = .next (miAnswer s 4 []) :=
  congrArg Host.Outcome.next ((miServe_safe h _).trans (if_pos hp))

theorem miTunnel_identify (hp : p ∈ ports s) : exec (.miTunnelledAdmin p 6 field nsid r) s =
    .next (miTunnelAnswer s ((identifyAnswer s p field nsid).map (slicePage · r) id)) := by
  refine congrArg Host.Outcome.next ((miServe_safe h _).trans ((if_neg (not_not.2 hp)).trans ((if_pos rfl).trans ?_)))
  cases identifyAnswer s p field nsid <;> rfl

theorem miTunnel_page (hp : p ∈ ports s) : exec (.miTunnelledAdmin p 2 field nsid r) s = .next (miTunnelAnswer s (miLogPage s p field r)) :=
  congrArg Host.Outcome.next ((miServe_safe h _).trans ((if_neg (not_not.2 hp)).trans ((if_neg (by decide)).trans (if_pos rfl))))

theorem miTunnel_features (hp : p ∈ ports s) (hl : s.fh.latch = false) :
    exec (.miTunnelledAdmin p 10 field nsid r) s = .next (miGetFeatures s p field) :=
  congrArg Host.Outcome.next ((miServe_safe h _).trans
    ((if_neg (not_not.2 hp)).trans ((if_neg (by decide)).trans ((if_neg (by decide)).trans (if_pos ⟨rfl, hl⟩)))))

theorem miTunnel_unserved (hp : p ∈ ports s) (h6 : opcode ≠ 6) (h2 : opcode ≠ 2) (h10 : ¬(opcode = 10 ∧ s.fh.latch = false)) :
    exec (.miTunnelledAdmin p opcode field nsid r) s = .next (miAnswer s 3 []) :=
  congrArg Host.Outcome.next ((miServe_safe h _).trans
    ((if_neg (not_not.2 hp)).trans ((if_neg h6).trans ((if_neg h2).trans (if_neg h10)))))

end
end

theorem miGetFeatures_none {p : PortId} {fid : Nat} (h : featureDw0 s p fid = none) : miGetFeatures s p fid = miAnswer s 0 [] .invalidField := by
  simp only [miGetFeatures, h, miTunnelAnswer]

theorem miGetFeatures_some {p : PortId} {fid : Nat} {d : BitVec 32} (h : featureDw0 s p fid = some d) :
    miGetFeatures s p fid = miAnswer s 0 (if fid = 0x0E then leBytes 8 (hostStamp s) else []) .success d := by
  simp only [miGetFeatures, h, miTunnelAnswer]

/-! ### Configuration, VPD and the Basic Management Command -/

section
variable (h : sidebandUp s = true) (hl : s.fh.latch = false)
include h hl

theorem miConfigurationGet_answers (w : Nat) : exec (.miConfigurationGet w) s = .next
    (if w = 1 then miAnswer s 0 (leBytes 3 s.misc.smbusFreq) else if w = 2 then miAnswer s 0 (leBytes 3 0)
      else if w = 3 then miAnswer s 0 (leBytes 3 s.misc.mctpUnit) else miAnswer s 4 []) :=
  congrArg Host.Outcome.next (miServe_normal h hl _)

theorem miConfigurationSet_answers (w v : Nat) : exec (.miConfigurationSet w v) s = .next
    (if w = 1 ∧ s.boot.strapSb = false ∧ 1 ≤ v ∧ v ≤ 3 then miAnswer (s.onMisc fun m => { m with smbusFreq := v }) 0 []
      else if w = 3 ∧ 64 ≤ v ∧ v < 65536 then miAnswer (s.onMisc fun m => { m with mctpUnit := v }) 0 [] else miAnswer s 4 []) :=
  congrArg Host.Outcome.next (miServe_normal h hl _)

theorem miVpdRead_answers (offset len : Nat) : exec (.miVpdRead offset len) s = .next
    (if s.boot.romServes = false ∧ s.image.ident.vpdLength < offset + len then miAnswer s 4 []
      else miAnswer s 0 ((List.range len).map fun i => vpdByte s (offset + i))) :=
  congrArg Host.Outcome.next (miServe_normal h hl _)

theorem miVpdRead_image {offset len : Nat} (hr : s.boot.romServes = false) (hv : offset + len ≤ s.image.ident.vpdLength) :
    exec (.miVpdRead offset len) s = .next (miAnswer s 0 ((List.range len).map fun i => nth 0 s.image.ident.vpd (offset + i))) := by
  rw [miVpdRead_answers h hl, if_neg (fun hv' => absurd hv (Nat.not_le.2 hv'.2))]
  simp only [vpdByte, hr, Bool.false_eq_true, if_false]

theorem basicManagement_answers (hb : s.boot.strapSb = false) : ∃ bs, exec .basicManagementCommand s = .next (miAnswer s 0 bs) ∧ bs.length = 30 :=
  ⟨_, congrArg Host.Outcome.next (if_neg (by simp [h, hl, hb])), miBytes_length _ _ _⟩

end

theorem basicManagement_silent (h : sidebandUp s = false ∨ s.boot.strapSb = true ∨ s.fh.latch = true) :
    exec .basicManagementCommand s = .next s := by
  refine congrArg Host.Outcome.next (if_pos ?_)
  obtain h | h | h := h <;> simp [h]

end

/-- Settles O54. In SAFE, before the OTP row is read and in the boot ROM the answers are the model's (log entry 61), and their places and codes are
NVMe-MI's (log entry 3). -/
theorem sidebandAnswers : Obligations.SidebandAnswers := by
  refine ⟨?served, ?settings, ?safe, ?down⟩
  case served =>
    intro s h
    refine ⟨fun dtype portId ctrlId => ⟨fun bs hb => miRead_some h hb, fun hb => miRead_none h hb⟩,
      ⟨_, congrArg Host.Outcome.next (miServe_safe h _), miBytes_length _ _ _⟩, ?polls, congrArg Host.Outcome.next (miServe_safe h _), ?tunnel,
      fun p op field nsid r hp => miTunnel_no_port h hp⟩
    case polls =>
      intro p
      exact ⟨fun hp => ⟨_, congrArg Host.Outcome.next ((miServe_safe h _).trans (if_pos hp)), miBytes_length _ _ _⟩,
        fun hp => congrArg Host.Outcome.next ((miServe_safe h _).trans (if_neg hp))⟩
    case tunnel =>
      intro p field nsid r hp
      refine ⟨fun bs e => ?_, fun st e => ?_, fun bs e => ?_, fun st e => ?_, fun hl => ?_, fun hl e => ?_, fun d hl e => ?_, fun op h6 h2 h10 => ?_⟩
      · rw [miTunnel_identify h hp, e]
        rfl
      · rw [miTunnel_identify h hp, e]
        rfl
      · rw [miTunnel_page h hp, e]
        rfl
      · rw [miTunnel_page h hp, e]
        rfl
      · exact miTunnel_unserved h hp (by decide) (by decide) (by simp [hl])
      · rw [miTunnel_features h hp hl, miGetFeatures_none e]
      · rw [miTunnel_features h hp hl, miGetFeatures_some e]
      · exact miTunnel_unserved h hp h6 h2 (mt And.left h10)
  case settings =>
    intro s h hl
    refine ⟨miConfigurationGet_answers h hl 1, miConfigurationGet_answers h hl 2, miConfigurationGet_answers h hl 3, fun w h1 h2 h3 => ?get,
      fun v low high hb => ?freq, fun v low high => ?unit, fun w v nfreq nunit => ?neither, fun offset len => ?vpd,
      basicManagement_answers h hl, fun hb => basicManagement_silent (.inr (.inl hb))⟩
    case get => rw [miConfigurationGet_answers h hl, if_neg h1, if_neg h2, if_neg h3]
    case freq => rw [miConfigurationSet_answers h hl, if_pos ⟨rfl, hb, low, high⟩]
    case unit => rw [miConfigurationSet_answers h hl, if_neg (by simp), if_pos ⟨rfl, low, high⟩]
    case neither => rw [miConfigurationSet_answers h hl, if_neg nfreq, if_neg nunit]
    case vpd =>
      refine ⟨miVpdRead_image h hl, fun hr hv => ?_, fun hr => ⟨(List.range len).map fun i => vpdByte s (offset + i), ?_, ?_⟩⟩
      · rw [miVpdRead_answers h hl, if_pos ⟨hr, hv⟩]
      · rw [miVpdRead_answers h hl, if_neg (by simp [hr])]
      · rw [List.length_map, List.length_range]
  case safe =>
    intro s h hl
    exact ⟨fun w => congrArg Host.Outcome.next (miServe_refused h hl _), fun w v => congrArg Host.Outcome.next (miServe_refused h hl _),
      fun o n => congrArg Host.Outcome.next (miServe_refused h hl _), basicManagement_silent (.inr (.inr hl))⟩
  case down =>
    intro s h
    have silent (inSafe : Bool) (go : State → State) :
        (.next (miServe s inSafe go) : Host.Outcome State Fault Refusal) = .next s := congrArg _ (miServe_down h inSafe go)
    exact ⟨fun a b c => silent _ _, silent _ _, fun p => silent _ _, fun w => silent _ _, fun w v => silent _ _, fun o n => silent _ _, silent _ _,
      fun p op f n r => silent _ _, basicManagement_silent (.inl h)⟩

end Sys2Proof.Machine
end

section
/-! The diagnostic window after reset (R51, R97, R129, R259, R293, R294, R416, R449, R469, R496, R531, R532, R575, R642), block by block. -/
namespace Sys2Proof.Machine

theorem identityReg_reset (a : Nat) : identityReg State.reset a = if a = 0x20 then 0x46000000 else 0 := by
  have boot : idBoot State.reset = 0 ∧ idBootDetail State.reset = 0 ∧ idBootTime State.reset = 0 ∧ idReset State.reset = 0 := by decide
  have prevSafe : captureBits State.reset.boot.prevSafe = 0 := by decide
  have arch : idChip State.reset = 0x46000000 ∧ idState State.reset = 0 ∧ idConfig State.reset = 0 ∧ idChanEn State.reset = 0 := by decide
  simp only [identityReg, boot, prevSafe, arch, loWord, hiWord, Nat.zero_mod, Nat.zero_div, ite_self]
  grind

theorem ownReg_reset (o : Nat) : ownReg State.reset o = 0 := by
  have status : forceLocked State.reset .A = false ∧ forceLocked State.reset .B = false ∧ State.reset.own.owner = .A ∧
    State.reset.own.phase = .held ∧ State.reset.own.lastWinner = .A := by decide
  have counts : State.reset.own.generation = 0 ∧ downMs State.reset = 0 ∧ State.reset.own.tieCount = 0 ∧ State.reset.own.lastHandoverUs = 0 := by
    decide
  have ports : ownPort State.reset.portA = 0 ∧ ownPort State.reset.portB = 0 := by decide
  simp [ownReg, status, counts, ports, flag, at_, phaseCode]

theorem hfeReg_reset (o : Nat) : hfeReg State.reset State.reset.portA o = 0 := by
  have link : linkUp State.reset.portA = false ∧ State.reset.portA.flit = false ∧ State.reset.portA.laneReversed = false ∧
    State.reset.portA.ltssm = .detect := by decide
  have counts : State.reset.portA.cmds = [] ∧ State.reset.portA.peak = 0 ∧ State.reset.portA.replayCount = 0 ∧
    State.reset.portA.fecCorrected = 0 := by decide
  have power : inTransition State.reset = false ∧ State.reset.misc.drivePs = 0 ∧ State.reset.portA.selPs = 0 := by decide
  simp [hfeReg, link, counts, power, flag, at_, ltssmCode]

theorem sourceWord_nil (k : Nat) : sourceWord [] k = 0 := rfl

theorem classByte_reset (n : Nat) : classByte State.reset n = 0 := rfl

theorem fhReg_reset_other {o : Nat} (h : o ≠ 0x8004) : fhReg State.reset o = 0 := by
  have state : State.reset.fh.latch = false ∧ State.reset.fh.selfSet = false ∧ recent State.reset 600000000 State.reset.fh.c3Times = [] ∧
    State.reset.fh.windows = [] := by decide
  have captured : captureBits State.reset.fh.first = 0 ∧ captureBits State.reset.fh.last = 0 ∧ captureBits State.reset.fh.safe = 0 := by decide
  have sources : State.reset.fh.status = [] ∧ State.reset.fh.sec = [] := ⟨rfl, rfl⟩
  have tags : State.reset.fh.tagPrimary = 0 ∧ State.reset.fh.tagSource = 0 ∧ State.reset.fh.selfBits.toNat = 0 := by decide
  have injection : State.reset.fh.injArmed = false ∧ State.reset.fh.injRefused = false ∧ State.reset.fh.injAddrEn = false ∧
    State.reset.fh.injMode = 0 ∧ State.reset.fh.injSource = 0 ∧ State.reset.fh.injAddr.toNat = 0 := by decide
  have alive : State.reset.fh.aliveDriving = false ∧ State.reset.fh.aliveLevel = false ∧ State.reset.fh.aliveReadback = false ∧
    State.reset.fh.mismatches = 0 ∧ State.reset.fh.legArm.toNat = 0 := by decide
  have classes : sumOf (fun i => 0 * 256 ^ i) (List.range 4) = 0 := by decide
  simp only [fhReg, state, captured, sources, tags, injection, alive, sourceWord_nil, classByte_reset, classes, loWord, hiWord, h]
  simp [flag, at_]

theorem fhReg_reset (o : Nat) : fhReg State.reset o = if o = 0x8004 then 0xA else 0 := by
  obtain rfl | h := eq_or_ne o 0x8004
  · rfl
  · rw [fhReg_reset_other h, if_neg h]

theorem nth_replicate_default {α : Type} (d : α) (k n : Nat) : nth d (List.replicate k d) n = d := by
  rw [nth, List.getD_eq_getElem?_getD, List.getElem?_replicate]
  split <;> rfl

theorem hkReg_reset_input {o : Nat} (h : 0x100 ≤ o ∧ o < 0x150) : hkReg State.reset o = 0x800000 := by
  have input (n : Nat) : nth {} State.reset.hk.inputs n = {} := nth_replicate_default _ 20 n
  have role (n : Nat) : shownRole State.reset n = 0 := rfl
  rw [hkReg, if_neg (by omega), if_pos h]
  simp only [input, role]
  decide

theorem hkReg_reset_other {o : Nat} (h : ¬(0x100 ≤ o ∧ o < 0x150)) : hkReg State.reset o = 0 := by
  have state : State.reset.hk.halt = false ∧ throttlePower State.reset = false ∧ State.reset.hk.level = 0 ∧ hottest State.reset = 0 ∧
    State.reset.hk.rounds = 0 := by decide
  have supply (n : Nat) : nth {} State.reset.hk.supplies n = {} := nth_replicate_default _ 4 n
  have trims : State.reset.hk.curvesOk = false ∧ State.reset.hk.bgTrim = 0 ∧ State.reset.hk.oscTrim = 0 := by decide
  have power : budget State.reset = 0 ∧ State.reset.hk.inUse = 0 ∧ State.reset.hk.waits = 0 ∧ State.reset.hk.activeDies = [] ∧
    State.reset.hk.fault.toNat = 0 := by decide
  simp only [hkReg, h, state, supply, trims, power]
  simp [flag, at_]

theorem hkReg_reset (o : Nat) : hkReg State.reset o = if 0x100 ≤ o ∧ o < 0x150 then 0x800000 else 0 := by
  by_cases h : 0x100 ≤ o ∧ o < 0x150
  · rw [hkReg_reset_input h, if_pos h]
  · rw [hkReg_reset_other h, if_neg h]

theorem moverReg_reset (o : Nat) : moverReg State.reset o = 0 := by
  have channel (n : Nat) : getMover State.reset n = {} := rfl
  have block (n : Nat) : getMoverBlock State.reset n = {} := rfl
  simp only [moverReg, channel, block]
  simp [at_, flag, mvCode, loWord, hiWord]

theorem dcReg_reset (n o : Nat) : dcReg State.reset n o = 0 := rfl
theorem csReg_reset (n o : Nat) : csReg State.reset n o = 0 := rfl
theorem lcReg_reset (n o : Nat) : lcReg State.reset n o = 0 := rfl
theorem codeReg_reset (o : Nat) : codeReg State.reset o = 0 := rfl

theorem plsReg_reset_other {o : Nat} (h : o ≠ 0xC) : plsReg State.reset o = 0 := by
  have status : State.reset.journal.pls = 0 ∧ State.reset.journal.pwrFail = false ∧ State.reset.hk.holdupReady = false ∧
    shownSet State.reset State.reset.journal.setA = 0 ∧ shownSet State.reset State.reset.journal.setB = 0 ∧ State.reset.journal.nR = 0 := by decide
  have flushes : State.reset.journal.anchor.lastFlushUs = 0 ∧ State.reset.journal.anchor.flushes = 0 ∧ State.reset.journal.cover = 0 := by decide
  have records : mapEpoch State.reset = 0 ∧ State.reset.journal.laps = 0 ∧ recordsPerS State.reset = 0 ∧ mjRecovery State.reset = 0 := by decide
  simp only [plsReg, status, flushes, records, h]
  simp [flag, at_]

theorem plsReg_reset (o : Nat) : plsReg State.reset o = if o = 0xC then 0xFFFF0000 else 0 := by
  obtain rfl | h := eq_or_ne o 0xC
  · rfl
  · rw [plsReg_reset_other h, if_neg h]

theorem secReg_reset (o : Nat) : secReg State.reset o = 0 := by
  have status : State.reset.sec.unlock = none ∧ State.reset.sec.sanitize = .none ∧ State.reset.sec.debugOpen = false ∧
    unlockRemain State.reset = 0 ∧ State.reset.sec.lifecycle.toNat = 0 := by decide
  have versions : State.reset.sec.secVersionInUse = 0 ∧ State.reset.sec.floor = 0 := by decide
  have counts : State.reset.portA.chFails = 0 ∧ State.reset.portB.chFails = 0 ∧ State.reset.sec.unlocks = 0 ∧ State.reset.sec.tagFail = 0 := by
    decide
  simp only [secReg, status, versions, counts]
  simp [flag, at_, sanCode]

theorem ite_lt_zero_of_le {a b c : Nat} (h : b ≤ c) (x : Nat) : (if a < b then 0 else if a < c then 0 else x) = if a < c then 0 else x := by
  split
  · rw [if_pos (by omega)]
  · rfl

/-- A word of the window after reset, block by block. -/
theorem regRead_reset (a : Nat) : regRead State.reset a = BitVec.ofNat 32 (
    if a < 0x1000 then (if a = 0x20 then 0x46000000 else 0)
    else if a < 0x10000 then 0
    else if a < 0x20000 then (if a - 0x10000 = 0x8004 then 0xA else 0)
    else if a < 0x30000 then (if 0x100 ≤ a - 0x20000 ∧ a - 0x20000 < 0x150 then 0x800000 else 0)
    else if a < 0x70000 then 0
    else if a < 0x80000 then (if a - 0x70000 = 0xC then 0xFFFF0000 else 0)
    else 0) := by
  have single : State.reset.boot.strapPort = false := rfl
  simp only [regRead, single, identityReg_reset, ownReg_reset, hfeReg_reset, fhReg_reset, hkReg_reset, moverReg_reset, dcReg_reset, csReg_reset,
    lcReg_reset, codeReg_reset, plsReg_reset, secReg_reset, Bool.false_eq_true, if_false, ite_self]
  simp (disch := omega) only [ite_lt_zero_of_le]

/-- Settles O56. -/
theorem registersResetAsTabled : Obligations.RegistersResetAsTabled := by
  intro a aligned window
  rw [regRead_reset, resetWord]
  by_cases chip : a = 0x20
  · subst chip
    rfl
  by_cases layout : a = 0x18004
  · subst layout
    rfl
  by_cases temp : 0x20100 ≤ a ∧ a < 0x20150
  · have offset : 0x100 ≤ a - 0x20000 ∧ a - 0x20000 < 0x150 := by omega
    rw [if_neg (by omega), if_neg (by omega), if_neg (by omega), if_pos (by omega), if_pos offset, if_neg chip, if_neg layout, if_pos temp]
    rfl
  by_cases holdup : a = 0x7000C
  · subst holdup
    rfl
  have other : a - 0x10000 ≠ 0x8004 ∧ ¬(0x100 ≤ a - 0x20000 ∧ a - 0x20000 < 0x150) ∧ a - 0x70000 ≠ 0xC := by omega
  simp only [chip, layout, temp, holdup, other, if_false, ite_self]
  rfl

end Sys2Proof.Machine
end
